-- ==== Sys2Proof/Word.lean ====
section
/-!
DEFINITION. The word types of the model: a register word of 32 bits (R14), a byte, and the plainest arithmetic on them.
Quantities the manual counts (cycles, cells, epochs, tallies) are `Nat`; what it reads and writes as bits is a bit vector.
-/
namespace Sys2Proof

/-- One 32-bit register word (R14). -/
abbrev Word := BitVec 32

/-- One byte of a record, frame, image or memory. -/
abbrev Byte := BitVec 8

/-- A run of bytes in the order in which they are stored or sent. -/
abbrev Bytes := List Byte

/-- The number of bits [hi:lo] of `w`, read as a number (R13: bit 0 is the least significant). -/
def bits (w : Word) (hi lo : Nat) : Nat := (w.toNat >>> lo) % 2 ^ (hi + 1 - lo)

/-- Bit `n` of a register word. -/
def bit (w : Word) (n : Nat) : Bool := w.getLsbD n

/-- A flag as a number, as it stands in a register field. -/
def flag (b : Bool) : Nat := if b then 1 else 0

/-- The value `v` placed at bit `lo`, to be added up into a register word. -/
def place (v lo : Nat) : Nat := v <<< lo

end Sys2Proof
end

