-- ==== Sys2Proof/Syntax.lean ====
section
/-!
DEFINITION. The commands of the block: one constructor per row of spec/opcode_table.json, with the row's operands. An access of
the register port or of the service requester names who makes it; a port event carries what the port carries; a completion
that only the surroundings can decide (an upset cell, a mismatch, an erroneous flash command) carries that as an operand.
-/
namespace Sys2Proof

/-- Who makes a register access: a requester of the reg_ port by its reg_rid_i, or the service requester (R54, R87). -/
inductive Requester where
  | reg (rid : Nat)
  | svc
deriving DecidableEq, Repr

/-- One register access's requester and view: reg_rid_i and reg_view_i (R54); the service requester acts in view 0 (R87). -/
structure Access where
  rq   : Requester
  view : Nat
deriving DecidableEq, Repr

/-- The straps of R90: id_serial_i, id_pkg_i and id_die_i. -/
structure Straps where
  serial : Nat
  pkg    : Nat
  die    : Nat
deriving DecidableEq, Repr

/-- The structure whose read has met an uncorrectable word (R562): a word that no unit's structure holds; the 4 KiB page of a warden fetch; what a
warden data read was in (`bank` none: the warden data memory); a CAP macro or the frozen copy of an epoch; an own record's header, `held` with its sources
at hand; a copy held for resends; a LEAP tree record or a model's head block; the byte of a profile buffer; a trace block by its BSEQ; a recorder
record by its RSEQ; a mailbox's structures. -/
inductive Struck where
  | data
  | wardenFetch (page : Nat)
  | stagingArea
  | baseline (det : Nat)
  | shadow (bundle : Nat)
  | wardenData (bank : Option Nat)
  | captureMacro
  | frozenCopy (epoch : Nat)
  | recordHeader (epoch : Nat) (held : Bool)
  | heldCopy (down : Bool) (epoch node : Nat)
  | treeRecord (copy tree : Nat)
  | headBlock (model : Nat)
  | profileBuffer (seq at0 : Nat)
  | traceBlock (core bseq : Nat)
  | recorderRecord (rseq : Nat)
  | mailbox (m : Nat)
deriving DecidableEq, Repr

/-- An uncorrectable word that MEM rewrites poisoned: its bank, and the structure whose read met it. -/
structure StruckAt where
  bank : Nat
  hit  : Struck
deriving DecidableEq, Repr

/-- One valid increment slot of csp_ (R68). -/
structure IncSlot where
  lane : Nat
  val  : Nat
  clr  : Bool
deriving DecidableEq, Repr

/-- One valid engine-state slot of csp_ (R68); a list of them is in ascending slot order. -/
structure EngSlot where
  engine : Nat
  state  : Nat
  reason : Nat
  cmd    : Bool
  layer  : Nat
  op     : Nat
deriving DecidableEq, Repr

/-- One valid slot of rwp_ (R72): `done` is rwp_kind_i. -/
structure RingSlot where
  ring  : Nat
  done  : Bool
  count : Nat
deriving DecidableEq, Repr

/-- One valid memory-stack ECC slot of hip_ (R77). -/
structure EccSlot where
  stack : Nat
  kind  : Nat
  addr  : Nat
deriving DecidableEq, Repr

/-- One valid sensor slot of hip_ (R77): `val` is the 16-bit twos-complement sample. -/
structure SensorSlot where
  sensor : Nat
  val    : Nat
deriving DecidableEq, Repr

/-- One valid link error slot of hip_ (R77). -/
structure LinkSlot where
  link  : Nat
  count : Nat
deriving DecidableEq, Repr

/-- One valid slot of tip_ (R74). -/
structure TraceSlot where
  core   : Nat
  kind   : Nat
  addr   : Nat
  icount : Nat
deriving DecidableEq, Repr

/-- One leap of one core cycle: the lane that issues it (its S1 picks the context, R368), the upset (if any) that strikes it, as
Machine/Leap.lean reads it (0 none), and the local indices of the words in which it finds a single-bit error (R374), one for each word. -/
structure LeapIssue where
  lane  : Nat
  upset : Nat
  fixed : List Nat
deriving DecidableEq, Repr

/-- A corrupted merge that the residue check of R269 finds in one field; `again` when the recomputed result differs too. -/
structure MergeFault where
  field : Nat
  again : Bool
deriving DecidableEq, Repr

/-- The commands, in the order of the table. -/
inductive Instr where
  /-- POWER_ON_RESET, R101. -/
  | powerOnReset (straps : Straps)
  /-- WARM_RESET, R101. -/
  | warmReset
  /-- SRAM_INITIALISATION, R103. -/
  | sramInitialisation
  /-- CHECKER_SELF_TEST, R560. -/
  | checkerSelfTest (failed : Option Nat)
  /-- KEY_ANCHOR_CAPTURE, R92. -/
  | keyAnchorCapture (anchor : Nat)
  /-- PWR_FAIL_WARN, R105. -/
  | pwrFailWarn
  /-- PWR_FAIL_WARN_FALL, R107. -/
  | pwrFailWarnFall
  /-- POWER_FAIL_FLUSH_DONE, R107. -/
  | powerFailFlushDone
  /-- PWR_ON_ACK, R94. -/
  | pwrOnAck (unit : Nat)
  /-- PWR_ACK_LATE, R684. -/
  | pwrAckLate (unit : Nat)
  /-- UNIT_GATE, R45. -/
  | unitGate (unit : Nat)
  /-- UNIT_RETAIN, R682. -/
  | unitRetain (unit : Nat)
  /-- WAKE_AHEAD, R47. -/
  | wakeAhead
  /-- POWER_REGISTER_WRITE, R683. -/
  | powerRegisterWrite (a : Access) (unit : Nat) (data : Word)
  /-- REGISTER_WRITE, R20. -/
  | registerWrite (a : Access) (off : Nat) (data : Word)
  /-- PAIR_LOW_READ, R15. -/
  | pairLowRead (a : Access) (off : Nat)
  /-- RC_READ, R20. -/
  | rcRead (a : Access) (off : Nat)
  /-- REG_ACKNOWLEDGE, R56. -/
  | regAcknowledge
  /-- FORBIDDEN_ACCESS, R608. -/
  | forbiddenAccess (a : Access) (off : Nat) (data : Option Word)
  /-- SVC_REGISTER_READ, R86. -/
  | svcRegisterRead (addr words : Nat)
  /-- SVC_REGISTER_WRITE, R86. -/
  | svcRegisterWrite (addr : Nat) (data : Bytes)
  /-- SVC_STATUS_READ, R86. -/
  | svcStatusRead
  /-- SVC_UNKNOWN_OPCODE, R86. -/
  | svcUnknownOpcode (opcode : Nat)
  /-- BUF_WRITE, R665. -/
  | bufWrite (addr : Nat) (data : Bytes)
  /-- BUF_READ, R665. -/
  | bufRead (addr words : Nat)
  /-- MM_READ_BEAT, R61. -/
  | mmReadBeat (tag : Nat) (data : Bytes) (last : Bool) (err : Nat)
  /-- MM_WRITE_COMPLETION, R62. -/
  | mmWriteCompletion (tag err : Nat)
  /-- COUNTER_INCREMENT, R69. -/
  | counterIncrement (slots : List IncSlot)
  /-- ENGINE_EVENT, R202. -/
  | engineEvent (slots : List EngSlot)
  /-- RING_EVENT, R213. -/
  | ringEvent (slots : List RingSlot)
  /-- ECC_EVENT, R217. -/
  | eccEvent (slots : List EccSlot)
  /-- SENSOR_SAMPLE, R220. -/
  | sensorSample (slots : List SensorSlot)
  /-- LINK_ERROR_REPORT, R221. -/
  | linkErrorReport (slots : List LinkSlot)
  /-- TRACE_EVENT, R506. -/
  | traceEvent (slots : List TraceSlot)
  /-- TRACE_POWER_DOWN_REQUEST, R515. -/
  | tracePowerDownRequest (core : Nat)
  /-- TRACE_POWER_UP, R516. -/
  | tracePowerUp (core : Nat)
  /-- TRACE_POWER_ACK_TIMEOUT, R76. -/
  | tracePowerAckTimeout (core : Nat)
  /-- STEP_MARK, R208. -/
  | stepMark (a : Access) (data : Word)
  /-- RING_CLEAR, R215. -/
  | ringClear (a : Access) (data : Word)
  /-- PROFILE_BUFFER_COPY, R232. -/
  | profileBufferCopy
  /-- PROFILE_HALT_CLEAR, R234. -/
  | profileHaltClear (a : Access)
  /-- RATE_LOW_WRITE, R152. -/
  | rateLowWrite (a : Access) (base : Nat) (data : Word)
  /-- RATE_COMMIT, R152. -/
  | rateCommit (a : Access) (base : Nat) (data : Word)
  /-- RATE_APPLY, R147. -/
  | rateApply (base : Nat)
  /-- STEP_GO, R154. -/
  | stepGo (a : Access) (base : Nat)
  /-- REARM, R155. -/
  | rearm (a : Access) (base : Nat)
  /-- STEP_APPLY, R153. -/
  | stepApply (base : Nat)
  /-- TIME_NOW_READ, R150. -/
  | timeNowRead (a : Access) (base : Nat)
  /-- EPOCH_STROBE, R163. -/
  | epochStrobe
  /-- CAPTURE_INPUT_EDGE, R172. -/
  | captureInputEdge (inputs : List Nat)
  /-- CAPTURE_FIFO_POP, R189. -/
  | captureFifoPop (a : Access)
  /-- STROBE_ARM, R176. -/
  | strobeArm (a : Access) (strobe : Nat)
  /-- STROBE_FIRE, R176. -/
  | strobeFire (strobe : Nat)
  /-- PPS_OUT_START, R177. -/
  | ppsOutStart
  /-- PPS_OUT_END, R177. -/
  | ppsOutEnd
  /-- EPOCH_SAMPLE_TAKE_UP, R325. -/
  | epochSampleTakeUp (poisoned : List Nat)
  /-- EVENT_SAMPLE_TAKE_UP, R348. -/
  | eventSampleTakeUp (poisoned : List Nat)
  /-- FEATURE_VECTOR_COMPLETE, R345. -/
  | featureVectorComplete
  /-- NEWT_RECORD_READY, R28. -/
  | newtRecordReady (poisoned : List Nat)
  /-- DETECTOR_PASS, R428. -/
  | detectorPass
  /-- PEER_GAP_NOTE, R443. -/
  | peerGapNote
  /-- STRAND_DISPATCH, R421. -/
  | strandDispatch (lane ctx : Nat)
  /-- LEAP, R368. -/
  | leap (issues : List LeapIssue)
  /-- JOB_COMPLETE, R388. -/
  | jobComplete (job : Nat)
  /-- LEAP_SCRUB_READ, R381. -/
  | leapScrubRead (index upset : Nat)
  /-- LEAP_SCRUB_WRITEBACK, R374. -/
  | leapScrubWriteback (index : Nat)
  /-- LANE_ENABLE_WRITE, R391. -/
  | laneEnableWrite (a : Access) (data : Word)
  /-- LEAP_INJECT, R394. -/
  | leapInject (a : Access) (data : Word)
  /-- LOAD, R407. -/
  | load (a : Access)
  /-- EVICT, R406. -/
  | evict (a : Access)
  /-- PIN, R403. -/
  | pin (a : Access)
  /-- UNPIN, R403. -/
  | unpin (a : Access)
  /-- REPAIR, R415. -/
  | repair (a : Access)
  /-- BUNDLE_FETCH_DONE, R400. -/
  | bundleFetchDone
  /-- BUNDLE_VERIFY_DONE, R401. -/
  | bundleVerifyDone
  /-- INSTALL_DONE, R410. -/
  | installDone (badWord : Option Nat)
  /-- RECORD_SEGMENT_RECEIVE, R465. -/
  | recordSegmentReceive (port : Nat) (frame : Bytes)
  /-- RECORD_RECEIVE, R295. -/
  | recordReceive (port : Nat)
  /-- SEAL, R290. -/
  | seal (faults : List MergeFault)
  /-- MERGED_RECORD_READY, R271. -/
  | mergedRecordReady
  /-- DOWN_RECEIVE, R279. -/
  | downReceive (port : Nat)
  /-- CHILD_RECORD_RELEASE, R299. -/
  | childRecordRelease
  /-- FRAME_TRANSMIT_START, R468. -/
  | frameTransmitStart (port : Nat)
  /-- HEARTBEAT_SEND, R474. -/
  | heartbeatSend (port : Nat)
  /-- HEARTBEAT_RECEIVE, R476. -/
  | heartbeatReceive (port : Nat) (frame : Bytes)
  /-- HEARTBEAT_MISS, R475. -/
  | heartbeatMiss (port : Nat)
  /-- LINK_UP_FALL, R82. -/
  | linkUpFall (port : Nat)
  /-- LINK_UP_RISE, R82. -/
  | linkUpRise (port : Nat)
  /-- PORT_CLOCK_STOP, R99. -/
  | portClockStop (port : Nat)
  /-- GATE_WINDOW_CHANGE, R478. -/
  | gateWindowChange (port : Nat)
  /-- UPLINK_REVERT, R487. -/
  | uplinkRevert
  /-- RESEND_REQ_RECEIVE, R467. -/
  | resendReqReceive (port : Nat) (frame : Bytes)
  /-- DOWN_MISSING_TIMEOUT, R466. -/
  | downMissingTimeout
  /-- DOWN_EXPIRED, R469. -/
  | downExpired (port : Nat)
  /-- HELD_COPY_EXPIRY, R467. -/
  | heldCopyExpiry
  /-- START_ISSUE, R489. -/
  | startIssue (a : Access)
  /-- START_RECEIVE, R490. -/
  | startReceive (port : Nat) (frame : Bytes)
  /-- START_RETRY, R495. -/
  | startRetry
  /-- ACK_RECEIVE, R493. -/
  | ackReceive (port : Nat) (frame : Bytes)
  /-- ACK_DEADLINE, R493. -/
  | ackDeadline
  /-- BROADCAST_OUTCOME, R496. -/
  | broadcastOutcome
  /-- ACTIVATE_ISSUE, R128. -/
  | activateIssue
  /-- ACTIVATE_RECEIVE, R130. -/
  | activateReceive (port : Nat) (frame : Bytes)
  /-- VERDICT_RECEIVE, R444. -/
  | verdictReceive (port : Nat) (frame : Bytes)
  /-- VOTE_PROPOSE_RECEIVE, R452. -/
  | voteProposeReceive (port : Nat) (frame : Bytes)
  /-- BALLOT_RECEIVE, R452. -/
  | ballotReceive (port : Nat) (frame : Bytes)
  /-- VOTE_TIMEOUT, R452. -/
  | voteTimeout (vid : Nat)
  /-- VERDICT_RING_WRITE, R447. -/
  | verdictRingWrite
  /-- DETECTOR_THRESHOLD_COMMIT, R457. -/
  | detectorThresholdCommit (a : Access) (data : Word)
  /-- PTP_RECEIVE, R632. -/
  | ptpReceive (port : Nat) (frame : Bytes)
  /-- TRACE_BLOCK_AGE_CLOSE, R509. -/
  | traceBlockAgeClose (core : Nat)
  /-- TRACE_BLOCK_WRITE, R512. -/
  | traceBlockWrite (core : Nat)
  /-- TRACE_HALT_CLEAR, R513. -/
  | traceHaltClear (a : Access) (core : Nat)
  /-- TRACE_RING_SIZE_WRITE, R514. -/
  | traceRingSizeWrite (a : Access) (core : Nat) (data : Word)
  /-- COMPRESS_BLOCK_DONE, R534. -/
  | compressBlockDone (mismatch : Bool)
  /-- RECORDER_WINDOW_SELECT, R524. -/
  | recorderWindowSelect (a : Access) (data : Word)
  /-- RECORDER_FREEZE, R525. -/
  | recorderFreeze (a : Access)
  /-- RECORDER_RELEASE, R525. -/
  | recorderRelease (a : Access)
  /-- RECORDER_FLUSH, R528. -/
  | recorderFlush (a : Access)
  /-- RECORDER_CHUNK_AGE, R526. -/
  | recorderChunkAge
  /-- BUFFER_ARM, R527. -/
  | bufferArm (a : Access) (buffer : Nat)
  /-- RECORDER_RING_SCAN_DONE, R523. -/
  | recorderRingScanDone
  /-- BLACK_BOX_PAGE_DONE, R529. -/
  | blackBoxPageDone
  /-- BLACK_BOX_SET_ERASED, R648. -/
  | blackBoxSetErased
  /-- MERGE_BUFFER_AGE_DRAIN, R555. -/
  | mergeBufferAgeDrain (bank : Nat)
  /-- MEM_SCRUB_READ, R558. -/
  | memScrubRead (bank : Nat)
  /-- MEM_SCRUB_WRITEBACK, R558. -/
  | memScrubWriteback (bank : Nat)
  /-- POISON_REWRITE, R562. -/
  | poisonRewrite (word : StruckAt)
  /-- ERASURE_END, R553. -/
  | erasureEnd (a : Access)
  /-- INJECTION_ARM, R567. -/
  | injectionArm (a : Access) (data : Word)
  /-- FAULT_POP, R602. -/
  | faultPop (a : Access)
  /-- FAIL_SILENT_COMMAND, R571. -/
  | failSilentCommand (a : Access) (data : Word)
  /-- WARDEN_WATCHDOG_EXPIRY, R571. -/
  | wardenWatchdogExpiry
  /-- MIRROR_RECEIVE, R583. -/
  | mirrorReceive (port : Nat)
  /-- SYNC_REQ_SEND, R585. -/
  | syncReqSend
  /-- SYNC_REQ_RECEIVE, R586. -/
  | syncReqReceive (port : Nat)
  /-- SYNC_DATA_RECEIVE, R587. -/
  | syncDataReceive (port : Nat)
  /-- SYNC_WAIT_EXPIRY, R588. -/
  | syncWaitExpiry
  /-- REBUILD_END, R589. -/
  | rebuildEnd
  /-- PANEL_EDGE_SETTLED, R89. -/
  | panelEdgeSettled (input : Nat) (level : Bool)
  /-- LONG_PRESS, R590. -/
  | longPress
  /-- PANEL_REQUEST, R591. -/
  | panelRequest (a : Access)
  /-- PANEL_CANCEL, R596. -/
  | panelCancel (a : Access)
  /-- DEPART_REQUEST_RETRY, R591. -/
  | departRequestRetry
  /-- DEPART_REQUEST_RECEIVE, R593. -/
  | departRequestReceive (port : Nat) (frame : Bytes)
  /-- DEPART_GRANT_RECEIVE, R593. -/
  | departGrantReceive (port : Nat) (frame : Bytes)
  /-- DEPART_SAFE_RECEIVE, R595. -/
  | departSafeReceive (port : Nat) (frame : Bytes)
  /-- DEPART_CANCEL_RECEIVE, R596. -/
  | departCancelReceive (port : Nat) (frame : Bytes)
  /-- DEPART_CANCELLED_RECEIVE, R596. -/
  | departCancelledReceive (port : Nat) (frame : Bytes)
  /-- PANEL_EVENT_POP, R603. -/
  | panelEventPop (a : Access)
  /-- MAILBOX_LOCK_READ, R610. -/
  | mailboxLockRead (a : Access) (mbx : Nat)
  /-- MAILBOX_RELEASE, R611. -/
  | mailboxRelease (a : Access) (mbx : Nat)
  /-- MAILBOX_FORCE_RELEASE, R611. -/
  | mailboxForceRelease (a : Access) (mbx : Nat)
  /-- NOP, R618. -/
  | nop (a : Access) (mbx : Nat) (data : Word)
  /-- DMA, R625. -/
  | dma (a : Access) (mbx : Nat) (data : Word)
  /-- LEAP_RUN, R629. -/
  | leapRun (a : Access) (mbx : Nat) (data : Word)
  /-- PTP_TX, R631. -/
  | ptpTx (a : Access) (mbx : Nat) (data : Word)
  /-- VIEW_CFG, R634. -/
  | viewCfg (a : Access) (mbx : Nat) (data : Word)
  /-- VIEW_FREEZE, R639. -/
  | viewFreeze (a : Access) (mbx : Nat) (data : Word)
  /-- VIEW_THAW, R639. -/
  | viewThaw (a : Access) (mbx : Nat) (data : Word)
  /-- VIEW_SAVE, R640. -/
  | viewSave (a : Access) (mbx : Nat) (data : Word)
  /-- VIEW_RESTORE, R641. -/
  | viewRestore (a : Access) (mbx : Nat) (data : Word)
  /-- VIEW_RESET, R642. -/
  | viewReset (a : Access) (mbx : Nat) (data : Word)
  /-- VIEW_RESET_COMPLETE, R643. -/
  | viewResetComplete (view : Nat)
  /-- DMA_HALT_CLEAR, R627. -/
  | dmaHaltClear (a : Access)
  /-- STAGE, R137. -/
  | stage (a : Access) (slot : Nat)
  /-- DISCARD_STAGED, R137. -/
  | discardStaged (a : Access)
  /-- SCHEDULE_LOCAL, R132. -/
  | scheduleLocal (a : Access)
  /-- STAGING_DONE, R117; `ue` that an uncorrectable memory error has hit the staging area (R137). -/
  | stagingDone
  /-- OLD_IMAGE_RELEASE, R136. -/
  | oldImageRelease
  /-- SETTINGS_READ, R652. -/
  | settingsRead
  /-- FIRMWARE_LOAD, R658. -/
  | firmwareLoad
  /-- SETTINGS_WRITE_DONE, R653. -/
  | settingsWriteDone
  /-- ERASE, R666. -/
  | erase (a : Access)
  /-- PROGRAM, R666. -/
  | program (a : Access)
  /-- READ, R666. -/
  | read (a : Access)
  /-- CHECK, R666. -/
  | check (a : Access)
  /-- SAVE_FLASH, R666. -/
  | saveFlash (a : Access)
  /-- BOOT_STORE_COMMAND_DONE, R668. -/
  | bootStoreCommandDone (flashError : Bool)
  /-- FIRMWARE_SWITCH_ARM, R673. -/
  | firmwareSwitchArm (a : Access) (data : Word)
  /-- TRIAL_CONFIRM, R676. -/
  | trialConfirm (a : Access)
  /-- TRIAL_SELF_CONFIRM, R676. -/
  | trialSelfConfirm
  /-- TRIAL_REJECT, R677. -/
  | trialReject (a : Access)
  /-- TRIAL_EXPIRY, R677. -/
  | trialExpiry
  /-- PACK_SELECT, R678. -/
  | packSelect (a : Access) (data : Word)
  /-- RECEIVED_FRAME_DROP, R460. -/
  | receivedFrameDrop (port : Nat) (rxErr : Bool) (frame : Bytes)
  /-- DOORBELL_UNKNOWN_OPCODE, R619. -/
  | doorbellUnknownOpcode (a : Access) (mbx : Nat) (data : Word)
deriving DecidableEq, Repr

end Sys2Proof
end

