-- ==== Sys2Proof/Decode.lean ====
section
/-!
DEFINITION. Decoding of words: spec/opcode_table.json gives no command of this block any bits, so no word spells a command.
-/
namespace Sys2Proof

def decodeTableWord (_nbits _w : Nat) : Option Instr := none

end Sys2Proof
end

