-- ==== Sys2Proof/Machine/Bytes.lean ====
section
/-!
DEFINITION. Bytes in and out of numbers (R17: little-endian in host memory, the boot store and images; most significant
byte first in Itzil frames and records, R241), saturating counters (R18), generation comparison (R124) and CRC-32C (R245).
-/
namespace Sys2Proof.Machine

/-- The byte at offset `i`, 0 beyond the end. -/
def byteAt (b : Bytes) (i : Nat) : Nat := (b.getD i 0).toNat

/-- The `n` bytes at offset `i`, as far as they exist. -/
def sliceOf (b : Bytes) (i n : Nat) : Bytes := (b.drop i).take n

/-- Little-endian number of a byte run. -/
def leNat : Bytes → Nat
  | [] => 0
  | x :: xs => x.toNat + 256 * leNat xs

/-- Big-endian number of a byte run. -/
def beNat (b : Bytes) : Nat := b.foldl (fun a x => a * 256 + x.toNat) 0

/-- `n` bytes of `v`, least significant first. -/
def toLe : Nat → Nat → Bytes
  | 0, _ => []
  | n + 1, v => BitVec.ofNat 8 v :: toLe n (v / 256)

/-- `n` bytes of `v`, most significant first. -/
def toBe (n v : Nat) : Bytes := (toLe n v).reverse

/-- Little-endian field of `n` bytes at offset `i`. -/
def leAt (b : Bytes) (i n : Nat) : Nat := leNat (sliceOf b i n)

/-- Big-endian field of `n` bytes at offset `i`. -/
def beAt (b : Bytes) (i n : Nat) : Nat := beNat (sliceOf b i n)

/-- `n` zero bytes. -/
def zeros (n : Nat) : Bytes := List.replicate n 0

/-- Zero bytes appended up to a multiple of `k`. -/
def padTo (k : Nat) (b : Bytes) : Bytes := b ++ zeros ((k - b.length % k) % k)

/-- Every byte is zero. -/
def allZero (b : Bytes) : Bool := b.all (· == 0)

/-- `v` written over the bytes at offset `i` (the run keeps its length). -/
def patch (b : Bytes) (i : Nat) (v : Bytes) : Bytes :=
  b.take i ++ v.take (b.length - i) ++ b.drop (i + v.length)

/-- `v` rounded up to a multiple of `k`. -/
def roundUp (v k : Nat) : Nat := (v + k - 1) / k * k

/-- Ceiling division. -/
def ceilDiv (a b : Nat) : Nat := (a + b - 1) / b

/-- A counter of `w` bits saturates at all ones (R18). -/
def satAdd (w a b : Nat) : Nat := min (a + b) (2 ^ w - 1)

/-- A 32-bit counter counts one (R18). -/
def inc32 (a : Nat) : Nat := satAdd 32 a 1

/-- A 32-bit counter counts `n` (R18). -/
def add32 (a n : Nat) : Nat := satAdd 32 a n

/-- `a` is newer than `b` over `w` bits: (a - b) mod 2^w lies between 1 and 2^(w-1) - 1 (R124). -/
def newer (w a b : Nat) : Bool :=
  let d := (a + 2 ^ w - b % 2 ^ w) % 2 ^ w
  decide (1 ≤ d) && decide (d ≤ 2 ^ (w - 1) - 1)

/-- Twos-complement reading of a `w`-bit number. -/
def signed (w v : Nat) : Int := if v % 2 ^ w < 2 ^ (w - 1) then (v % 2 ^ w : Nat) else (v % 2 ^ w : Nat) - (2 ^ w : Int)

/-- The `w`-bit twos complement of an integer. -/
def unsigned (w : Nat) (i : Int) : Nat := (i % (2 ^ w : Int)).toNat

/-- One bit of the reflected CRC-32C of polynomial 0x1EDC_6F41 (R245). -/
def crcBit (c : Nat) : Nat := if c % 2 = 1 then (c / 2) ^^^ 0x82F63B78 else c / 2

/-- One byte of CRC-32C. -/
def crcByte (c : Nat) (b : Byte) : Nat :=
  crcBit (crcBit (crcBit (crcBit (crcBit (crcBit (crcBit (crcBit (c ^^^ b.toNat))))))))

/-- CRC-32C (R245): initial value and final XOR 0xFFFF_FFFF, input and output reflected. -/
def crc32c (b : Bytes) : Nat := (b.foldl crcByte 0xFFFFFFFF) ^^^ 0xFFFFFFFF

/-- Index of the highest set bit; 0 for 0. -/
def topBit (v : Nat) : Nat := Nat.log2 v

/-- Number of set bits among the low `n`. -/
def popCount : Nat → Nat → Nat
  | 0, _ => 0
  | n + 1, v => v % 2 + popCount n (v / 2)

/-- The bit indices below `n` that are set in `v`, ascending. -/
def setBits (n v : Nat) : List Nat := (List.range n).filter (fun i => v.testBit i)

/-- The first element a test accepts, with its index. -/
def findIdx (p : α → Bool) (l : List α) : Option Nat :=
  let i := l.findIdx p
  if i < l.length then some i else none

/-- `l` with element `i` changed. -/
def modAt (l : List α) (i : Nat) (f : α → α) : List α := l.modify i f

/-- Sum of a list. -/
def sumOf (l : List Nat) : Nat := l.foldl (· + ·) 0

/-- Insertion into a list kept ascending by `key`; equal keys keep their arrival order. -/
def insertBy (key : α → Nat) (x : α) : List α → List α
  | [] => [x]
  | y :: ys => if key x < key y then x :: y :: ys else y :: insertBy key x ys

/-- A list sorted ascending by `key`, stable. -/
def sortBy (key : α → Nat) (l : List α) : List α := l.foldl (fun a x => insertBy key x a) []

/-! A table of values by number: an association list kept in ascending order of its keys. -/

/-- The value at key `k`. -/
def lookup (t : List (Nat × α)) (k : Nat) : Option α := (t.find? (fun p => p.1 == k)).map (·.2)

/-- The value at key `k`, or `d`. -/
def lookupD (t : List (Nat × α)) (k : Nat) (d : α) : α := (lookup t k).getD d

/-- Key `k` set to `v`, keys staying in ascending order. -/
def setKey (t : List (Nat × α)) (k : Nat) (v : α) : List (Nat × α) :=
  match t with
  | [] => [(k, v)]
  | (j, w) :: r =>
    if k < j then (k, v) :: (j, w) :: r
    else if k = j then (k, v) :: r
    else (j, w) :: setKey r k v

/-- Key `k` removed. -/
def dropKey (t : List (Nat × α)) (k : Nat) : List (Nat × α) := t.filter (fun p => p.1 != k)

/-- The entry at key `k` (or `d`) changed by `f`. -/
def modKey (t : List (Nat × α)) (k : Nat) (d : α) (f : α → α) : List (Nat × α) := setKey t k (f (lookupD t k d))

end Sys2Proof.Machine
end

