-- ==== Sys2Proof/Machine/Float.lean ====
section
/-!
DEFINITION. IEEE 754 binary32 and binary64 as the manual uses them (R263, R382, R385, R429): every operation is exact on
the operands and rounded once to nearest, ties to even, subnormals kept, no fused operation. A number is its bit pattern.
-/
namespace Sys2Proof.Machine

/-- A binary format: `p` bits of significand (hidden bit included) and `eb` bits of exponent. -/
structure Fmt where
  p  : Nat
  eb : Nat
deriving DecidableEq, Repr

def f32 : Fmt := ⟨24, 8⟩
def f64 : Fmt := ⟨53, 11⟩

/-- Exponent of the least significand unit of a subnormal. -/
def fmtEmin (f : Fmt) : Int := 2 - 2 ^ (f.eb - 1) - ((f.p : Int) - 1)

/-- What a bit pattern stands for: NaN, an infinity, or the finite value (-1)^s * m * 2^e. -/
inductive FVal where
  | nan
  | inf (s : Bool)
  | fin (s : Bool) (m : Nat) (e : Int)
deriving DecidableEq, Repr

/-- The value of a bit pattern. -/
def fdec (f : Fmt) (v : Nat) : FVal :=
  let m := v % 2 ^ (f.p - 1)
  let x := (v / 2 ^ (f.p - 1)) % 2 ^ f.eb
  let s := (v / 2 ^ (f.p - 1 + f.eb)) % 2 == 1
  if x == 2 ^ f.eb - 1 then (if m == 0 then .inf s else .nan)
  else if x == 0 then .fin s m (fmtEmin f)
  else .fin s (m + 2 ^ (f.p - 1)) (fmtEmin f + (x : Int) - 1)

/-- The sign bit as a number. -/
def fsign (f : Fmt) (s : Bool) : Nat := if s then 2 ^ (f.p - 1 + f.eb) else 0

def finf (f : Fmt) (s : Bool) : Nat := fsign f s + (2 ^ f.eb - 1) * 2 ^ (f.p - 1)

/-- The quiet NaN the model writes where an operation gives NaN (its payload never leaves a rule: R323, R383). -/
def fnan (f : Fmt) : Nat := finf f false + 2 ^ (f.p - 2)

def fisNan (f : Fmt) (v : Nat) : Bool := fdec f v == .nan

def fisInf (f : Fmt) (v : Nat) : Bool :=
  match fdec f v with
  | .inf _ => true
  | _ => false

def fisFinite (f : Fmt) (v : Nat) : Bool :=
  match fdec f v with
  | .fin _ _ _ => true
  | _ => false

/-- num / den * 2^e rounded down, and whether a remainder is left: the quotient at exponent `e`. -/
def scaledQuot (num den : Nat) (e : Int) : Nat × Nat × Nat :=
  let n := if e < 0 then num * 2 ^ (-e).toNat else num
  let d := if e < 0 then den else den * 2 ^ e.toNat
  (n / d, n % d, d)

/-- The exact quotient num / den rounded to nearest, ties to even. -/
def froundRat (f : Fmt) (s : Bool) (num den : Nat) : Nat :=
  if num = 0 || den = 0 then fsign f s
  else
    let est : Int := (topBit num : Int) - (topBit den : Int)
    let e0 := max (est - f.p) (fmtEmin f)
    let (q0, _, _) := scaledQuot num den e0
    let e := if 2 ^ f.p ≤ q0 then e0 + 1 else e0
    let (q, r, d) := scaledQuot num den e
    let up := d < 2 * r || (2 * r == d && q % 2 == 1)
    let q' := if up then q + 1 else q
    if q' < 2 ^ (f.p - 1) then fsign f s + q'
    else
      let x := (e - fmtEmin f + 1).toNat
      let v := x * 2 ^ (f.p - 1) + (q' - 2 ^ (f.p - 1))
      if (2 ^ f.eb - 1) * 2 ^ (f.p - 1) ≤ v then finf f s else fsign f s + v

/-- (-1)^s * m * 2^e rounded. -/
def fround (f : Fmt) (s : Bool) (m : Nat) (e : Int) : Nat :=
  if e < 0 then froundRat f s m (2 ^ (-e).toNat) else froundRat f s (m * 2 ^ e.toNat) 1

/-- Negation. -/
def fneg (f : Fmt) (v : Nat) : Nat := v ^^^ fsign f true

/-- Addition. A zero sum is +0 unless both operands are -0. -/
def fadd (f : Fmt) (a b : Nat) : Nat :=
  match fdec f a, fdec f b with
  | .nan, _ => fnan f
  | _, .nan => fnan f
  | .inf s, .inf t => if s == t then finf f s else fnan f
  | .inf s, _ => finf f s
  | _, .inf t => finf f t
  | .fin s m e, .fin t n g =>
    let lo := min e g
    let x : Int := (m * 2 ^ (e - lo).toNat : Nat)
    let y : Int := (n * 2 ^ (g - lo).toNat : Nat)
    let z := (if s then -x else x) + (if t then -y else y)
    if z = 0 then fsign f (s && t) else fround f (z < 0) z.natAbs lo

def fsub (f : Fmt) (a b : Nat) : Nat := if fisNan f b then fnan f else fadd f a (fneg f b)

def fmul (f : Fmt) (a b : Nat) : Nat :=
  match fdec f a, fdec f b with
  | .nan, _ => fnan f
  | _, .nan => fnan f
  | .inf s, .inf t => finf f (s != t)
  | .inf s, .fin t n _ => if n = 0 then fnan f else finf f (s != t)
  | .fin s m _, .inf t => if m = 0 then fnan f else finf f (s != t)
  | .fin s m e, .fin t n g => if m * n = 0 then fsign f (s != t) else fround f (s != t) (m * n) (e + g)

def fdiv (f : Fmt) (a b : Nat) : Nat :=
  match fdec f a, fdec f b with
  | .nan, _ => fnan f
  | _, .nan => fnan f
  | .inf _, .inf _ => fnan f
  | .inf s, .fin t _ _ => finf f (s != t)
  | .fin s _ _, .inf t => fsign f (s != t)
  | .fin s m e, .fin t n g =>
    if n = 0 then (if m = 0 then fnan f else finf f (s != t))
    else if m = 0 then fsign f (s != t)
    else
      let d := e - g
      if d < 0 then froundRat f (s != t) m (n * 2 ^ (-d).toNat) else froundRat f (s != t) (m * 2 ^ d.toNat) n

/-- Correctly rounded square root (R429). -/
def fsqrt (f : Fmt) (a : Nat) : Nat :=
  match fdec f a with
  | .nan => fnan f
  | .inf s => if s then fnan f else finf f false
  | .fin s m e =>
    if m = 0 then a
    else if s then fnan f
    else
      let odd := e % 2 != 0
      let m1 := if odd then m * 2 else m
      let e1 := if odd then e - 1 else e
      let k := 2 * f.p + 4
      let big := m1 * 2 ^ (2 * k)
      let r := Nat.sqrt big
      let r2 := 2 * r + (if r * r == big then 0 else 1)
      fround f false r2 (e1 / 2 - (k : Int) - 1)

/-- The nearest number to an integer. -/
def fofInt (f : Fmt) (i : Int) : Nat := froundRat f (i < 0) i.natAbs 1

def fofNat (f : Fmt) (n : Nat) : Nat := froundRat f false n 1

/-- Order key of R255: -Inf lowest, -0 just below +0, +Inf highest. -/
def fkey (f : Fmt) (v : Nat) : Nat :=
  let h := 2 ^ (f.p - 1 + f.eb)
  if v < h then v + h else 2 * h - 1 - v

/-- IEEE 754 less-than. -/
def flt (f : Fmt) (a b : Nat) : Bool :=
  match fdec f a, fdec f b with
  | .nan, _ => false
  | _, .nan => false
  | .fin _ 0 _, .fin _ 0 _ => false
  | _, _ => fkey f a < fkey f b

/-- IEEE 754 less-or-equal. -/
def fle (f : Fmt) (a b : Nat) : Bool := !(fisNan f a || fisNan f b) && !(flt f b a)

def fmax (f : Fmt) (a b : Nat) : Nat := if flt f a b then b else a

/-- Multiplication by 2^-k, rounded once (R334, R429). -/
def fscale (f : Fmt) (a k : Nat) : Nat :=
  match fdec f a with
  | .fin s m e => if m = 0 then a else fround f s m (e - k)
  | _ => a

/-- Rounding to an integer, ties to even, of a finite number (R338). -/
def froundInt (f : Fmt) (a : Nat) : Int :=
  match fdec f a with
  | .fin s m e =>
    let n :=
      if e < 0 then
        let d := 2 ^ (-e).toNat
        let q := m / d
        let r := m % d
        if d < 2 * r || (2 * r == d && q % 2 == 1) then q + 1 else q
      else m * 2 ^ e.toNat
    if s then -(n : Int) else n
  | _ => 0

/-- A binary32 number widened exactly to binary64 (R390). -/
def f32to64 (a : Nat) : Nat :=
  match fdec f32 a with
  | .nan => fnan f64
  | .inf s => finf f64 s
  | .fin s m e => if m = 0 then fsign f64 s else fround f64 s m e

def fone : Nat := fofNat f64 1

/-! The heads' exponentials (R385). The exact real result is bracketed in fixed point of `expBits` fraction bits, far below
half a unit of the last place of any binary32 result that is not itself exact, and then rounded once. -/

/-- Fraction bits of the fixed-point exponentials. -/
def expBits : Nat := 640

/-- Σ x^k / k! in fixed point, `n` terms, for a fixed-point x below 1. -/
def expSeries (x : Nat) : Nat → Nat → Nat → Nat → Nat
  | 0, _, _, acc => acc
  | n + 1, k, term, acc =>
    let t := term * x / 2 ^ expBits / k
    expSeries x n (k + 1) t (acc + t)

/-- exp of a fixed-point number in [0, 1). -/
def expFix (x : Nat) : Nat := expSeries x 140 1 (2 ^ expBits) (2 ^ expBits)

/-- atanh-series term sum for ln 2 = 2 * Σ 1 / ((2k+1) 3^(2k+1)). -/
def ln2Series : Nat → Nat → Nat → Nat → Nat
  | 0, _, _, acc => acc
  | n + 1, k, pow, acc => ln2Series n (k + 2) (pow / 9) (acc + pow / k)

/-- ln 2 in fixed point. -/
def ln2Fix : Nat := 2 * ln2Series 220 1 (2 ^ expBits / 3) 0

/-- exp of the rational i * 2^-expBits as (m, e): the value m * 2^e. -/
def expParts (x : Int) : Nat × Int :=
  let n := x / (ln2Fix : Int)
  let r := (x % (ln2Fix : Int)).toNat
  (expFix r, n - (expBits : Int))

/-- A finite binary number as fixed point (exact: binary32 inputs have far fewer fraction bits). -/
def toFix (s : Bool) (m : Nat) (e : Int) : Int :=
  let k := e + (expBits : Int)
  let v : Nat := if k < 0 then m / 2 ^ (-k).toNat else m * 2 ^ k.toNat
  if s then -(v : Int) else v

/-- Largest magnitude, in whole units, beyond which a binary32 head output no longer moves. -/
def expLimit : Int := 400 * 2 ^ expBits

/-- A fixed-point number kept within the range in which binary32 outputs move. -/
def clampFix (x : Int) : Int := max (-expLimit) (min expLimit x)

/-- exp of each input relative to 2^e for one common e: integers in proportion to the exponentials. -/
def expScaled (x : Int) (top : Int) : Nat :=
  let (m, e) := expParts x
  let d := e - top
  if d < 0 then m / 2 ^ (-d).toNat else m * 2 ^ d.toNat

/-- SIGMOID of a binary32 number, correctly rounded (R385). -/
def fsigmoid (a : Nat) : Nat :=
  match fdec f32 a with
  | .nan => fnan f32
  | .inf s => if s then 0 else fofNat f32 1
  | .fin s m e =>
    let x := clampFix (toFix s m e)
    -- 1 / (1 + exp(-x)) = exp(x) / (exp(x) + 1)
    let (v, g) := expParts x
    if g < 0 then froundRat f32 false v (v + 2 ^ (-g).toNat)
    else froundRat f32 false (v * 2 ^ g.toNat) (v * 2 ^ g.toNat + 1)

/-- SOFTMAX of binary32 numbers, correctly rounded (R385). -/
def fsoftmax (xs : List Nat) : List Nat :=
  let isPos := fun v => fdec f32 v == .inf false
  let isNeg := fun v => fdec f32 v == .inf true
  if xs.any (fisNan f32) || xs.any isPos || xs.all isNeg then xs.map (fun _ => fnan f32)
  else
    let fixOf := fun v =>
      match fdec f32 v with
      | .fin s m e => some (toFix s m e)
      | _ => none
    let fs := xs.map fixOf
    let top := fs.foldl (fun a x =>
      match a, x with
      | none, y => y
      | some p, some q => some (max p q)
      | some p, none => some p) none
    let t := top.getD 0
    let es := fs.map (fun x =>
      match x with
      | some v => expScaled (clampFix (v - t)) (-(expBits : Int) - 600)
      | none => 0)
    let sum := sumOf es
    es.map (fun v => froundRat f32 false v sum)

/-- 2^(-h / c) of binary32 numbers h and c > 0, correctly rounded (IFOREST, R384, R385). -/
def fpow2neg (h c : Nat) : Nat :=
  match fdec f32 h, fdec f32 c with
  | .fin s m e, .fin _ n g =>
    if n = 0 then fnan f32
    else
      let d := e - g
      let num : Int := if d < 0 then (m : Int) else ((m * 2 ^ d.toNat : Nat) : Int)
      let den : Int := if d < 0 then ((n * 2 ^ (-d).toNat : Nat) : Int) else (n : Int)
      let t := if s then num else -num
      let k := max (-2000) (min 2000 (t / den))
      let r := (t % den).toNat
      let x := r * ln2Fix / den.toNat
      if r = 0 then fround f32 false 1 k else fround f32 false (expFix x) (k - (expBits : Int))
  | .inf s, .fin _ _ _ => if s then finf f32 false else 0
  | _, _ => fnan f32

end Sys2Proof.Machine
end

