-- ==== Sys2Proof/Config.lean ====
section
/-!
DEFINITION. What an integration fixes before the block runs (R6, R30 to R33): the parameter class, the node class, the sizes
marked with a range, the clock frequencies of R38; and the values the manual leaves free (R157, R269). The sizes of R30 are
functions of the integration.
-/
namespace Sys2Proof

/-- The parameter class (R6, R11): NEWT-S or SPIRE-L. -/
inductive PClass where
  | newtS
  | spireL
deriving DecidableEq, Repr

/-- The process node class (R11). -/
inductive NodeClass where
  | n3
  | n6
  | n12
deriving DecidableEq, Repr

/-- The integration parameters of R30 and the frequencies of R38, in MHz. No command changes them. -/
structure Integ where
  cls      : PClass
  node     : NodeClass
  sramMib  : Nat
  lanes    : Nat
  cam      : Nat
  views    : Nat
  counters : Nat
  rings    : Nat
  engines  : Nat
  traces   : Nat
  coreMHz  : Nat
  hostMHz  : Nat
deriving DecidableEq, Repr

namespace Config

/-- NEWT-S at the defaults of R30, on an N3-class die at 1.6 GHz with a 1 GHz host clock. -/
def newtDefault : Integ :=
  { cls := .newtS, node := .n3, sramMib := 6, lanes := 4, cam := 32768, views := 32, counters := 4096,
    rings := 65536, engines := 512, traces := 64, coreMHz := 1600, hostMHz := 1000 }

/-- SPIRE-L at the defaults of R30, on an N6-class die at 1.0 GHz. -/
def spireDefault : Integ :=
  { cls := .spireL, node := .n6, sramMib := 48, lanes := 16, cam := 262144, views := 256, counters := 1024,
    rings := 16384, engines := 64, traces := 16, coreMHz := 1000, hostMHz := 1000 }

/-- The class is SPIRE-L. -/
def isSpireL (c : Integ) : Bool := c.cls == .spireL

/-- `a` in NEWT-S, `b` in SPIRE-L. -/
def byClass (c : Integ) (a b : Nat) : Nat := if isSpireL c then b else a

/-- SRAM banks: one per MiB, or one per 2 MiB (R30). -/
def banks (c : Integ) : Nat := if isSpireL c then c.sramMib / 2 else c.sramMib

/-- 16-byte words in one bank (R103). -/
def bankWords (c : Integ) : Nat := byClass c 65536 131072

/-- Entries of one associative segment (R30). -/
def segEntries (c : Integ) : Nat := byClass c 4096 8192

/-- Associative segments (R30). -/
def segments (c : Integ) : Nat := c.cam / segEntries c

/-- Resident models (R30). -/
def models (c : Integ) : Nat := byClass c 16 64

/-- Itzil ports (R30, R7). -/
def ports (c : Integ) : Nat := byClass c 2 176

/-- Local Itzil ports, the rest are serial (R52). -/
def localPorts (c : Integ) : Nat := byClass c 2 128

/-- DMA channels (R30). -/
def dmaChannels (c : Integ) : Nat := byClass c 16 32

/-- Capture inputs and strobes (R30, R83). -/
def capInputs (c : Integ) : Nat := byClass c 8 32

/-- Time bases (R30). -/
def timeBases (c : Integ) : Nat := byClass c 1 4

/-- Memory-stack health inputs (R30). -/
def memStacks (c : Integ) : Nat := byClass c 64 16

/-- Sensor inputs (R30). -/
def sensors : Nat := 256

/-- Event recorder ring in bytes (R30). -/
def recorderBytes (c : Integ) : Nat := byClass c 1048576 8388608

/-- FEAT's input queue in samples (R27). -/
def featQueue (c : Integ) : Nat := byClass c 256 64

/-- Epoch table slots (R30). -/
def epochSlots : Nat := 64

/-- The free value of R157: for the n-th warm reset that meets a crossing write, whether the write is applied (true) or
discarded. No body: nothing in the model can tell which. -/
opaque warmCut : Nat → Bool

/-- The free value of R269: the merge slice (0 to 3) that works on a field, which the manual does not state. -/
opaque redSlice : Nat → BitVec 2

/-- The free value of R437: what HITS, LIMIT and VALUE of a NOPEER verdict hold, which the manual does not state. -/
opaque vrdOpen : Nat → BitVec 64

/-- The free value of R580: what the header fields of a SYNC_REQ, and of a SYNC_DATA that holds no mirror, hold beyond NODE, which the manual
does not state. -/
opaque mirOpen : Nat → BitVec 64

/-- The free value of R668: byte n of a range whose erase or program the flash reports failed, which the manual does not state. -/
opaque flashOpen : Nat → BitVec 8

end Config

end Sys2Proof
end

