-- ==== Sys2Proof/Machine/Image.lean ====
section
/-!
DEFINITION. The structure image as data: what each section of R113 lays down once the loader has read it. Lists keep the
order of the section; a map of bits is the ascending list of the indices whose bit is 1.
-/
namespace Sys2Proof.Machine

/-- A directory entry (R111). -/
structure DirEnt where
  ty       : Nat
  flags    : Nat
  off      : Nat
  len      : Nat
  crc      : Nat
deriving DecidableEq, Repr

/-- NODE (R116). `e` is the epoch exponent. -/
structure NodeSec where
  nodeId    : Nat
  h         : Nat
  hmax      : Nat
  e         : Int
  lPeer     : Nat
  wH        : Nat
  parentPri : Nat
  parentAlt : Nat
  portPri   : Nat
  portAlt   : Nat
deriving DecidableEq, Repr

/-- A lane entry of CAPTURE (R226). -/
structure LaneEnt where
  lane  : Nat
  mode  : Nat
  vis   : Nat
  owner : Nat
deriving DecidableEq, Repr

/-- CAPTURE (R225). `stacks` pairs a captured stack with its capacity in GiB, `rings` a watched ring with its group. -/
structure CaptureSec where
  lanes     : List LaneEnt
  engEn     : Bool
  optabEn   : Bool
  ringEn    : Bool
  healthEn  : Bool
  stepEn    : Bool
  profKinds : Nat
  obsCap    : Nat
  stale     : Nat
  engines   : List Nat
  sensors   : List Nat
  links     : List Nat
  traces    : List Nat
  memStacks    : List (Nat × Nat)
  rings     : List (Nat × Nat)
deriving DecidableEq, Repr

/-- A feature descriptor (R352). `k` is the smoothing exponent of EWMA. -/
structure FeatDesc where
  hash       : Nat
  cls        : Nat
  pre        : Nat
  k          : Nat
  xform      : Nat
  selfHealth : Bool
  srcA       : Nat
  srcB       : Nat
  srcC       : Nat
  p0         : Nat
  p1         : Nat
deriving DecidableEq, Repr

/-- A boundary table (R353): TYPE and its values as 64-bit words. -/
structure BinTab where
  ty   : Nat
  vals : List Nat
deriving DecidableEq, Repr

/-- FEATURE (R351). -/
structure FeatureSec where
  feats : List FeatDesc
  tabs  : List BinTab
deriving DecidableEq, Repr

/-- A field descriptor of SCHEMA (R283). -/
structure FieldDesc where
  op       : Nat
  ty       : Nat
  jobbound : Bool
  dir      : Bool
  param    : Nat
  jobsel   : Nat
  src      : Nat
  thresh   : Nat
  hash     : Nat
  owner    : Nat
deriving DecidableEq, Repr

/-- A DOWN descriptor (R285). -/
structure DownDesc where
  hash  : Nat
  momf  : Nat
  histf : Nat
  q     : List Nat
deriving DecidableEq, Repr

/-- SCHEMA (R282). `pairs` is the pair table: lane and destination group. -/
structure SchemaSec where
  schema     : Nat
  prev       : Nat
  srcGroup   : Nat
  summaryAt  : Nat
  prevFields : Nat
  fields     : List FieldDesc
  map        : List Nat
  downs      : List DownDesc
  pairs      : List (Nat × Nat)
deriving DecidableEq, Repr

/-- A port entry of TOPOLOGY (R499): KIND 1 primary, 2 alternate, 3 downlink, 4 buddy, 5 delivery. `pidx` is bits [31:24] of
the PEER word, which R499 leaves open: the primary uplink's gives PIDX of R304 (see the assumption log). -/
structure PortEnt where
  port    : Nat
  kind    : Nat
  mtu     : Nat
  peer    : Nat
  pidx    : Nat
  rate    : Nat
  ovh     : Nat
  cap     : Nat
  rxcells : Nat
deriving DecidableEq, Repr

/-- A child entry of TOPOLOGY (R500). -/
structure ChildEnt where
  node    : Nat
  port    : Nat
  standby : Bool
  leaves  : Nat
  primary : Nat
deriving DecidableEq, Repr

/-- TOPOLOGY (R498). -/
structure TopoSec where
  ports    : List PortEnt
  children : List ChildEnt
  revert   : Nat
  due      : Nat
deriving DecidableEq, Repr

/-- A gate list (R480). Entries are (open, duration in ns). -/
structure GateList where
  port    : Nat
  cycle   : Nat
  phase   : Nat
  entries : List (Bool × Nat)
deriving DecidableEq, Repr

/-- A detector entry (R454). `h` and `k` are F64 words; `side` has bit 0 UP and bit 1 DOWN. -/
structure DetEnt where
  kind    : Nat
  cls     : Nat
  side    : Nat
  kb      : Nat
  src     : Nat
  h       : Nat
  k       : Nat
  m       : Nat
  n       : Nat
  lambda  : Nat
  qidx    : Nat
  margin  : Nat
  holdoff : Nat
  hash    : Nat
deriving DecidableEq, Repr

/-- DETECT (R453). -/
structure DetectSec where
  vcap        : Nat
  quorum      : Bool
  warmup      : Nat
  peerGap     : Nat
  spCap       : Nat
  spRefill    : Nat
  domeRate    : Nat
  domeCap     : Nat
  fleetLeaves : Nat
  voteWait    : Nat
  dets        : List DetEnt
deriving DecidableEq, Repr

/-- A slot entry of EPOCHTAB (R417). -/
structure SlotEnt where
  bundle   : Nat
  fallback : Nat
  model    : Nat
  cls      : Nat
  tier     : Nat
  period   : Nat
  phase    : Nat
  view     : Nat
deriving DecidableEq, Repr

/-- EPOCHTAB (R416): the slots and the shares by view. -/
structure EpochSec where
  reserve : Nat
  slots   : List SlotEnt
  shares  : List (Nat × Nat)
deriving DecidableEq, Repr

/-- An entry of VIEWS, and of VIEW_CFG (R633). -/
structure ViewEnt where
  view     : Nat
  dma      : Bool
  tb3      : Bool
  deliver  : Bool
  sramKib  : Nat
  hbase    : Nat
  hsize    : Nat
  bundleLo : Nat
  bundleHi : Nat
deriving DecidableEq, Repr

/-- VIEWS (R633). -/
structure ViewsSec where
  poolKib : Nat
  ents    : List ViewEnt
deriving DecidableEq, Repr

/-- PANEL (R601): plug-detect inputs as (kind, index) and LEDs as (func, arg). -/
structure PanelSec where
  drainLead : Nat
  plug      : List (Nat × Nat)
  led       : List (Nat × Nat)
deriving DecidableEq, Repr

/-- TIMEBASE (R184). -/
structure TimebaseSec where
  kind1       : Nat
  kind2       : Nat
  kind3       : Nat
  view        : Nat
  anchorSec   : Nat
  anchorNs    : Nat
  anchorEpoch : Nat
  capMap      : List Nat
  portComp    : List Nat
deriving DecidableEq, Repr

/-- A structure image that the loader has accepted (R110, R113). ROLE is encoded as in SVC_CLASS.ROLE. -/
structure Image where
  role     : Nat
  gen      : Nat
  schemaNo : Nat
  len      : Nat
  build    : Nat
  nodeId   : Nat
  node     : NodeSec
  capture  : Option CaptureSec
  feature  : FeatureSec
  schema   : SchemaSec
  reduce   : List Nat
  topo     : TopoSec
  gates    : List GateList
  detect   : DetectSec
  epochtab : Option EpochSec
  views    : Option ViewsSec
  panel    : Option PanelSec
  timebase : Option TimebaseSec
deriving DecidableEq, Repr

/-- The epoch length in units of 2^-10 ns: 1,000,000 × 2^E ns (R160). -/
def epochTicks (e : Int) : Nat := 1000000 * 2 ^ (e + 10).toNat

/-- The epoch length in units of 2^-44 ns, the resolution of a base's fraction. -/
def epochFine (e : Int) : Nat := epochTicks e * 2 ^ 34

/-- The grid origin in seconds (R161). -/
def gridOrigin : Nat := 1735689600

/-- Children without STANDBY, in order: their positions are the child indices (R500). -/
def childrenOf (t : TopoSec) : List ChildEnt := t.children.filter (fun c => !c.standby)

def standbyOf (t : TopoSec) : List ChildEnt := t.children.filter (fun c => c.standby)

/-- The port entry of port `p`. -/
def portEnt (t : TopoSec) (p : Nat) : Option PortEnt := t.ports.find? (fun x => x.port == p)

/-- The ports of one KIND, ascending. -/
def portsOfKind (t : TopoSec) (k : Nat) : List Nat :=
  sortBy id ((t.ports.filter (fun x => x.kind == k)).map (·.port))

/-- Downlinks, ascending. -/
def downlinks (t : TopoSec) : List Nat := portsOfKind t 3

/-- Buddy ports, ascending. -/
def buddyPorts (t : TopoSec) : List Nat := portsOfKind t 4

/-- The child entry on a port. -/
def childOnPort (t : TopoSec) (p : Nat) : Option ChildEnt := t.children.find? (fun c => c.port == p)

/-- Child index of a node ID. -/
def childIndex (t : TopoSec) (n : Nat) : Option Nat := findIdx (fun c => c.node == n) (childrenOf t)

/-- Ring groups in use, ascending (R688). -/
def groupsInUse (c : CaptureSec) : List Nat := sortBy id (c.rings.map (·.2)).eraseDups

/-- The bytes of a segment's record part: floor((MTU − 32) ÷ 16) × 16 (R464). -/
def segMax (mtu : Nat) : Nat := (mtu - 32) / 16 * 16

/-- Largest number of leaves whose record the node can merge: the TOPOLOGY counts, standby children included. -/
def leavesMax (t : TopoSec) : Nat := min 1048576 (sumOf (t.children.map (·.leaves)))

/-- Worst value-area length of a field in FULL form (R256), `n` leaves below. -/
def fieldLenMax (n : Nat) (f : FieldDesc) : Nat :=
  if f.op ≤ 6 then 8 else if f.op = 7 then 24 else if f.op = 8 then 272 else if f.op = 9 then 8 + 24 * f.param
  else if f.op = 10 then 16 + 16 * 64 else 8 + 12 * n

/-- Worst value-area length in SUMMARY form (R274). -/
def fieldLenSum (f : FieldDesc) : Nat :=
  if f.op ≤ 6 then 8 else if f.op = 7 then 24 else if f.op = 8 then 272 else if f.op = 9 then 32 else 0

/-- Worst LENGTH of a record the image can form (R244). -/
def worstRecord (role : Nat) (health : Bool) (s : SchemaSec) (red : List Nat) (t : TopoSec) : Nat :=
  let n := if role = 1 then 1 else leavesMax t
  let sent (i : Nat) : Bool := role = 1 || red.getD i 1 == 1
  let idx := List.range s.fields.length
  let area := sumOf (idx.map (fun i => 16 + (match s.fields[i]? with
    | some f => if sent i then fieldLenMax n f else 0
    | none => 0)))
  let grp := roundUp (32 + sumOf (idx.map (fun i => 16 + (match s.fields[i]? with
    | some f => if sent i then fieldLenSum f else 0
    | none => 0)))) 16
  let head := 160 + (if role ≠ 1 && health then 32 else 0) + (if role = 1 then 0 else 64)
  roundUp (head + area) 16 + (if role = 1 then 0 else 16 + 8 * grp)

/-- Bytes of a DOWN record (R276). -/
def downLen (s : SchemaSec) : Nat := 128 + 64 * s.downs.length

/-- Frames that a record of `len` bytes takes on a port (R464). -/
def framesFor (len mtu : Nat) : Nat := ceilDiv len (max 1 (segMax mtu))

/-- The image captures health (R249). -/
def healthEn (im : Image) : Bool :=
  match im.capture with
  | some c => c.healthEn
  | none => false

/-- Worst record length of a loaded image. -/
def worstOf (im : Image) : Nat := worstRecord im.role (healthEn im) im.schema im.reduce im.topo

/-- The mirror buddy's port: the first entry of KIND buddy (R579); a Newt keeps no mirror. -/
def mirrorPort (im : Image) : Option Nat := if im.role < 2 then none else (im.topo.ports.find? (fun p => p.kind == 4)).map (·.port)

/-- Features with a state: DELTA and EWMA (R581). -/
def statefulFeats (im : Image) : List (Nat × FeatDesc) :=
  ((List.range im.feature.feats.length).zip im.feature.feats).filter (fun p => p.2.pre == 1 || p.2.pre == 4)

/-- Bytes that a STRAG entry adds to a mirror's body (R581). -/
def stragMirror (d : DetEnt) : Nat := if d.kind = 4 then roundUp (4 * d.n + 2048) 16 else 0

/-- Bytes of a mirror block with its full body (R580, R581). -/
def mirrorLen (im : Image) : Nat :=
  64 + 64 * im.detect.dets.length + 16 * (statefulFeats im).length + sumOf (im.detect.dets.map stragMirror)

/-- What mirrors add to the demand of a port, `mp` their period's exponent (R584). -/
def mirrorDemand (im : Image) (p : PortEnt) (mp : Nat) : Nat :=
  if mirrorPort im = some p.port then ceilDiv (mirrorLen im + framesFor (mirrorLen im) p.mtu * p.ovh) (2 ^ mp) else 0

/-- Worst-case demand in bytes per epoch on a port (R119, R120, R584). A HEARTBEAT, VERDICT and VOTE frame at its worst length is
64, 128 and 136 bytes with its header. -/
def portDemand (im : Image) (p : PortEnt) (mp : Nat) : Nat :=
  let hb := epochTicks im.node.e / (2000 * 1024) + 1
  let base := hb * (64 + p.ovh) + mirrorDemand im p mp
  let rec1 := framesFor (worstOf im) p.mtu
  let votes := if im.detect.quorum then 2 * (buddyPorts im.topo).length else 0
  let up := rec1 * p.ovh + (worstOf im + 32 * rec1) + im.detect.vcap * (128 + p.ovh) + votes * (136 + p.ovh)
  let fr := framesFor (downLen im.schema) p.mtu
  let down := fr * p.ovh + (downLen im.schema + 32 * fr)
  if p.kind = 1 ∨ p.kind = 2 then base + up else if p.kind = 3 then base + down else base

/-- Demand exceeds the available bytes cap × rate × t_epoch ÷ 8 (R119), `cap` in units of 0.01%. -/
def overBudget (im : Image) (p : PortEnt) (cap mp : Nat) : Bool :=
  decide (portDemand im p mp * 8 * 10 ^ 13 * 1024 > cap * p.rate * epochTicks im.node.e)

/-- The guard band of a port in ns (R479). -/
def guardNs (p : PortEnt) : Nat := ceilDiv ((p.mtu + p.ovh) * 8 * 1000000000) (max 1 p.rate)

/-- A gate list has at least one closed entry. -/
def gateCloses (g : GateList) : Bool := g.entries.any (fun e => !e.1)

/-- The entries as intervals [from, to) from the start of a gate cycle. -/
def gateSpans : List (Bool × Nat) → Nat → List (Bool × Nat × Nat)
  | [], _ => []
  | (o, d) :: r, t => (o, t, t + d) :: gateSpans r (t + d)

/-- Adjoining open spans joined into maximal runs. -/
def joinOpen : List (Bool × Nat × Nat) → List (Nat × Nat) → List (Nat × Nat)
  | [], acc => acc.reverse
  | (false, _, _) :: r, acc => joinOpen r acc
  | (true, a, b) :: r, (x, y) :: acc => if y = a then joinOpen r ((x, b) :: acc) else joinOpen r ((a, b) :: (x, y) :: acc)
  | (true, a, b) :: r, [] => joinOpen r [(a, b)]

/-- The open windows of a list that closes somewhere, over one cycle: each maximal run of open time (R123), starting in the
cycle; a run that wraps from the last entry into the first of the next cycle ends beyond CYCLE. -/
def gateWindows (g : GateList) : List (Nat × Nat) :=
  let two := joinOpen (gateSpans (g.entries ++ g.entries) 0) []
  let wraps := (match g.entries.head?, g.entries.getLast? with
    | some (true, _), some (true, _) => true
    | _, _ => false)
  (two.filter (fun w => decide (w.1 < g.cycle))).filter (fun w => !(wraps && w.1 == 0))

/-- Overlap of [a, b) and [c, d). -/
def overlap (a b c d : Int) : Nat := (min b d - max a c).toNat

/-- Usable open time, in units of 2^-10 ns, that falls in [from, from + len) after the start of a gate cycle, windows reduced
by the guard band (R123). -/
def usableIn (g : GateList) (guard : Nat) (start : Int) (len : Nat) : Nat :=
  let cyc : Int := (g.cycle * 1024 : Nat)
  if !gateCloses g then len
  else
    let copies := (List.range (len / (g.cycle * 1024) + 4)).map (fun (k : Nat) => (start / cyc - 2 + (k : Int)) * cyc)
    sumOf ((gateWindows g).map (fun w => sumOf (copies.map (fun o =>
      overlap (o + ((w.1 * 1024 : Nat) : Int)) (o + (((w.2 - guard) * 1024 : Nat) : Int)) start (start + (len : Int))))))

/-- The gate check of R123 on one port; its cycles begin on the grid where the shorter of cycle and epoch divides PHASE. -/
def gateOk (im : Image) (p : PortEnt) (g : GateList) : Bool :=
  let t := epochTicks im.node.e
  let c := g.cycle * 1024
  let enough (start : Int) : Bool :=
    decide (usableIn g (guardNs p) start t * p.rate ≥ portDemand im p 6 * 8 * 1000000000 * 1024)
  if g.phase * 1024 % min c t ≠ 0 then false
  else if c % t = 0 then (List.range (c / t)).all (fun j => enough ((j * t : Nat) - ((g.phase * 1024 : Nat) : Int)))
  else if t % c = 0 then enough (0 - ((g.phase * 1024 : Nat) : Int))
  else false

/-- The view that TIMEBASE gives TB3, 0 for none. -/
def tb3View (im : Image) : Nat :=
  match im.timebase with
  | some t => if t.kind3 = 3 then t.view else 0
  | none => 0

/-- The image's anchor: T_A in seconds and ns, and e_A (R161). -/
def anchorOf (im : Image) : Nat × Nat × Nat :=
  match im.timebase with
  | some t => (t.anchorSec, t.anchorNs, t.anchorEpoch)
  | none => (gridOrigin, 0, 0)

/-- The capture map in force: one byte per input (R184, R186). -/
def capMapOf (k : Nat) (im : Image) : List Nat :=
  match im.timebase with
  | some t => t.capMap
  | none => (List.range 32).map (fun i => if i < k then 4 else 0)

/-- Port compensations of serial ports 128 to 175 (R184, R186). -/
def portCompOf (im : Image) : List Nat :=
  match im.timebase with
  | some t => t.portComp
  | none => List.replicate 48 0

/-- KIND of a base (R158, R184). -/
def kindOf (im : Image) (n : Nat) : Nat :=
  match im.timebase with
  | some t => if n = 1 then t.kind1 else if n = 2 then t.kind2 else if n = 3 then t.kind3 else 0
  | none => 0

end Sys2Proof.Machine
end

