-- ==== Sys2Proof/Machine/Record.lean ====
section
/-!
DEFINITION. Records (R240 to R256, R276, R277, R302, R304): the structured record, its bytes on a link (R241, RCRC under R245),
its reading with every contradiction of the schema (R272), the residues (R268), and the reduction operators (R257 to R267).
-/
namespace Sys2Proof.Machine

/-- A time stamp in the form of R149: low 48 bits of the seconds, and nanoseconds. -/
structure Stamp where
  sec : Nat
  ns  : Nat
deriving DecidableEq, Repr

def stampBytes (p : Nat → Nat → Bytes) (s : Stamp) : Bytes := p 6 s.sec ++ p 4 s.ns
def stampAt (b : Bytes) (o : Nat) : Stamp := ⟨beAt b o 6, beAt b (o + 6) 4⟩

/-- A TOPK entry (R256). -/
structure TopEnt where
  val  : Nat
  step : Nat
  job  : Nat
  jgen : Nat
  leaf : Nat
deriving DecidableEq, Repr

/-- A PAIRK entry (R256). -/
structure PairEnt where
  src    : Nat
  dst    : Nat
  weight : Nat
deriving DecidableEq, Repr

/-- The value area of a field (R256). `zeroed` stands for the zeros of a field that RED has marked POISON (R563), `len` bytes of them. -/
inductive FieldVal where
  | num (v : Nat)
  | mom (n mean m2 : Nat)
  | hist (b under isOver miss : Nat) (buckets : List Nat)
  | topk (k : Nat) (dir : Bool) (ents : List TopEnt)
  | pairk (err : Nat) (ents : List PairEnt)
  | leafset (ents : List (Nat × Nat))
  | zeroed (len : Nat)
  | absent
deriving DecidableEq, Repr

/-- A field with its header (R252). `absent` stands for an omitted value area. -/
structure Field where
  op         : Nat
  ty         : Nat
  poison     : Bool
  sat        : Bool
  omitted    : Bool
  incomplete : Bool
  jobbound   : Bool
  job        : Nat
  contrib    : Nat
  jgen       : Nat
  res        : Nat
  pcount     : Nat
  val        : FieldVal
deriving DecidableEq, Repr

/-- The coverage block (R304). `parent` is the 4-byte PARENT word, `lostNode` the LOST_NODE word, `miss` the missing child indices. -/
structure Coverage where
  partialCov : Bool
  degraded   : Bool
  poisoned   : Bool
  rebuilding : Bool
  adopt      : Bool
  early      : Bool
  nchild     : Nat
  nmiss      : Nat
  leaves     : Nat
  expect     : Nat
  adopted    : Nat
  parent     : Nat
  missNodes  : Nat
  rebuildNodes : Nat
  lostNode   : Nat
  depart     : Nat
  miss       : List Nat
deriving DecidableEq, Repr

/-- A SELF section (R249). -/
structure SelfSec where
  node      : Nat
  worstCode : Nat
  worstFeat : Nat
  ue        : Nat
  ce        : Nat
  lnkErr    : Nat
  vmask     : Nat
deriving DecidableEq, Repr

/-- An entry of INFRA's TOP (R250). -/
structure InfraTop where
  code : Nat
  feat : Nat
  node : Nat
deriving DecidableEq, Repr

/-- An INFRA section (R250); `top` holds the used entries, at most four. -/
structure InfraSec where
  nodes  : Nat
  vmask  : Nat
  ue     : Nat
  ce     : Nat
  lnkErr : Nat
  top    : List InfraTop
deriving DecidableEq, Repr

/-- A group of the LATE section (R302). -/
structure LateGroup where
  epoch      : Nat
  gen        : Nat
  poisoned   : Bool
  degraded   : Bool
  rebuilding : Bool
  adopt      : Bool
  leaves     : Nat
  inputs     : Nat
  fields     : List Field
deriving DecidableEq, Repr

/-- A record (R240, R242). KIND 1 UP, 2 DOWN; FORM false FULL, true SUMMARY. -/
structure Record where
  schema   : Nat
  gen      : Nat
  summary  : Bool
  join     : Bool
  timeStep : Bool
  restart  : Bool
  resent   : Bool
  epoch    : Nat
  node     : Nat
  h        : Nat
  beginAt  : Stamp
  endAt    : Stamp
  cov      : Coverage
  loss     : List Nat
  self     : Option SelfSec
  infra    : Option InfraSec
  fields   : List Field
  late     : List LateGroup
deriving DecidableEq, Repr

/-- An entry of a DOWN record (R277). -/
structure DownEnt where
  hash       : Nat
  empty      : Bool
  poison     : Bool
  sat        : Bool
  incomplete : Bool
  qOver      : Bool
  n          : Nat
  mean       : Nat
  var        : Nat
  q          : List Nat
deriving DecidableEq, Repr

/-- A DOWN record (R276). -/
structure DownRec where
  schema  : Nat
  gen     : Nat
  epoch   : Nat
  node    : Nat
  h       : Nat
  beginAt : Stamp
  endAt   : Stamp
  cov     : Coverage
  lateSec : Bool
  ents    : List DownEnt
deriving DecidableEq, Repr

/-! Bytes out. Each layout is written item by item through `p`: most significant byte first in records (R241), least significant first in
snapshot and delivery slots (R313). -/

/-- How an item of n bytes is written. -/
abbrev Put := Nat → Nat → Bytes

def valBytes (p : Put) (v : FieldVal) : Bytes :=
  match v with
  | .num n => p 8 n
  | .mom n m s => p 8 n ++ p 8 m ++ p 8 s
  | .hist b u o m bs => p 1 b ++ zeros 3 ++ p 4 u ++ p 4 o ++ p 4 m ++ (bs.map (p 4)).flatten
  | .topk k d es =>
      p 1 k ++ p 1 es.length ++ p 1 (flag d) ++ zeros 5 ++
      (es.map (fun e => p 8 e.val ++ p 4 e.step ++ p 2 e.job ++ p 1 e.jgen ++ zeros 1 ++ p 4 e.leaf ++ zeros 4)).flatten ++
      zeros (24 * (k - es.length))
  | .pairk err es =>
      p 2 es.length ++ zeros 6 ++ p 8 err ++
      (es.map (fun e => p 2 e.src ++ p 2 e.dst ++ zeros 4 ++ p 8 e.weight)).flatten
  | .leafset es => p 4 es.length ++ zeros 4 ++ (es.map (fun e => p 4 e.1 ++ p 8 e.2)).flatten
  | .zeroed n => zeros n
  | .absent => []

def fieldFlags (f : Field) : Nat :=
  flag f.poison + 2 * flag f.sat + 4 * flag f.omitted + 8 * flag f.incomplete + 16 * flag f.jobbound

def fieldBytes (p : Put) (i : Nat) (f : Field) : Bytes :=
  let v := valBytes p f.val
  p 2 i ++ p 1 (f.op * 16 + f.ty) ++ p 1 (fieldFlags f) ++ p 2 v.length ++ p 2 f.job ++ p 4 f.contrib ++
  p 1 f.jgen ++ p 1 f.res ++ p 2 f.pcount ++ v

/-- The fields one after another, numbered from 0. -/
def fieldsBytes (p : Put) (fs : List Field) : Bytes :=
  ((List.range fs.length).map (fun i => match fs[i]? with
    | some f => fieldBytes p i f
    | none => [])).flatten

def missBits (l : List Nat) : Nat := l.foldl (fun a i => a ||| 2 ^ i) 0

def covFlags (c : Coverage) (late : Bool) : Nat :=
  flag c.partialCov + 2 * flag c.degraded + 4 * flag c.poisoned + 8 * flag c.rebuilding + 16 * flag c.adopt + 32 * flag late + 64 * flag c.early

/-- The coverage block's 64 bytes; MISS0 to MISS2 are 8-byte words in ascending order. -/
def covBytes (p : Put) (c : Coverage) (late : Bool) : Bytes :=
  let m := missBits c.miss
  p 2 (covFlags c late) ++ p 1 c.nchild ++ p 1 c.nmiss ++ p 4 c.leaves ++ p 4 c.expect ++ p 4 c.adopted ++
  p 4 c.parent ++ p 2 c.missNodes ++ p 2 c.rebuildNodes ++ p 4 c.lostNode ++ p 1 c.depart ++ zeros 3 ++
  p 8 (m % 2 ^ 64) ++ p 8 (m / 2 ^ 64 % 2 ^ 64) ++ p 8 (m / 2 ^ 128) ++ zeros 8

def selfBytes (p : Put) (s : SelfSec) : Bytes :=
  p 4 s.node ++ p 2 s.worstCode ++ p 2 s.worstFeat ++ p 4 s.ue ++ p 4 s.ce ++ p 4 s.lnkErr ++ p 2 s.vmask ++ zeros 10

def infraTopBytes (p : Put) (t : InfraTop) : Bytes := p 2 t.code ++ p 2 t.feat ++ p 4 t.node

def infraUnused : InfraTop := ⟨0, 0xFFFF, 0xFFFFFFFF⟩

def infraBytes (p : Put) (s : InfraSec) : Bytes :=
  p 4 s.nodes ++ p 2 s.vmask ++ zeros 2 ++ p 8 s.ue ++ p 8 s.ce ++ p 8 s.lnkErr ++
  ((s.top ++ List.replicate (4 - s.top.length) infraUnused).map (infraTopBytes p)).flatten

def lateFlags (g : LateGroup) : Nat := flag g.poisoned + 2 * flag g.degraded + 4 * flag g.rebuilding + 8 * flag g.adopt

def groupBytes (p : Put) (g : LateGroup) : Bytes :=
  let fs := padTo 16 (fieldsBytes p g.fields)
  p 8 g.epoch ++ p 2 g.gen ++ p 2 (lateFlags g) ++ p 4 g.leaves ++ p 2 g.inputs ++ zeros 2 ++ p 4 (32 + fs.length) ++
  zeros 8 ++ fs

def lateBytes (p : Put) (gs : List LateGroup) : Bytes :=
  if gs.isEmpty then [] else p 2 gs.length ++ zeros 14 ++ (gs.map (groupBytes p)).flatten

def marksOf (r : Record) : Nat :=
  flag r.join + 2 * flag r.timeStep + 4 * flag r.restart + 8 * flag r.self.isSome + 16 * flag r.infra.isSome + 32 * flag r.resent

/-- RCRC put in place: CRC-32C over LENGTH bytes with its own four bytes zero (R245). -/
def sealCrc (b : Bytes) : Bytes := patch b 0x3C (toBe 4 (crc32c b))

/-- A record with RCRC still zero. -/
def recordRaw (p : Put) (r : Record) : Bytes :=
  let self := (match r.self with
    | some s => selfBytes p s
    | none => [])
  let infra := (match r.infra with
    | some s => infraBytes p s
    | none => [])
  let fieldOff := 160 + self.length + infra.length
  let fs := fieldsBytes p r.fields
  let late := lateBytes p r.late
  let area := padTo 16 fs
  let lateOff := if r.late.isEmpty then 0 else fieldOff + area.length
  let len := fieldOff + area.length + late.length
  p 2 r.schema ++ p 2 r.gen ++ p 1 1 ++ p 1 (flag r.summary) ++ p 2 (marksOf r) ++ p 8 r.epoch ++
    p 4 (r.node + r.h * 2 ^ 24) ++ p 2 r.fields.length ++ zeros 2 ++ p 4 len ++ p 4 fieldOff ++ p 4 lateOff ++
    stampBytes p r.beginAt ++ stampBytes p r.endAt ++ zeros 4 ++ zeros 4 ++ covBytes p r.cov (!r.late.isEmpty) ++ (r.loss.map (p 4)).flatten ++
    self ++ infra ++ area ++ late

/-- A record as it is held and sent. -/
def recordBytes (r : Record) : Bytes := sealCrc (recordRaw toBe r)

def downFlags (d : DownEnt) : Nat := flag d.empty + 2 * flag d.poison + 4 * flag d.sat + 8 * flag d.incomplete + 16 * flag d.qOver

def downEntBytes (p : Put) (d : DownEnt) : Bytes :=
  p 4 d.hash ++ p 2 (downFlags d) ++ zeros 2 ++ p 8 d.n ++ p 8 d.mean ++ p 8 d.var ++ (d.q.map (p 8)).flatten

/-- A DOWN record's bytes (R276): FIELD_OFF 0x80. -/
def downBytes (r : DownRec) : Bytes :=
  sealCrc (toBe 2 r.schema ++ toBe 2 r.gen ++ toBe 1 2 ++ toBe 1 0 ++ toBe 2 0 ++ toBe 8 r.epoch ++ toBe 4 (r.node + r.h * 2 ^ 24) ++
    toBe 2 r.ents.length ++ zeros 2 ++ toBe 4 (128 + 64 * r.ents.length) ++ toBe 4 0x80 ++ toBe 4 0 ++ stampBytes toBe r.beginAt ++
    stampBytes toBe r.endAt ++ zeros 8 ++ covBytes toBe r.cov r.lateSec ++ (r.ents.map (downEntBytes toBe)).flatten)

/-! Bytes in -/

def covAt (b : Bytes) (o : Nat) : Coverage :=
  let f := beAt b o 2
  { partialCov := f.testBit 0, degraded := f.testBit 1, poisoned := f.testBit 2, rebuilding := f.testBit 3, adopt := f.testBit 4,
    early := f.testBit 6, nchild := byteAt b (o + 2), nmiss := byteAt b (o + 3), leaves := beAt b (o + 4) 4 % 2 ^ 21,
    expect := beAt b (o + 8) 4 % 2 ^ 21, adopted := beAt b (o + 12) 4 % 2 ^ 21, parent := beAt b (o + 16) 4,
    missNodes := beAt b (o + 20) 2, rebuildNodes := beAt b (o + 22) 2, lostNode := beAt b (o + 24) 4, depart := byteAt b (o + 28),
    miss := setBits 192 (beAt b (o + 32) 8 + beAt b (o + 40) 8 * 2 ^ 64 + beAt b (o + 48) 8 * 2 ^ 128) }

def selfAt (b : Bytes) (o : Nat) : SelfSec :=
  { node := beAt b o 4 % 2 ^ 24, worstCode := beAt b (o + 4) 2, worstFeat := beAt b (o + 6) 2, ue := beAt b (o + 8) 4, ce := beAt b (o + 12) 4,
    lnkErr := beAt b (o + 16) 4, vmask := beAt b (o + 20) 2 }

def infraAt (b : Bytes) (o : Nat) : InfraSec :=
  { nodes := beAt b o 4, vmask := beAt b (o + 4) 2, ue := beAt b (o + 8) 8, ce := beAt b (o + 16) 8, lnkErr := beAt b (o + 24) 8,
    top := ((List.range 4).map (fun i => (⟨beAt b (o + 32 + 8 * i) 2, beAt b (o + 34 + 8 * i) 2, beAt b (o + 36 + 8 * i) 4⟩ : InfraTop))).filter
      (fun t => t != infraUnused) }

/-- A value area of `len` bytes read by its operator; none when its contents contradict the operator's layout (R256). -/
def valAt (op : Nat) (b : Bytes) (o len : Nat) : Option FieldVal :=
  if op = 0 ∨ 11 < op then none
  else if op ≤ 6 then (if len = 8 then some (.num (beAt b o 8)) else none)
  else if op = 7 then (if len = 24 then some (.mom (beAt b o 8) (beAt b (o + 8) 8) (beAt b (o + 16) 8)) else none)
  else if op = 8 then
    (if len = 272 then some (.hist (byteAt b o) (beAt b (o + 4) 4) (beAt b (o + 8) 4) (beAt b (o + 12) 4)
      ((List.range 64).map (fun i => beAt b (o + 16 + 4 * i) 4))) else none)
  else if op = 9 then
    let k := byteAt b o
    let c := byteAt b (o + 1)
    if len = 8 + 24 * k ∧ c ≤ k ∧ byteAt b (o + 2) ≤ 1 then
      some (.topk k (byteAt b (o + 2) == 1) ((List.range c).map (fun i =>
        let e := o + 8 + 24 * i
        ⟨beAt b e 8, beAt b (e + 8) 4, beAt b (e + 12) 2, byteAt b (e + 14), beAt b (e + 16) 4 % 2 ^ 20⟩)))
    else none
  else if op = 10 then
    let c := beAt b o 2
    if len = 16 + 16 * c then
      some (.pairk (beAt b (o + 8) 8) ((List.range c).map (fun i =>
        let e := o + 16 + 16 * i
        ⟨beAt b e 2, beAt b (e + 2) 2, beAt b (e + 8) 8⟩)))
    else none
  else
    let c := beAt b o 4
    if len = 8 + 12 * c then
      some (.leafset ((List.range c).map (fun i => (beAt b (o + 8 + 12 * i) 4 % 2 ^ 20, beAt b (o + 12 + 12 * i) 8))))
    else none

/-- One field at offset `o`: the field, its index and the offset of the next. -/
def fieldAt (b : Bytes) (o : Nat) : Option (Field × Nat × Nat) :=
  let ot := byteAt b (o + 2)
  let fl := byteAt b (o + 3)
  let len := beAt b (o + 4) 2
  let noVal := fl.testBit 2
  let v := if noVal then (if len = 0 then some .absent else none)
    else if fl.testBit 0 && (sliceOf b (o + 16) len).all (· == 0) then some (.zeroed len)
    else valAt (ot / 16) b (o + 16) len
  if b.length < o + 16 + len then none
  else match v with
    | none => none
    | some x =>
      some ({ op := ot / 16, ty := ot % 16, poison := fl.testBit 0, sat := fl.testBit 1, omitted := noVal, incomplete := fl.testBit 3,
              jobbound := fl.testBit 4, job := beAt b (o + 6) 2, contrib := beAt b (o + 8) 4 % 2 ^ 21, jgen := byteAt b (o + 12),
              res := byteAt b (o + 13), pcount := beAt b (o + 14) 2, val := x }, beAt b o 2, o + 16 + len)

/-- `n` fields from offset `o`, each carrying its own index. -/
def fieldsAt (b : Bytes) : Nat → Nat → Nat → Option (List Field)
  | 0, _, _ => some []
  | n + 1, i, o =>
    match fieldAt b o with
    | some (f, k, nx) => if k = i then (fieldsAt b n (i + 1) nx).map (f :: ·) else none
    | none => none

/-- The groups of a LATE section, `nf` fields each. -/
def groupsAt (b : Bytes) (nf : Nat) : Nat → Nat → Option (List LateGroup)
  | 0, _ => some []
  | n + 1, o =>
    let fl := beAt b (o + 10) 2
    let glen := beAt b (o + 20) 4
    match fieldsAt b nf 0 (o + 32) with
    | none => none
    | some fs =>
      let g : LateGroup := ⟨beAt b o 8 % 2 ^ 48, beAt b (o + 8) 2, fl.testBit 0, fl.testBit 1, fl.testBit 2, fl.testBit 3,
        beAt b (o + 12) 4 % 2 ^ 21, beAt b (o + 16) 2, fs⟩
      if glen < 32 ∨ b.length < o + glen then none else (groupsAt b nf n (o + glen)).map (g :: ·)

/-- LENGTH of a record's header, the one field read before RCRC (R246). -/
def recLength (b : Bytes) : Nat := beAt b 0x18 4

/-- RCRC holds over the LENGTH bytes (R245, R246). -/
def rcrcOk (b : Bytes) : Bool :=
  decide (64 ≤ recLength b) && decide (recLength b ≤ b.length) &&
  crc32c (patch (b.take (recLength b)) 0x3C (zeros 4)) == beAt b 0x3C 4

def recEpoch (b : Bytes) : Nat := beAt b 8 8 % 2 ^ 48
def recGen (b : Bytes) : Nat := beAt b 2 2
def recSchema (b : Bytes) : Nat := beAt b 0 2
def recNode (b : Bytes) : Nat := beAt b 0x10 4 % 2 ^ 24

/-- The whole record, by the layouts alone; none where they are contradicted. -/
def recordAt (b : Bytes) : Option Record :=
  let m := beAt b 6 2
  let hasSelf := m.testBit 3
  let hasInfra := m.testBit 4
  let o1 := 160 + (if hasSelf then 32 else 0)
  let nf := beAt b 0x14 2
  let fo := beAt b 0x1C 4
  let lo := beAt b 0x20 4
  let late := if lo = 0 then some [] else if b.length < lo + 16 then none else groupsAt b nf (beAt b lo 2) (lo + 16)
  match fieldsAt b nf 0 fo, late with
  | some fs, some gs =>
    some { schema := recSchema b, gen := recGen b, summary := byteAt b 5 == 1, join := m.testBit 0, timeStep := m.testBit 1, restart := m.testBit 2,
           resent := m.testBit 5, epoch := recEpoch b, node := recNode b, h := (beAt b 0x10 4 / 2 ^ 24) % 16, beginAt := stampAt b 0x24,
           endAt := stampAt b 0x2E, cov := covAt b 0x40, loss := (List.range 8).map (fun i => beAt b (0x80 + 4 * i) 4),
           self := if hasSelf then some (selfAt b 160) else none, infra := if hasInfra then some (infraAt b o1) else none,
           fields := fs, late := gs }
  | _, _ => none

def downEntAt (b : Bytes) (o : Nat) : DownEnt :=
  let f := beAt b (o + 4) 2
  { hash := beAt b o 4, empty := f.testBit 0, poison := f.testBit 1, sat := f.testBit 2, incomplete := f.testBit 3, qOver := f.testBit 4,
    n := beAt b (o + 8) 8, mean := beAt b (o + 16) 8, var := beAt b (o + 24) 8, q := (List.range 4).map (fun i => beAt b (o + 32 + 8 * i) 8) }

def downAt (b : Bytes) : DownRec :=
  { schema := recSchema b, gen := recGen b, epoch := recEpoch b, node := recNode b, h := (beAt b 0x10 4 / 2 ^ 24) % 16,
    beginAt := stampAt b 0x24, endAt := stampAt b 0x2E, cov := covAt b 0x40, lateSec := (beAt b 0x40 2).testBit 5,
    ents := (List.range (beAt b 0x14 2)).map (fun i => downEntAt b (0x80 + 64 * i)) }

/-! Residues (R268) -/

/-- The quantity whose residue RES holds; none for the operators without one. -/
def resQuantity (op : Nat) (v : FieldVal) : Option Nat :=
  match v with
  | .num n => if op = 1 ∨ op = 4 then some n else none
  | .mom n _ _ => some n
  | .hist _ u o m bs => some (u + o + m + sumOf bs)
  | _ => none

def residueOf (op : Nat) (v : FieldVal) : Nat := (resQuantity op v).getD 0 % 255

/-- A field with RES computed from its own quantity, 0 when omitted. -/
def withRes (f : Field) : Field := { f with res := if f.omitted then 0 else residueOf f.op f.val }

/-- The residue of an arriving field holds (R270). -/
def resOk (f : Field) : Bool :=
  f.sat || f.omitted || (match resQuantity f.op f.val with
    | some q => f.res == q % 255
    | none => true)

/-! Values and orders (R254, R255) -/

/-- A key by which values of a TYPE are ordered. -/
def valKey (ty v : Nat) : Nat := if ty = 1 then fkey f64 v else v

/-- The value is no value: a C16 MISSING or an F64 NaN (R255). -/
def notValue (ty v : Nat) : Bool := (ty == 2 && v == 0xFFFF) || (ty == 1 && fisNan f64 v)

/-- The value makes an operator's input empty (R255). -/
def emptyFor (op ty v : Nat) : Bool := notValue ty v || (op == 7 && ty == 1 && fisInf f64 v)

/-- The value area of an empty field (R253, R262). -/
def identityVal (d : FieldDesc) : FieldVal :=
  match d.op with
  | 2 => .num (if d.ty = 1 then finf f64 false else if d.ty = 2 then 0xFFFE else 2 ^ 64 - 1)
  | 3 => .num (if d.ty = 1 then finf f64 true else 0)
  | 6 => .num (2 ^ 64 - 1)
  | 7 => .mom 0 0 0
  | 8 => .hist d.param 0 0 0 (List.replicate 64 0)
  | 9 => .topk d.param d.dir []
  | 10 => .pairk 0 []
  | 11 => .leafset []
  | _ => .num 0

/-- An empty field of a descriptor with its selector's job and generation (R252, R259). -/
def emptyField (d : FieldDesc) (sel : Option (Nat × Nat)) : Field :=
  { op := d.op, ty := d.ty, poison := false, sat := false, omitted := false, incomplete := false, jobbound := d.jobbound,
    job := if d.jobbound then (match sel with
      | some p => p.1
      | none => 0xFFFF) else 0,
    contrib := 0, jgen := if d.jobbound then (match sel with
      | some p => p.2
      | none => 0) else 0,
    res := 0, pcount := 0, val := identityVal d }

/-- RED marks a field POISON: its value area is written as zeros (R563), `len` the area's length. -/
def poisonField (f : Field) (pcount : Nat) : Field :=
  { f with poison := true, contrib := 0, pcount := pcount, val := .zeroed (valBytes toBe f.val).length, res := 0 }

/-- The placing of one value in a histogram (R264). -/
def histPlace (b v : Nat) : FieldVal :=
  let zero := List.replicate 64 0
  if v < 2 ^ b then .hist b 1 0 0 zero
  else if 2 ^ (b + 8) ≤ v then .hist b 0 1 0 zero
  else
    let m := topBit v
    .hist b 0 0 0 (zero.set (8 * (m - b) + (v / 2 ^ (m - 3)) % 8) 1)

/-- A Newt's contribution for a non-empty, unpoisoned source value (R257); `comp` is the completion's step, job and generation. -/
def leafVal (d : FieldDesc) (leaf v : Nat) (comp : Option (Nat × Nat × Nat)) : FieldVal :=
  match d.op with
  | 4 => .num (if valKey d.ty d.thresh ≤ valKey d.ty v then 1 else 0)
  | 7 => .mom 1 (if d.ty = 1 then v else fofNat f64 v) 0
  | 8 => histPlace d.param v
  | 9 => .topk d.param d.dir [match comp with
      | some (st, jb, jg) => ⟨v, st, jb, jg, leaf⟩
      | none => ⟨v, 0, 0, 0, leaf⟩]
  | 11 => .leafset [(leaf, v)]
  | _ => .num v

/-- TOPK ranking (R265): key of an entry, lower ranks first. -/
def topBefore (ty : Nat) (dir : Bool) (a b : TopEnt) : Bool :=
  let ka := valKey ty a.val
  let kb := valKey ty b.val
  if ka = kb then decide (a.leaf < b.leaf) else if dir then decide (ka < kb) else decide (kb < ka)

def insTop (ty : Nat) (dir : Bool) (x : TopEnt) : List TopEnt → List TopEnt
  | [] => [x]
  | y :: ys => if topBefore ty dir x y then x :: y :: ys else y :: insTop ty dir x ys

/-- Ranked, one entry per leaf (the higher-ranked), the first `k` (R265). -/
def rankTop (ty k : Nat) (dir : Bool) (es : List TopEnt) : List TopEnt :=
  let r := es.foldl (fun a e => insTop ty dir e a) []
  ((r.foldl (fun (a : List TopEnt) e => if a.any (fun x => x.leaf == e.leaf) then a else a ++ [e]) []).take k)

/-- Seal rule of PAIRK (R266): the first 64 by weight descending and then by pair, and what ERR gains. -/
def pairCut (es : List PairEnt) : List PairEnt × Nat :=
  let key (e : PairEnt) : Nat := (2 ^ 64 - 1 - e.weight) * 2 ^ 32 + e.src * 65536 + e.dst
  let r := sortBy key es
  (r.take 64, (r.drop 64).foldl (fun m e => max m e.weight) 0)

/-- Union of leaf sets ascending by leaf; of two entries with one leaf the first stays (R267). -/
def unionLeaf (a b : List (Nat × Nat)) : List (Nat × Nat) :=
  b.foldl (fun t e => if t.any (fun x => x.1 == e.1) then t else setKey t e.1 e.2) a

/-- Merge of two present value areas (R262), with SAT. MOM and PAIRK fold at the seal. -/
def mergeVal (d : FieldDesc) (a b : FieldVal) : FieldVal × Bool :=
  match a, b with
  | .num x, .num y =>
    (match d.op with
     | 1 => (.num (min (x + y) (2 ^ 64 - 1)), decide (2 ^ 64 ≤ x + y))
     | 2 => (.num (if valKey d.ty x ≤ valKey d.ty y then x else y), false)
     | 3 => (.num (if valKey d.ty x ≤ valKey d.ty y then y else x), false)
     | 4 => (.num (min (x + y) (2 ^ 64 - 1)), false)
     | 5 => (.num (x ||| y), false)
     | _ => (.num (x &&& y), false))
  | .hist hb u o m bs, .hist _ u2 o2 m2 cs =>
    let bad := decide (2 ^ 32 ≤ u + u2) || decide (2 ^ 32 ≤ o + o2) || decide (2 ^ 32 ≤ m + m2) ||
      (bs.zip cs).any (fun p => decide (2 ^ 32 ≤ p.1 + p.2))
    (.hist hb (add32 u u2) (add32 o o2) (add32 m m2) ((bs.zip cs).map (fun p => add32 p.1 p.2)), bad)
  | .topk k dr es, .topk k2 _ fs => (.topk (max k k2) dr (rankTop d.ty (max k k2) dr (es ++ fs)), false)
  | .leafset es, .leafset fs => (.leafset (unionLeaf es fs), false)
  | x, _ => (x, false)

/-- One step of the MOM fold (R263). -/
def momFold (acc x : Nat × Nat × Nat) : Nat × Nat × Nat :=
  let (an, am, a2) := acc
  let (nb, mb, m2b) := x
  if an = 0 then x
  else
    let n := min (an + nb) (2 ^ 64 - 1)
    let dd := fsub f64 mb am
    let t := fdiv f64 (fmul f64 (fmul f64 dd dd) (fmul f64 (fofNat f64 an) (fofNat f64 nb))) (fofNat f64 n)
    (n, fadd f64 am (fdiv f64 (fmul f64 dd (fofNat f64 nb)) (fofNat f64 n)), fadd f64 (fadd f64 a2 m2b) t)

/-- The pair table while records arrive (R266): entries, ERR and the overflow count. -/
def pairTable (inputs : List (Nat × List PairEnt)) : List PairEnt × Nat × Nat :=
  inputs.foldl (fun (a : List PairEnt × Nat × Nat) inp =>
    let a1 := inp.2.foldl (fun (t : List PairEnt × Nat × Nat) e =>
      let (tab, err, ovf) := t
      match findIdx (fun x => x.src == e.src && x.dst == e.dst) tab with
      | some i => (modAt tab i (fun x => { x with weight := satAdd 64 x.weight e.weight }), err, ovf)
      | none => if tab.length < 4096 then (tab ++ [e], err, ovf) else (tab, satAdd 64 err e.weight, ovf + 1)) a
    (a1.1, satAdd 64 a1.2.1 inp.1, a1.2.2)) ([], 0, 0)

/-- An input to a field's merge: the port it came from (or its order key) and the field. -/
abbrev Input := Nat × Field

/-- The input is empty (R253): no contribution, and no MISS of a histogram. -/
def isEmpty (f : Field) : Bool :=
  f.contrib == 0 && !f.omitted && (match f.val with
    | .hist _ _ _ m _ => m == 0
    | _ => true)

/-- The selector's job and generation agree with a JOBBOUND input (R260). -/
def jobAgrees (sel : Option (Nat × Nat)) (f : Field) : Bool :=
  match sel with
  | some (j, g) => f.job == j && f.jgen == g
  | none => f.job == 0xFFFF

/-- The inputs that R260 leaves, and how many it discards. -/
def jobFilter (d : FieldDesc) (sel : Option (Nat × Nat)) (ins : List Input) : List Input × Nat :=
  if d.jobbound then (ins.filter (fun i => jobAgrees sel i.2), (ins.filter (fun i => !jobAgrees sel i.2)).length) else (ins, 0)

/-- An input's pairs: ERR and entries. -/
def pairsOf (f : Field) : Nat × List PairEnt :=
  match f.val with
  | .pairk e es => (e, es)
  | _ => (0, [])

/-- The inputs that a merge reads (R261): neither poisoned, omitted nor empty. -/
def readInputs (ins : List Input) : List Input := ins.filter (fun i => !i.2.poison && !i.2.omitted && !isEmpty i.2)

/-- A field merged from its inputs in arrival order (R261, R262, R263, R266): the output with RES, and the inputs R260 discarded. -/
def mergeField (d : FieldDesc) (sel : Option (Nat × Nat)) (all : List Input) : Field :=
  let ins := (jobFilter d sel all).1
  let pois := ins.filter (fun i => i.2.poison)
  let live := ins.filter (fun i => !i.2.poison && !i.2.omitted)
  let full := live.filter (fun i => !isEmpty i.2)
  let f0 := emptyField d sel
  let v : FieldVal × Bool :=
    if d.op = 7 then
      let acc := (sortBy (·.1) full).foldl (fun a i => match i.2.val with
        | .mom n m s => momFold a (n, m, s)
        | _ => a) (0, 0, 0)
      (.mom acc.1 acc.2.1 acc.2.2, !(fisFinite f64 acc.2.1 && fisFinite f64 acc.2.2))
    else if d.op = 10 then
      let t := pairTable (full.map (fun i => pairsOf i.2))
      let c := pairCut t.1
      let err := satAdd 64 t.2.1 c.2
      (.pairk err c.1, err == 2 ^ 64 - 1)
    else if d.op = 11 then
      (.leafset ((sortBy (·.1) full).foldl (fun a i => match i.2.val with
        | .leafset es => unionLeaf a es
        | _ => a) []), false)
    else full.foldl (fun (a : FieldVal × Bool) i => let m := mergeVal d a.1 i.2.val; (m.1, a.2 || m.2)) (f0.val, false)
  let v1 : FieldVal := (match v.1 with
    | .topk _ dr es => .topk d.param dr (rankTop d.ty d.param dr es)
    | x => x)
  withRes { f0 with
    poison := !pois.isEmpty,
    sat := v.2 || ins.any (fun i => i.2.sat),
    incomplete := ins.any (fun i => i.2.omitted || i.2.incomplete),
    contrib := min (2 ^ 21 - 1) (sumOf (live.map (fun i => i.2.contrib))),
    pcount := min 0xFFFF (sumOf (pois.map (fun i => i.2.contrib + i.2.pcount)) + sumOf (live.map (fun i => i.2.pcount))),
    val := v1 }

/-- A field in SUMMARY form (R274). -/
def summaryField (f : Field) : Field :=
  match f.val with
  | .topk _ d es => { f with val := .topk 1 d (es.take 1), incomplete := f.incomplete || decide (1 < es.length) }
  | .pairk _ _ => { f with val := .absent, omitted := true, res := 0 }
  | .leafset _ => { f with val := .absent, omitted := true, res := 0 }
  | .zeroed _ =>
    if f.op = 9 then { f with val := .zeroed 32 } else if f.op = 10 ∨ f.op = 11 then { f with val := .absent, omitted := true, res := 0 } else f
  | _ => f

/-- A record in SUMMARY form (R274, R275). -/
def summarise (r : Record) : Record :=
  if r.summary then r
  else { r with summary := true, fields := r.fields.map summaryField, cov := { r.cov with degraded := true } }

/-- A field sent under STOP (R273). -/
def stopField (f : Field) : Field :=
  { f with val := .absent, omitted := true, contrib := 0, pcount := 0, res := 0 }

/-- A value of the field's TYPE: a C16's bits [63:16] are zero (R254). -/
def typeHolds (d : FieldDesc) (v : Nat) : Bool := d.ty != 2 || decide (v < 65536)

/-- An input field does not contradict its descriptor (R272). `form` is FORM SUMMARY or a LATE group. A field with OMITTED and LEN 0, which is
how an omitted one is read, never does. -/
def fieldFits (d : FieldDesc) (form : Bool) (f : Field) : Bool :=
  f.omitted || (f.op == d.op && f.ty == d.ty && (match f.val with
    | .num v => d.op == 4 || typeHolds d v
    | .topk k dr es => dr == d.dir && (k == d.param || (form && k == 1 && decide (es.length ≤ 1))) && es.all (fun e => typeHolds d e.val)
    | .leafset es => es.all (fun e => typeHolds d e.2)
    | .hist b _ _ _ _ => b == d.param
    | .zeroed n => n == (valBytes toBe (identityVal d)).length || (form && d.op == 9 && n == 32)
    | _ => true))

/-- The quantile of R278: its value and Q_OVER. -/
def quantile (b under isOver : Nat) (buckets : List Nat) (q : Nat) : Nat × Bool :=
  let total := under + isOver + sumOf buckets
  if total = 0 then (0, false)
  else
    let r := max 1 (ceilDiv (q * total) 65536)
    if r ≤ under then (2 ^ b, false)
    else
      let i := (List.range 64).find? (fun k => decide (r ≤ under + sumOf (buckets.take (k + 1))))
      match i with
      | some k => (2 ^ (b + k / 8) * (8 + k % 8 + 1) / 8, false)
      | none => (2 ^ 64 - 1, true)

/-- A DOWN entry from the Dome's merged fields (R277). -/
def downEntry (fs : List Field) (d : DownDesc) : DownEnt :=
  let mf := if d.momf = 0xFFFF then none else fs[d.momf]?
  let hf := if d.histf = 0xFFFF then none else fs[d.histf]?
  let src := mf.toList ++ hf.toList
  let hist := (match hf with
    | some f => (match f.val with
      | .hist b u o m bs => some (b, u, o, m, bs)
      | _ => none)
    | none => none)
  let mom := (match mf with
    | some f => (match f.val with
      | .mom n a s => some (n, a, s)
      | _ => none)
    | none => none)
  let hcount := (match hist with
    | some (_, u, o, _, bs) => u + o + sumOf bs
    | none => 0)
  let n := (match mom with
    | some (n, _, _) => n
    | none => hcount)
  let qs := d.q.map (fun q => if q = 0 then (0, false) else (match hist with
    | some (b, u, o, _, bs) => quantile b u o bs q
    | none => (0, false)))
  { hash := d.hash, empty := n == 0 && hcount == 0, poison := src.any (·.poison), sat := src.any (·.sat), incomplete := src.any (·.incomplete),
    qOver := qs.any (·.2), n := n,
    mean := (match mom with
      | some (k, a, _) => if k = 0 then 0 else a
      | none => 0),
    var := (match mom with
      | some (k, _, s) => if k = 0 then 0 else fdiv f64 s (fofNat f64 k)
      | none => 0),
    q := qs.map (·.1) }

end Sys2Proof.Machine
end

