-- ==== Sys2Proof/Machine/Regs.lean ====
section
/-!
DEFINITION. The registers by name (R687 and the register tables of every chapter): the read-to-clear counters, the plain
read/write registers with the rule of each field's write, the registers with a behaviour of their own, and the offset of each
one in the 1 MiB window (R14: a pair is two words, the low word at the lower offset).
-/
namespace Sys2Proof.Machine

/-- The counters of one Itzil port (R503), in the order of their offsets from 0x020. -/
inductive IlkCnt where
  | rxErr | lenBad | verBad | typeBad | pcrcBad | peerBad | segBad | creditOvr | hbMiss | lost | withdraw
  | downExpired | resendReq | resendMiss | flush
deriving DecidableEq, Repr

/-- The read-to-clear counters, 32 bits wide, that saturate (R18, R20). -/
inductive RcReg where
  -- SVC
  | svcPwrAckLate | svcSkew
  -- TIME
  | timeCapLost
  -- CAP (R239)
  | capDropRange | capDropEngcol | capDropEngstate | capDropRingzero | capRingUnder | capDropHealth | capDropAddr
  | capDropEvq | capOptabOvf | capStepOrphan | capStepGenDrop | capProfLost
  -- FEAT (R356)
  | featBufHwm | featSat | featNan | featStateReset | featBufReclaim | featPoison
  -- LEAP (R394, R425)
  | leapTransient | leapPermanent | leapLaneFault | leapFailed | leapSegConflict | leapDiscard | leapScrubCe | leapScoreLate
  | leapHotMiss | leapHotEvict | leapLoadRefused | leapRepair | leapSlotSkip | leapInstallBad
  -- RED (R289)
  | redSchemaDrop | redFmtBad | redCrcBad | redResBad | redRecompute | redJobgenDrop | redDownLate | redHoldDrop
  | redSummary | redPairOvf
  -- SEAL (R319)
  | sealStaleDrop | sealGenDrop | sealTagBad | sealDupDrop | sealLate | sealAdopt | sealAdoptBad | sealAdoptConflict
  | sealSnapSkip
  -- VRD (R457)
  | vrdRaised | vrdSuppressed | vrdHeld | vrdExpel | vrdVqDrop | vrdNoref | vrdDupDrop | vrdTrackOvf | vrdVoteWon
  | vrdVoteLost
  -- ILK (R503)
  | ilk (port : Nat) (c : IlkCnt)
  -- TRC (R535)
  | trcDropMap | trcMarkLost | trcLost (core : Nat)
  -- ERC, CMP (R536, R537)
  | ercOverwrite | ercFrozenDrop | ercBbSkip | cmpBlocks | cmpRaw | cmpVerifyFail | cmpInKib | cmpOutKib
  -- MEM (R566)
  | memCe | memUe | memPoisonRd | memCollide | memMergeRmw | memScrubFix | memRange
  -- MCU, PNL (R602, R603)
  | mcuFltLost | mcuDiscardMbx | mcuDiscardDma | mcuDiscardLoad | mcuDiscardJob | mcuMirRefused | mcuMirBad | pnlEvtLost
  -- MBX, TEN, DMA (R644, R645, R636)
  | mbxSeqDrop (mbx : Nat) | mbxIgnored (mbx : Nat) | ptpRxDrop | tenDeny | tenHole | tenDlvSkip (view : Nat) | dmaTrunc
deriving DecidableEq, Repr

/-- The read/write registers whose read is the last value written (R20, RW); `hi` picks the word of a pair. Index `m` is a
mailbox (0 to 7 privileged, 7 + v the one of view v). -/
inductive RwReg where
  -- SVC
  | fwEpochLo | bstAddr | bstLen | flashCfg
  -- TIME
  | tbStep (base k : Nat) | stbAt (n k : Nat) | capCfg (k : Nat) | comp (port : Nat)
  -- CAP
  | capObs | capStale | capProfMask | capProfBase (hi : Bool) | capProfSize | capProfRd | capStepId
  -- FEAT
  | featCodeSel
  -- LEAP
  | leapBundleBase (hi : Bool) | leapBundleCount | leapHotCfg | leapHotSel | leapHotArg | leapSchedCfg | leapAcctSel
  | leapShare (view : Nat) | leapScrubPeriod
  -- RED, SEAL
  | redCfg | sealWin | sealDue | sealCfg | snapBase (hi : Bool) | snapCfg | snapAck (hi : Bool)
  -- VRD
  | vrdSpBucket | vrdDomeBudget | vrdVoteWait | detMute (d : Nat) | detH (d : Nat) | vrdDetSel | vrdRingBase (hi : Bool) | vrdRingCfg | vrdRingRd
  -- ILK
  | ilkPortSel | ilkCap (port : Nat) | ilkRevert | bcJob | bcStart (k : Nat) | bcAckby (k : Nat) | bcMissSel
  -- TRC
  | trcCfg | trcBase (core : Nat) (hi : Bool) | trcSize (core : Nat) | trcRd (core : Nat)
  -- ERC, CMP
  | ercCfg | ercWinSeq | ercBufBase (b : Nat) (hi : Bool) | ercBufSize (b : Nat) | cmpCfg
  -- MEM
  | memScrubHours | memEraseAt | memBankSel
  -- MCU
  | mirCfg | mirAge | rebuild | syncWait | confirmHold | actEpoch (hi : Bool)
  -- PNL
  | pnlLed | drainLead
  -- MBX
  | mbxPtr (m : Nat) (hi : Bool) | mbxLen (m : Nat) | mbxOp (m : Nat) | mbxIrqEn (m : Nat)
  | ptpRxBase (hi : Bool) | ptpRxCfg | ptpRxRd
  -- TEN, DMA
  | tenAperture | tenViewSel | tenIrqAddr (view : Nat) (hi : Bool) | tenIrqData (view : Nat) | tenIrqCfg (view : Nat)
  | dlvBase (view : Nat) (hi : Bool) | dlvCfg (view : Nat) | dlvRd (view : Nat) | dmaChSel
deriving DecidableEq, Repr

/-- The registers of SVC with a behaviour of their own (R8, R11, R32, R33, R96, R679, R681). -/
inductive SvcReg where
  | version | cls | param0 | param1 | idSerial (hi : Bool) | position | rstCause | keyStat
  | bootStat | fwVer | trial | fwSchedHi | bstCmd | bstStat | bufAddr | packSel | pwr (unit : Nat)
deriving DecidableEq, Repr

/-- Those of TIME (R188 to R190). -/
inductive TimeReg where
  | now (base k : Nat) | rate (base : Nat) (hi : Bool) | ctl (base : Nat) | stat (base : Nat)
  | grid | epoch (hi : Bool) | anchorNs | anchorSec (hi : Bool) | anchorEpoch (hi : Bool)
  | cap (k : Nat) | stbCtl (n : Nat)
deriving DecidableEq, Repr

/-- Those of CAP, FEAT and LEAP (R239, R356, R394, R425). -/
inductive CapReg where
  | profWr | profStat | ringClr | stepNum | stepStat | laneSnap (lane : Nat) (hi : Bool)
  | featStat | lastSat | code | codeEpoch (hi : Bool)
  | laneEn | leapStat | badlog0 | badlog1 | leapInj | scrubCfg
  | hotStat | hotId | hotOrigin | hotCmd | loadStat | loadId | schedStat | acct (hi : Bool)
deriving DecidableEq, Repr

/-- Those of RED, SEAL, VRD and ILK (R289, R319, R457, R503, R604). -/
inductive LinkReg where
  | redStat | jobSel (n : Nat) | snapNeed | snapSeq (hi : Bool) | depart (k : Nat)
  | vrdStat | spLevel | domeLevel | detCtl | detH (hi : Bool) | ringWr
  | portStat | level | credit | uplink | bcGo | bcResult | bcId | bcReached | bcJoined | bcExpected | bcMiss
deriving DecidableEq, Repr

/-- Those of TRC, ERC, CMP and MEM (R535 to R537, R566). -/
inductive MemReg where
  | trcSize (core : Nat) | trcWr (core : Nat) | trcStat (core : Nat) | trcBseq (core : Nat)
  | freeze | ercStat | ercCmd | rseq | flushed | winStat | bufFill (b : Nat) | chain | win (k : Nat)
  | cmpStat | memStat | scrubStat | lastCe (hi : Bool) | lastUe (hi : Bool) | bankStat | inj
deriving DecidableEq, Repr

/-- Those of MCU, PNL, MBX, TEN and DMA (R138 to R143, R602, R603, R636, R644, R645, R680). -/
inductive HostReg where
  | imgCmd | imgStat | imgDetail | imgGen | imgSchema | actResult (hi : Bool)
  | fltStat | fsCmd | fsStat | fltPop | fltEnt (k : Nat) | mirStat | rebuildLeft | confirm
  | pnlStat | pulled | pnlCmd | evt (k : Nat) | depEpoch (hi : Bool)
  | mbxLock (m : Nat) | mbxRelease (m : Nat) | mbxDoorbell (m : Nat) | mbxAck (m : Nat) | mbxStat (m : Nat)
  | ptpRxWr | viewStat | poolFree | denyLast (k : Nat) | chStat
  | tenSelf (view : Nat) | sramKib (view : Nat) | dlvWr (view : Nat) | viewAcct (view : Nat) (hi : Bool)
deriving DecidableEq, Repr

/-- Every register of the window, by name. `ilkPort` counters and `ilkCap` follow ILK_PORT_SEL. -/
inductive Reg where
  | rc (r : RcReg)
  | rw (r : RwReg)
  | ilkCnt (c : IlkCnt)
  | ilkCapSel
  | svc (r : SvcReg)
  | time (r : TimeReg)
  | cap (r : CapReg)
  | link (r : LinkReg)
  | mem (r : MemReg)
  | host (r : HostReg)
  | tb3 (view : Nat) (r : Reg)
deriving DecidableEq, Repr

/-- The register at one of a table's offsets. -/
def regIn (t : List (Nat × Reg)) (o : Nat) : Option Reg := (t.find? (fun p => p.1 == o)).map (·.2)

/-- Offsets within SVC. -/
def svcMap : List (Nat × Reg) :=
  [(0x000, .svc .version), (0x004, .svc .cls), (0x008, .svc .param0), (0x00C, .svc .param1), (0x010, .svc (.idSerial false)),
   (0x014, .svc (.idSerial true)), (0x018, .svc .position), (0x01C, .svc .rstCause), (0x020, .svc .keyStat),
   (0x100, .svc .bootStat), (0x104, .svc .fwVer), (0x108, .svc .trial), (0x110, .rw .fwEpochLo), (0x114, .svc .fwSchedHi),
   (0x120, .svc .bstCmd), (0x124, .rw .bstAddr), (0x128, .rw .bstLen), (0x12C, .svc .bstStat), (0x130, .svc .bufAddr),
   (0x134, .rc .svcSkew), (0x138, .rw .flashCfg), (0x13C, .svc .packSel), (0x280, .rc .svcPwrAckLate)]

/-- SVC_PWRn at 0x200 + 4 × (n − 1) (R681). -/
def svcReg (o : Nat) : Option Reg :=
  if 0x200 ≤ o ∧ o < 0x248 then some (.svc (.pwr ((o - 0x200) / 4 + 1))) else regIn svcMap o

/-- One base's registers (R188), at the offset within its 0x40 bytes. -/
def tbReg (b o : Nat) : Option Reg :=
  regIn [(0x00, .time (.now b 0)), (0x04, .time (.now b 1)), (0x08, .time (.now b 2)), (0x0C, .time (.now b 3)),
    (0x10, .time (.rate b false)), (0x14, .time (.rate b true)), (0x18, .rw (.tbStep b 0)), (0x1C, .rw (.tbStep b 1)),
    (0x20, .rw (.tbStep b 2)), (0x24, .time (.ctl b)), (0x28, .time (.stat b))] o

/-- Offsets of the grid and capture registers (R189). -/
def gridMap : List (Nat × Reg) :=
  [(0x100, .time .grid), (0x108, .time (.epoch false)), (0x10C, .time (.epoch true)), (0x110, .time .anchorNs),
   (0x114, .time (.anchorSec false)), (0x118, .time (.anchorSec true)), (0x120, .time (.anchorEpoch false)),
   (0x124, .time (.anchorEpoch true)), (0x200, .time (.cap 0)), (0x204, .time (.cap 1)), (0x208, .time (.cap 2)),
   (0x20C, .time (.cap 3)), (0x210, .rc .timeCapLost)]

/-- Strobe `n`'s registers (R190). -/
def stbReg (n k : Nat) : Option Reg :=
  if k < 3 then some (.rw (.stbAt n k)) else some (.time (.stbCtl n))

/-- Offsets within TIME; `inputs` strobes, `bases` bases and the serial ports exist in the instance's class. -/
def timeReg (bases inputs serial o : Nat) : Option Reg :=
  if o < 0x100 then (if o / 0x40 < bases then tbReg (o / 0x40) (o % 0x40) else none)
  else if 0x220 ≤ o ∧ o < 0x240 then (if (o - 0x220) < inputs then some (.rw (.capCfg ((o - 0x220) / 4))) else none)
  else if 0x300 ≤ o ∧ o < 0x300 + 0x10 * inputs then stbReg ((o - 0x300) / 0x10) (((o - 0x300) % 0x10) / 4)
  else if 0x500 ≤ o ∧ o < 0x500 + 4 * serial then some (.rw (.comp (128 + (o - 0x500) / 4)))
  else regIn gridMap o

def featMap : List (Nat × Reg) :=
  [(0x000, .cap .featStat), (0x004, .rc .featBufHwm), (0x010, .rc .featSat), (0x014, .rc .featNan), (0x018, .rc .featStateReset),
   (0x01C, .rc .featBufReclaim), (0x020, .rc .featPoison), (0x024, .cap .lastSat), (0x030, .rw .featCodeSel),
   (0x034, .cap .code), (0x038, .cap (.codeEpoch false)), (0x03C, .cap (.codeEpoch true))]

def leapMap : List (Nat × Reg) :=
  [(0x000, .cap .laneEn), (0x004, .cap .leapStat), (0x010, .rc .leapTransient), (0x014, .rc .leapPermanent),
   (0x018, .rc .leapLaneFault), (0x01C, .rc .leapFailed), (0x020, .rc .leapSegConflict), (0x024, .rc .leapDiscard),
   (0x028, .rc .leapScrubCe), (0x02C, .rc .leapScoreLate), (0x030, .cap .badlog0), (0x034, .cap .badlog1),
   (0x040, .cap .leapInj), (0x044, .cap .scrubCfg),
   (0x100, .rw (.leapBundleBase false)), (0x104, .rw (.leapBundleBase true)), (0x108, .rw .leapBundleCount),
   (0x10C, .rw .leapHotCfg), (0x110, .rw .leapHotSel), (0x114, .cap .hotStat), (0x118, .cap .hotId), (0x11C, .cap .hotOrigin),
   (0x120, .cap .hotCmd), (0x124, .rw .leapHotArg), (0x128, .cap .loadStat), (0x12C, .cap .loadId), (0x130, .rc .leapHotMiss),
   (0x134, .rc .leapHotEvict), (0x138, .rc .leapLoadRefused), (0x13C, .rc .leapRepair), (0x140, .rc .leapSlotSkip),
   (0x144, .rc .leapInstallBad), (0x180, .cap .schedStat), (0x184, .rw .leapSchedCfg), (0x188, .rw .leapAcctSel),
   (0x190, .cap (.acct false)), (0x194, .cap (.acct true))]

/-- Offsets within LEAP; LEAP_SHARE of view v at 0x400 + 4 × v (R425). -/
def leapReg (views o : Nat) : Option Reg :=
  if 0x400 ≤ o ∧ o ≤ 0x400 + 4 * views then some (.rw (.leapShare ((o - 0x400) / 4))) else regIn leapMap o

def redMap : List (Nat × Reg) :=
  [(0x000, .rw .redCfg), (0x004, .link .redStat), (0x010, .rc .redSchemaDrop), (0x014, .rc .redFmtBad), (0x018, .rc .redCrcBad),
   (0x01C, .rc .redResBad), (0x020, .rc .redRecompute), (0x024, .rc .redJobgenDrop), (0x028, .rc .redDownLate),
   (0x02C, .rc .redHoldDrop), (0x030, .rc .redSummary), (0x034, .rc .redPairOvf), (0x040, .link (.jobSel 0)),
   (0x044, .link (.jobSel 1)), (0x048, .link (.jobSel 2)), (0x04C, .link (.jobSel 3))]

def sealMap : List (Nat × Reg) :=
  [(0x000, .rw .sealWin), (0x004, .rw .sealDue), (0x008, .rw .sealCfg), (0x010, .rc .sealStaleDrop), (0x014, .rc .sealGenDrop),
   (0x018, .rc .sealTagBad), (0x01C, .rc .sealDupDrop), (0x020, .rc .sealLate), (0x024, .rc .sealAdopt),
   (0x028, .rc .sealAdoptBad), (0x02C, .rc .sealAdoptConflict), (0x030, .rc .sealSnapSkip), (0x040, .rw (.snapBase false)),
   (0x044, .rw (.snapBase true)), (0x048, .rw .snapCfg), (0x04C, .link .snapNeed), (0x050, .link (.snapSeq false)),
   (0x054, .link (.snapSeq true)), (0x058, .rw (.snapAck false)), (0x05C, .rw (.snapAck true)),
   (0x060, .link (.depart 0)), (0x064, .link (.depart 1)), (0x068, .link (.depart 2)), (0x06C, .link (.depart 3)),
   (0x070, .link (.depart 4)), (0x074, .link (.depart 5))]

def vrdMap : List (Nat × Reg) :=
  [(0x000, .link .vrdStat), (0x010, .rc .vrdRaised), (0x014, .rc .vrdSuppressed), (0x018, .rc .vrdHeld), (0x01C, .rc .vrdExpel),
   (0x020, .rc .vrdVqDrop), (0x024, .rc .vrdNoref), (0x028, .rc .vrdDupDrop), (0x02C, .rc .vrdTrackOvf), (0x030, .rc .vrdVoteWon),
   (0x034, .rc .vrdVoteLost), (0x040, .rw .vrdSpBucket), (0x044, .link .spLevel), (0x048, .rw .vrdDomeBudget),
   (0x04C, .link .domeLevel), (0x050, .rw .vrdVoteWait), (0x060, .rw .vrdDetSel), (0x064, .link .detCtl),
   (0x068, .link (.detH false)), (0x06C, .link (.detH true)), (0x080, .rw (.vrdRingBase false)), (0x084, .rw (.vrdRingBase true)),
   (0x088, .rw .vrdRingCfg), (0x08C, .link .ringWr), (0x090, .rw .vrdRingRd)]

def ilkMap : List (Nat × Reg) :=
  [(0x000, .rw .ilkPortSel), (0x004, .link .portStat), (0x008, .ilkCapSel), (0x00C, .link .level), (0x010, .link .credit),
   (0x020, .ilkCnt .rxErr), (0x024, .ilkCnt .lenBad), (0x028, .ilkCnt .verBad), (0x02C, .ilkCnt .typeBad),
   (0x030, .ilkCnt .pcrcBad), (0x034, .ilkCnt .peerBad), (0x038, .ilkCnt .segBad), (0x03C, .ilkCnt .creditOvr),
   (0x040, .ilkCnt .hbMiss), (0x044, .ilkCnt .lost), (0x048, .ilkCnt .withdraw), (0x04C, .ilkCnt .downExpired),
   (0x050, .ilkCnt .resendReq), (0x054, .ilkCnt .resendMiss), (0x058, .ilkCnt .flush), (0x080, .link .uplink),
   (0x084, .rw .ilkRevert), (0x100, .rw .bcJob), (0x104, .rw (.bcStart 0)), (0x108, .rw (.bcStart 1)), (0x10C, .rw (.bcStart 2)),
   (0x110, .rw (.bcAckby 0)), (0x114, .rw (.bcAckby 1)), (0x118, .rw (.bcAckby 2)), (0x11C, .link .bcGo),
   (0x120, .link .bcResult), (0x124, .link .bcId), (0x128, .link .bcReached), (0x12C, .link .bcJoined),
   (0x130, .link .bcExpected), (0x134, .rw .bcMissSel), (0x138, .link .bcMiss)]

/-- One core's ring registers (R535), at the offset within its 0x20 bytes. -/
def coreReg (c o : Nat) : Option Reg :=
  regIn [(0x00, .rw (.trcBase c false)), (0x04, .rw (.trcBase c true)), (0x08, .mem (.trcSize c)), (0x0C, .mem (.trcWr c)),
    (0x10, .rw (.trcRd c)), (0x14, .mem (.trcStat c)), (0x18, .rc (.trcLost c)), (0x1C, .mem (.trcBseq c))] o

/-- Offsets within TRC. -/
def trcReg (cores o : Nat) : Option Reg :=
  if 0x400 ≤ o ∧ o < 0x400 + 0x20 * cores then coreReg ((o - 0x400) / 0x20) (o % 0x20)
  else regIn [(0x000, .rw .trcCfg), (0x004, .rc .trcDropMap), (0x008, .rc .trcMarkLost)] o

def ercMap : List (Nat × Reg) :=
  [(0x000, .rw .ercCfg), (0x004, .mem .freeze), (0x008, .mem .ercStat), (0x00C, .mem .ercCmd), (0x010, .mem .rseq),
   (0x014, .mem .flushed), (0x018, .rw .ercWinSeq), (0x01C, .mem .winStat), (0x020, .rc .ercOverwrite),
   (0x024, .rc .ercFrozenDrop), (0x028, .rc .ercBbSkip), (0x040, .rw (.ercBufBase 0 false)), (0x044, .rw (.ercBufBase 0 true)),
   (0x048, .rw (.ercBufSize 0)), (0x04C, .mem (.bufFill 0)), (0x050, .rw (.ercBufBase 1 false)),
   (0x054, .rw (.ercBufBase 1 true)), (0x058, .rw (.ercBufSize 1)), (0x05C, .mem (.bufFill 1)), (0x060, .mem .chain)]

/-- Offsets within ERC; the window of the selected record at 0x100 (R524). -/
def ercReg (o : Nat) : Option Reg :=
  if 0x100 ≤ o ∧ o < 0x200 then some (.mem (.win ((o - 0x100) / 4))) else regIn ercMap o

def cmpMap : List (Nat × Reg) :=
  [(0x000, .rw .cmpCfg), (0x004, .mem .cmpStat), (0x008, .rc .cmpBlocks), (0x00C, .rc .cmpRaw), (0x010, .rc .cmpVerifyFail),
   (0x014, .rc .cmpInKib), (0x018, .rc .cmpOutKib)]

def memMap : List (Nat × Reg) :=
  [(0x000, .mem .memStat), (0x004, .rw .memScrubHours), (0x008, .mem .scrubStat), (0x010, .rc .memCe), (0x014, .rc .memUe),
   (0x018, .rc .memPoisonRd), (0x01C, .rc .memCollide), (0x020, .rc .memMergeRmw), (0x024, .rc .memScrubFix),
   (0x028, .rc .memRange), (0x030, .mem (.lastCe false)), (0x034, .mem (.lastCe true)), (0x038, .mem (.lastUe false)),
   (0x03C, .mem (.lastUe true)), (0x040, .rw .memEraseAt), (0x044, .rw .memBankSel), (0x048, .mem .bankStat),
   (0x050, .mem .inj)]

def mcuMap : List (Nat × Reg) :=
  [(0x100, .host .imgCmd), (0x104, .host .imgStat), (0x108, .host .imgDetail), (0x10C, .host .imgGen), (0x110, .host .imgSchema),
   (0x118, .rw (.actEpoch false)), (0x11C, .rw (.actEpoch true)), (0x120, .host (.actResult false)),
   (0x124, .host (.actResult true)), (0x200, .host .fltStat), (0x204, .rc .mcuFltLost), (0x208, .host .fsCmd),
   (0x20C, .host .fsStat), (0x210, .host .fltPop), (0x220, .host (.fltEnt 0)), (0x224, .host (.fltEnt 1)),
   (0x228, .host (.fltEnt 2)), (0x22C, .host (.fltEnt 3)), (0x230, .host (.fltEnt 4)), (0x234, .host (.fltEnt 5)),
   (0x238, .host (.fltEnt 6)), (0x23C, .host (.fltEnt 7)), (0x240, .rc .mcuDiscardMbx), (0x244, .rc .mcuDiscardDma),
   (0x248, .rc .mcuDiscardLoad), (0x24C, .rc .mcuDiscardJob), (0x300, .rw .mirCfg), (0x304, .rw .mirAge), (0x308, .rw .rebuild),
   (0x30C, .rw .syncWait), (0x310, .host .mirStat), (0x314, .host .rebuildLeft), (0x318, .rc .mcuMirRefused),
   (0x31C, .rc .mcuMirBad), (0x400, .host .confirm), (0x404, .rw .confirmHold)]

def tenMap : List (Nat × Reg) :=
  [(0x000, .rw .tenAperture), (0x004, .rw .tenViewSel), (0x008, .host .viewStat), (0x00C, .host .poolFree), (0x010, .rc .tenDeny),
   (0x014, .rc .tenHole), (0x018, .host (.denyLast 0)), (0x01C, .host (.denyLast 1))]

def dmaMap : List (Nat × Reg) := [(0x000, .rw .dmaChSel), (0x004, .host .chStat), (0x008, .rc .dmaTrunc)]

def pnlMap : List (Nat × Reg) :=
  [(0x000, .host .pnlStat), (0x004, .host .pulled), (0x008, .rw .pnlLed), (0x00C, .host .pnlCmd), (0x010, .host (.evt 0)),
   (0x014, .host (.evt 1)), (0x018, .host (.evt 2)), (0x01C, .host (.evt 3)), (0x020, .host (.depEpoch false)),
   (0x024, .host (.depEpoch true)), (0x028, .rc .pnlEvtLost), (0x02C, .rw .drainLead)]

def capMap : List (Nat × Reg) :=
  [(0x000, .rw .capObs), (0x004, .rw .capStale), (0x008, .rw .capProfMask), (0x010, .rc .capDropRange), (0x014, .rc .capDropEngcol),
   (0x018, .rc .capDropEngstate), (0x01C, .rc .capDropRingzero), (0x020, .rc .capRingUnder), (0x024, .rc .capDropHealth),
   (0x028, .rc .capDropAddr), (0x02C, .rc .capDropEvq), (0x030, .rc .capOptabOvf), (0x034, .rc .capStepOrphan),
   (0x038, .rc .capStepGenDrop), (0x03C, .rc .capProfLost), (0x040, .rw (.capProfBase false)), (0x044, .rw (.capProfBase true)),
   (0x048, .rw .capProfSize), (0x04C, .cap .profWr), (0x050, .rw .capProfRd), (0x054, .cap .profStat), (0x058, .cap .ringClr),
   (0x060, .rw .capStepId), (0x064, .cap .stepNum), (0x068, .cap .stepStat)]

/-- A lane sample's word (R200). -/
def laneReg (lanes o : Nat) : Option Reg :=
  if o / 8 < lanes then some (.cap (.laneSnap (o / 8) (o % 8 == 4))) else none

/-- Offsets within CAP. -/
def capReg (lanes o : Nat) : Option Reg := if 0x8000 ≤ o then laneReg lanes (o - 0x8000) else regIn capMap o

/-- One mailbox's registers (R644), at the offset within its 0x40 bytes. -/
def mailReg (m o : Nat) : Option Reg :=
  regIn [(0x00, .host (.mbxLock m)), (0x04, .host (.mbxRelease m)), (0x08, .rw (.mbxPtr m false)), (0x0C, .rw (.mbxPtr m true)),
    (0x10, .rw (.mbxLen m)), (0x14, .rw (.mbxOp m)), (0x18, .host (.mbxDoorbell m)), (0x1C, .host (.mbxAck m)),
    (0x20, .host (.mbxStat m)), (0x24, .rw (.mbxIrqEn m)), (0x28, .rc (.mbxSeqDrop m)), (0x2C, .rc (.mbxIgnored m))] o

def ptpMap : List (Nat × Reg) :=
  [(0x200, .rw (.ptpRxBase false)), (0x204, .rw (.ptpRxBase true)), (0x208, .rw .ptpRxCfg), (0x20C, .host .ptpRxWr),
   (0x210, .rw .ptpRxRd), (0x214, .rc .ptpRxDrop)]

/-- Offsets within MBX (R609, R645). -/
def mbxReg (views o : Nat) : Option Reg :=
  if o < 0x200 then mailReg (o / 0x40) (o % 0x40)
  else if 0x400 ≤ o ∧ o < 0x400 + 0x40 * views then mailReg (8 + (o - 0x400) / 0x40) (o % 0x40)
  else regIn ptpMap o

/-- The page of view `v` (R636), VERSION apart. -/
def pageReg (lanes v o : Nat) : Option Reg :=
  if o = 0 then some (.svc .version)
  else if 0x40 ≤ o ∧ o < 0x80 then mailReg (7 + v) (o - 0x40)
  else if 0x100 ≤ o ∧ o < 0x12C then (tbReg 3 (o - 0x100)).map (.tb3 v)
  else if 0x8000 ≤ o then laneReg lanes (o - 0x8000)
  else regIn [(0x04, .host (.tenSelf v)), (0x08, .host (.sramKib v)), (0x80, .rw (.tenIrqAddr v false)),
    (0x84, .rw (.tenIrqAddr v true)), (0x88, .rw (.tenIrqData v)), (0x8C, .rw (.tenIrqCfg v)), (0xA0, .rw (.dlvBase v false)),
    (0xA4, .rw (.dlvBase v true)), (0xA8, .rw (.dlvCfg v)), (0xAC, .host (.dlvWr v)), (0xB0, .rw (.dlvRd v)),
    (0xB4, .rc (.tenDlvSkip v)), (0xC0, .host (.viewAcct v false)), (0xC4, .host (.viewAcct v true))] o

/-- The register that a read of the low word of a pair latches (R15): the high word, where `r` is the low word of a pair, the words of
TIME_TBn_RATE among them (log entry 140). -/
def pairHigh : Reg → Option Reg
  | .rw .fwEpochLo => some (.svc .fwSchedHi)
  | .rw (.capProfBase false) => some (.rw (.capProfBase true))
  | .rw (.leapBundleBase false) => some (.rw (.leapBundleBase true))
  | .rw (.snapBase false) => some (.rw (.snapBase true))
  | .rw (.snapAck false) => some (.rw (.snapAck true))
  | .rw (.vrdRingBase false) => some (.rw (.vrdRingBase true))
  | .rw (.trcBase c false) => some (.rw (.trcBase c true))
  | .rw (.ercBufBase b false) => some (.rw (.ercBufBase b true))
  | .rw (.actEpoch false) => some (.rw (.actEpoch true))
  | .rw (.mbxPtr m false) => some (.rw (.mbxPtr m true))
  | .rw (.ptpRxBase false) => some (.rw (.ptpRxBase true))
  | .rw (.tenIrqAddr v false) => some (.rw (.tenIrqAddr v true))
  | .rw (.dlvBase v false) => some (.rw (.dlvBase v true))
  | .svc (.idSerial false) => some (.svc (.idSerial true))
  | .time (.rate b false) => some (.time (.rate b true))
  | .time (.epoch false) => some (.time (.epoch true))
  | .time (.anchorEpoch false) => some (.time (.anchorEpoch true))
  | .cap (.laneSnap n false) => some (.cap (.laneSnap n true))
  | .cap (.codeEpoch false) => some (.cap (.codeEpoch true))
  | .cap (.acct false) => some (.cap (.acct true))
  | .link (.snapSeq false) => some (.link (.snapSeq true))
  | .link (.detH false) => some (.link (.detH true))
  | .mem (.lastCe false) => some (.mem (.lastCe true))
  | .mem (.lastUe false) => some (.mem (.lastUe true))
  | .host (.actResult false) => some (.host (.actResult true))
  | .host (.depEpoch false) => some (.host (.depEpoch true))
  | .host (.viewAcct v false) => some (.host (.viewAcct v true))
  | _ => none

/-- New value of a field group: bits of `mask` from the written word, where the write is taken. -/
def maskIf (mask : Nat) (old d : Nat) (ok : Bool) : Nat := if ok then d &&& mask else old

/-- A field kept unless the written one lies in a range: old word, new word, the field's place and its bounds. -/
def fieldIf (old d lo n a b : Nat) : Nat :=
  let f := (d / 2 ^ lo) % 2 ^ n
  (if a ≤ f ∧ f ≤ b then f else (old / 2 ^ lo) % 2 ^ n) * 2 ^ lo

/-- "1 reads back as 0" (R239, R319, R457, R535, R636, R645). -/
def notOne (f : Nat) : Nat := if f = 1 then 0 else f

/-- What a write of `d` leaves in a plain read/write register holding `old`, by its own table: reserved bits read 0, and a
field whose written value its definition ignores keeps its value. -/
def rwWrite (r : RwReg) (old d : Nat) : Nat :=
  match r with
  | .bstLen => d &&& 0x3FFFFFF
  | .flashCfg => d &&& 0xFFFFFFFC
  | .tbStep _ 0 => d &&& 0xFFFF
  | .stbAt _ 2 => d &&& 0xFFFF
  | .capCfg _ => d &&& 0x07070707
  | .capObs => fieldIf old d 0 8 1 30
  | .capStale => d &&& 0xFFFF
  | .capProfMask => d &&& 0x3F
  | .capProfBase false => d &&& 0xFFFF0000
  | .capProfBase true => d &&& 0xFFFFF
  | .capProfSize => maskIf 0x1FFF old (notOne (d &&& 0x1FFF)) (decide ((d &&& 0x1FFF) ≤ 4096))
  | .capProfRd => d &&& 0xFFF
  | .capStepId => d &&& 0x80FFFFFF
  | .featCodeSel => d &&& 0x1FFF
  | .leapBundleBase false => d &&& 0xFFFFFFF0
  | .leapBundleBase true => d &&& 0xFFFFF
  | .leapBundleCount => fieldIf old d 0 11 0 1024
  | .leapHotCfg => d &&& 1
  | .leapHotSel => d &&& 0x3F
  | .leapSchedCfg => fieldIf old d 0 4 0 8
  | .leapAcctSel => d &&& 0x1FF
  | .leapShare _ => fieldIf old d 0 8 1 255
  | .leapScrubPeriod => fieldIf old d 0 16 1 65535
  | .redCfg => fieldIf old d 0 4 1 8
  | .sealWin => fieldIf old d 0 20 1000 1000000
  | .sealDue => fieldIf old d 0 24 4000 16777215
  | .sealCfg => d &&& 1
  | .snapBase false => d &&& 0xFFFFF000
  | .snapBase true => d &&& 0xFFFFF
  | .snapCfg => (d &&& 0x80000000) + notOne ((d / 65536) % 4096) * 65536 + fieldIf old d 0 11 1 1025
  | .vrdSpBucket => d &&& 0x1F01FFFF
  | .vrdDomeBudget => d &&& 0x03FF3FFF
  | .vrdVoteWait => d &&& 0x1FFF
  | .vrdDetSel => d &&& 0xFF
  | .vrdRingBase false => d &&& 0xFFFFF000
  | .vrdRingBase true => d &&& 0xFFFFF
  | .vrdRingCfg => maskIf 0x1FFF old (notOne (d &&& 0x1FFF)) (decide ((d &&& 0x1FFF) ≤ 4096))
  | .vrdRingRd => d &&& 0xFFF
  | .ilkPortSel => d &&& 0xFF
  | .ilkCap _ => fieldIf old d 0 9 50 500
  | .ilkRevert => d &&& 0xFFFF
  | .bcJob => d &&& 0x03FFFFFF
  | .bcStart 2 => d &&& 0xFFFF
  | .bcAckby 2 => d &&& 0xFFFF
  | .bcMissSel => d &&& 0xFF
  | .trcCfg => fieldIf old d 0 10 1 1000 + fieldIf old d 16 10 1 1000
  | .trcBase _ false => d &&& 0xFFFFF000
  | .trcBase _ true => d &&& 0xFFFFF
  | .trcSize _ => notOne (d &&& 0xFFF)
  | .trcRd _ => d &&& 0xFFFFE0
  | .ercCfg => fieldIf old d 8 8 1 255 + (d &&& 3)
  | .ercBufBase _ false => d &&& 0xFFFFF000
  | .ercBufBase _ true => d &&& 0xFFFFF
  | .ercBufSize _ => d &&& 0xFFF
  | .cmpCfg => d &&& 7
  | .memScrubHours => fieldIf old d 0 8 1 168
  | .memEraseAt => d &&& 0xFF
  | .memBankSel => d &&& 0x1F
  | .mirCfg => (d &&& 0x100) + fieldIf old d 0 4 3 10
  | .mirAge => d &&& 0xFFFF
  | .rebuild => fieldIf old d 0 24 1 16777215
  | .syncWait => fieldIf old d 0 16 1 65535
  | .confirmHold => d &&& 1
  | .pnlLed => d &&& 0xFF
  | .drainLead => fieldIf old d 0 11 2 1024
  | .mbxPtr _ false => d &&& 0xFFFFFFF0
  | .mbxPtr _ true => d &&& 0xFFFFF
  | .mbxLen _ => d &&& 0xFFFFFF
  | .mbxOp _ => d &&& 0xFFFF00FF
  | .mbxIrqEn _ => d &&& 1
  | .ptpRxBase false => d &&& 0xFFFFF000
  | .ptpRxBase true => d &&& 0xFFFFF
  | .ptpRxCfg => (d &&& 0x80000000) + notOne (d &&& 0xFFF)
  | .ptpRxRd => d &&& 0xFFF
  | .tenAperture => d &&& 0x1F
  | .tenViewSel => d &&& 0x1FF
  | .tenIrqAddr _ false => d &&& 0xFFFFFFFC
  | .tenIrqAddr _ true => d &&& 0xFFFFF
  | .tenIrqCfg _ => d &&& 3
  | .dlvBase _ false => d &&& 0xFFFFF000
  | .dlvBase _ true => d &&& 0xFFFFF
  | .dlvCfg _ => notOne ((d / 65536) % 4096) * 65536 + fieldIf old d 0 8 1 64
  | .dlvRd _ => d &&& 0xFFF
  | .dmaChSel => d &&& 0x1F
  | _ => d

/-- Reset value of a plain read/write register, from its own table. -/
def rwReset : RwReg → Nat
  | .capObs => 0x1E
  | .leapHotCfg => 1
  | .leapShare _ => 1
  | .leapScrubPeriod => 0x3E8
  | .redCfg => 2
  | .sealCfg => 1
  | .ilkCap _ => 0xC8
  | .trcCfg => 0x640064
  | .ercCfg => 0x1002
  | .memScrubHours => 0x18
  | .memEraseAt => 0x40
  | .mirCfg => 6
  | .mirAge => 0xE10
  | .rebuild => 0x10000
  | .syncWait => 0x64
  | .drainLead => 0x10
  | _ => 0

end Sys2Proof.Machine
end

