-- ==== Sys2Proof/Machine/TimeState.lean ====
section
/-!
DEFINITION. The state of the ports and of the first units: the register port and its latches (R15, R54 to R58), the units' power
(R45 to R51, R681), resets and straps (R91, R92, R96), the memory master port (R59 to R64, R235), TIME (R144 to R190), CAP (R191
to R239) and FEAT (R320 to R356).
-/
namespace Sys2Proof.Machine

/-! Register port -/

/-- An acknowledge waiting on reg_ack_o: requester ID and read data, 0 for a write (R54, R56). -/
structure Ack where
  rid  : Nat
  data : Nat
deriving DecidableEq, Repr

/-- A request that waits for its unit to reach ON: a register write (R49), or a command (R48). -/
inductive HeldReq where
  | write (a : Access) (r : Reg) (d : Nat)
  | command (i : Instr)
deriving DecidableEq, Repr

/-- The register port: acknowledges in the order of acceptance, the last one presented, the latches of R15 (R58, R87), and with its unit's code each
request that waits for a unit in RET or OFF, oldest first (R48, R49). -/
structure Bus where
  queue    : List Ack
  ackOut   : Option Ack
  latches  : List ((Requester × Reg) × Nat)
  deferred : List (Nat × HeldReq)
deriving DecidableEq, Repr

/-! Power -/

/-- The power states of R45. -/
inductive PState where
  | on
  | gated
  | ret
  | off
deriving DecidableEq, Repr

/-- One unit's power: its state, pwr_on_req_o and pwr_ret_o (R90), its power register (R681), the slow cycle of its entry into GATED
with the threshold that governs that entry (R682, R683), and the instant of an unanswered request (R684). -/
structure UnitPow where
  st      : PState
  req     : Bool
  retain  : Bool
  retEn   : Bool
  thresh  : Nat
  gatedAt : Nat
  gThresh : Nat
  reqAt   : Option Nat
  late    : Bool
deriving DecidableEq, Repr

/-! Resets, straps and the key anchor -/

/-- Reset cause bits, start-up step of R103, straps, key anchor with KEY_STATE (R96), and pwr_fail_warn_i with the phases of the flush of
R105 that still run. -/
structure Rst where
  serial   : Nat
  pkg      : Nat
  die      : Nat
  key      : Nat
  keyState : Nat
  por      : Bool
  warm     : Bool
  pfw      : Bool
  fallback : Bool
  step     : Nat
  warn     : Bool
  flushA   : Bool
  flushB   : Bool
  flushC   : Bool
  selftest : Nat
  failWdn  : Bool
  failBank : Nat
deriving DecidableEq, Repr

/-! Memory master port -/

/-- What a piece of mm_ work belongs to, and so what its completion starts. -/
inductive MmOwner where
  | snapZero | snapBody | snapSeq
  | profBody
  | trcBlock (core : Nat)
  | ercChunk (second : Bool) | ercEnd (second : Bool)
  | vrdZero | vrdBody | vrdSeq
  | ptpRxZero | ptpRxBody | ptpRxSeq
  | dlvZero (view : Nat) | dlvBody (view : Nat) | dlvSeq (view : Nat)
  | viewIrq (view : Nat)
  | mbxBody (mbx : Nat)
  | mbxData (mbx : Nat)
  | dmaRead (mbx : Nat) | dmaWrite (mbx : Nat) | dmaDone (mbx : Nat)
  | bundleHead (model : Nat) | bundleBody (model : Nat) | bundleTable (model : Nat)
  /-- Work that a warm reset has ended; its tags stay taken until their responses have come (R60). -/
  | ended
deriving DecidableEq, Repr

/-- One piece of mm_ work: a read of `len` bytes into `data`, or a write of `data`; how many bytes are issued and how many still
outstanding, and the first error answered. `chan` is the DMA channel whose turn an observation transaction takes (R237). -/
structure MmJob where
  owner  : MmOwner
  write  : Bool
  qos    : Nat
  chan   : Nat
  addr   : Nat
  len    : Nat
  data   : Bytes
  issued : Nat
  left   : Nat
  err    : Nat
deriving DecidableEq, Repr

/-- One transaction outstanding (R60): its job, its byte address and beats, and the byte offset that its first beat has in the job. -/
structure MmTx where
  owner : MmOwner
  write : Bool
  qos   : Nat
  addr  : Nat
  beats : Nat
  first : Nat
  got   : Nat
deriving DecidableEq, Repr

/-- The memory master port: jobs in the order of their requests, transactions by tag, the observation bucket with the host cycle of its
last update (R235), the channel whose observation transaction went last (R237), and the halted channels with their codes (R64, R627). -/
structure Mm where
  jobs    : List MmJob
  tags    : List (Nat × MmTx)
  bucket  : Nat
  bucketH : Nat
  lastObs : Nat
  halted  : List (Nat × Nat)
deriving DecidableEq, Repr

/-! TIME -/

/-- One time base. OFFSET and RATE in units of 2^-44 ns (R146); writes committed and not yet applied with the counter value of
their commit (R152, R153); the counter value of the last applied step. -/
structure Base where
  off        : Int
  rate       : Int
  held       : Nat
  rateWait   : List (Int × Nat)
  stepWait   : List (Int × Nat)
  armed      : Bool
  stepCount  : Nat
  rearmCount : Nat
  refused    : Nat
  warmCut    : Bool
  lastStep   : Option Nat
deriving DecidableEq, Repr

/-- TIME_GRID_STAT.STATE (R162, R164). -/
inductive GridSt where
  | waiting
  | running
  | exhausted
deriving DecidableEq, Repr

/-- The epoch grid (R160 to R171): anchor in ns and epoch, exponent, the exponent before the anchor moved to it (R166), the epoch in progress,
whether a strobe of this node has begun it (R162, R195), and the marks of its record. -/
structure Grid where
  st      : GridSt
  stepped : Bool
  anchor  : Nat
  anchorE : Nat
  e       : Int
  eOld    : Int
  epoch   : Nat
  forming : Bool
  tstep   : Bool
deriving DecidableEq, Repr

/-- A capture FIFO entry (R174, R189). Input 0x3F is tim_pps_i. -/
structure CapEnt where
  input : Nat
  seq   : Nat
  lost  : Bool
  step  : Bool
  base  : Nat
  stamp : Stamp
deriving DecidableEq, Repr

/-- A strobe (R176, R190) with the counter value at which its 8-cycle pulse began. -/
structure Strobe where
  armed : Bool
  late  : Bool
  pulse : Option Nat
deriving DecidableEq, Repr

/-- The TIME unit. -/
structure TimeU where
  c        : Nat
  bases    : List Base
  grid     : Grid
  fifo     : List CapEnt
  seqs     : List (Nat × Nat)
  lostIn   : List Nat
  strobes  : List Strobe
  ppsHigh  : Bool
  ppsSec   : Nat
deriving DecidableEq, Repr

/-! CAP -/

/-- A captured lane (R196, R197). -/
structure Lane where
  value : Nat
  delta : Nat
  clr   : Bool
  satV  : Bool
  satD  : Bool
deriving DecidableEq, Repr

/-- An enabled engine (R201); `cmd` is its command's (layer, operator), none before its first. -/
structure Eng where
  state    : Nat
  reason   : Nat
  cmd      : Option (Nat × Nat)
  since    : Nat
  idle     : Nat
  busy     : Nat
  stalled  : Nat
  cmds     : Nat
  byReason : List Nat
deriving DecidableEq, Repr

/-- An operator table entry (R205); OTHER carries key 0xFFFF, 0xFFFF. -/
structure OpEnt where
  layer   : Nat
  op      : Nat
  cmds    : Nat
  busy    : Nat
  stalled : Nat
deriving DecidableEq, Repr

/-- A step completion (R210). -/
structure StepDone where
  slot     : Nat
  job      : Nat
  gen      : Nat
  step     : Nat
  beginAt  : Stamp
  endAt    : Stamp
  duration : Nat
deriving DecidableEq, Repr

/-- A job slot (R210): `openStep` its open step with its BEGIN stamp, `mark` the order of its latest mark. -/
structure JobSlot where
  used     : Bool
  job      : Nat
  gen      : Nat
  openStep : Option (Nat × Stamp)
  mark     : Nat
deriving DecidableEq, Repr

def slotNone : JobSlot := ⟨false, 0, 0, none, 0⟩

/-- A captured memory stack (R217, R218). -/
structure Stk where
  ce     : Nat
  ue     : Nat
  scrub  : Nat
  repair : Nat
  rep    : Nat
  ueAddr : Nat
  lru    : List Nat
deriving DecidableEq, Repr

/-- A captured sensor (R220): tallies over twos-complement samples, and the count of consecutive epochs without one. -/
structure Sns where
  count : Nat
  lo    : Int
  hi    : Int
  sum   : Int
  last  : Int
  quiet : Nat
deriving DecidableEq, Repr

/-- The epoch sample (R222), as the frozen copy holds it, with the loss block's counts (R248) and the marks of the epoch's record. -/
structure Sample where
  epoch    : Nat
  beginAt  : Stamp
  endAt    : Stamp
  cycles   : Nat
  gen      : Nat
  restart  : Bool
  tstep    : Bool
  join     : Bool
  poisoned : Bool
  lanes    : List (Nat × Lane)
  engines  : List (Nat × Eng)
  optab    : List OpEnt
  groups   : List (Nat × Nat × Nat × Nat × Nat)
  memStacks   : List (Nat × Stk)
  sensors  : List (Nat × Sns)
  links    : List (Nat × Nat × Nat)
  steps    : List StepDone
  loss     : List Nat
deriving DecidableEq, Repr

/-- A profile buffer (R229): its sequence number, epoch, generation, entries' bytes, the entries it holds, LOST of its header, LAST_OF_EPOCH,
POISONED, whether CMP compresses it (R530), and the bytes from 0x40 on once it is ready for its slot. -/
structure ProfBuf where
  seq    : Nat
  epoch  : Nat
  gen    : Nat
  data   : Bytes
  count  : Nat
  lost   : Nat
  last   : Bool
  pois   : Bool
  zip    : Bool
  stored : Option Bytes
deriving DecidableEq, Repr

/-- Profile buffers (R229 to R234): the one being filled, closed ones oldest first, whether the first of them is on its way to host memory; the entries
of epoch `ep` that wait for a buffer, with its generation and POISONED. -/
structure Prof where
  seq    : Nat
  lost   : Nat
  cur    : Option ProfBuf
  bufs   : List ProfBuf
  ep     : Nat
  gen    : Nat
  pois   : Bool
  todo   : List Bytes
  flying : Bool
  wr     : Nat
  halt   : Bool
deriving DecidableEq, Repr

/-- The CAP unit. `strobe` is the core cycle of the last strobe cycle, `loss` the loss counts of the epoch in progress; the raw lists
feed profile entries (R230), `poisoned` that a CAP macro has met an uncorrectable error in the epoch (R223). -/
structure CapU where
  strobe  : Nat
  restart : Bool
  join    : Bool
  poisoned : Bool
  lanes   : List (Nat × Lane)
  engines : List (Nat × Eng)
  optab   : List OpEnt
  other   : Option OpEnt
  slots   : List JobSlot
  marks   : Nat
  table   : List StepDone
  rings   : List (Nat × Nat)
  ringEp  : List (Nat × Nat × Nat)
  groups  : List (Nat × Nat × Nat)
  memStacks  : List (Nat × Stk)
  sensors : List (Nat × Sns)
  links   : List (Nat × Nat × Nat)
  loss    : List Nat
  rawSns  : List (Nat × Nat × Nat)
  rawEcc  : List (Nat × Nat × Nat × Nat)
  rawStep : List StepDone
  frozen  : List Sample
  prof    : Prof
deriving DecidableEq, Repr

/-! FEAT -/

/-- An event sample waiting in FEAT's queue (R211, R219). -/
inductive EvSample where
  | step (d : StepDone)
  | ue (stack granule cycle : Nat)
deriving DecidableEq, Repr

/-- FEAT's input queue entry (R224): an epoch sample by its epoch, or an event sample with its epoch and its sequence number within
it. -/
inductive FeatIn where
  | epoch (e : Nat)
  | event (e seq : Nat) (v : EvSample)
deriving DecidableEq, Repr

/-- A code vector: one code per feature and the indices whose poison bit is 1. `cls` 1 EPOCH, 2 STEP, 3 UE, 4 the codes of a host-issued
job; `key` is the sequence number of an event sample within its epoch, `formed` the TB0 ns of the sample's formation. -/
structure Vec where
  cls    : Nat
  key    : Nat
  epoch  : Nat
  formed : Nat
  codes  : List Nat
  poison : List Nat
deriving DecidableEq, Repr

/-- A feature buffer slot (R346, R347): its vector and the readers that have not finished. -/
structure FSlot where
  vec  : Vec
  jobs : List Nat
  red  : Bool
  vrd  : Bool
deriving DecidableEq, Repr

/-- The FEAT unit: the input queue, the vector in formation, the buffer, the state of each stateful feature (absent: uninitialised),
the epoch and RESTART of the last epoch sample, the latest completed epoch vector, and the damaged descriptors and tables (R343). `prevState` and
`prevBad` are the old image's, for samples of epochs before e_A (R133). -/
structure FeatU where
  queue    : List FeatIn
  cur      : Option Vec
  slots    : List FSlot
  state    : List (Nat × Nat)
  lastEp   : Option (Nat × Bool)
  evSeq    : Nat
  latest   : Option Vec
  lastSat  : Option Nat
  badState : List Nat
  prevState : List (Nat × Nat)
  prevBad  : List Nat
deriving DecidableEq, Repr

end Sys2Proof.Machine
end

