-- ==== Sys2Proof/Machine/LinkState.lean ====
section
/-!
DEFINITION. The state of the structure image and its activation (R113 to R143), of record formation and reduction (R240 to R289) and
of sealing and snapshots (R290 to R319).
-/
namespace Sys2Proof.Machine

/-- MCU_IMG_STAT.STATE (R139). -/
inductive ImgSt where
  | idle
  | staging
  | staged
  | scheduled
  | rejected
  | releasing
deriving DecidableEq, Repr

/-- A scheduled activation: the generation and epoch it carries with E and L_PEER (R128), the epoch whose first edge it acts on, and
whether it came late (R130). -/
structure Sched where
  gen   : Nat
  eA    : Nat
  e     : Int
  lPeer : Nat
  actAt : Nat
  late  : Bool
deriving DecidableEq, Repr

/-- The loader and the generations (R117, R124 to R143): `gen` is in force from epoch `eA` on and `genPrev` before it; `old` is the image
that R136 still holds, `oldRegs` the adjusted values with it; `featDue` the sample classes whose features have still to take the old image's state over (R335), `detDue`
that the detectors' state is still that of the old image (R133). `lastEA` is e_A of the latest activation for R127, `nextIsEA` that it is the first epoch
that the grid begins next (R660). -/
structure ImgU where
  st        : ImgSt
  reject    : Nat
  detail    : Nat
  busy      : Bool
  mismatch  : Bool
  adjDrop   : Bool
  adjReject : Bool
  lateAct   : Bool
  refused   : Bool
  slot      : Nat
  loading   : Option (Nat × Bool)
  staged    : Option Image
  active    : Option Image
  old       : Option Image
  oldRegs   : List (RwReg × Nat)
  featDue   : List Nat
  detDue    : Bool
  gen       : Nat
  genPrev   : Nat
  eA        : Nat
  hasAct    : Bool
  lastEA    : Option Nat
  nextIsEA  : Bool
  sched     : Option Sched
  outcome   : Nat
  reached   : Nat
  switched  : Nat
deriving DecidableEq, Repr

/-- A START held until its start time (R258): selector, job, generation, TB0 ns; `join` when it came late and marks the record of the
epoch at whose edge it comes into force (R491). -/
structure SelPend where
  sel   : Nat
  job   : Nat
  gen   : Nat
  start : Nat
  join  : Bool
deriving DecidableEq, Repr

/-- The four selectors in force from an epoch on (R258); none where no START has set one. -/
structure SelAt where
  epoch : Nat
  sels  : List (Option (Nat × Nat))
deriving DecidableEq, Repr

/-- Record formation: selectors and STARTs that wait, records ready and unsent in epoch order (R275), the node's own records of the last epochs (newest first, R328), the form last sent, and the DOWN
records accepted (R279, R280). -/
structure RedU where
  sels     : List (Option (Nat × Nat))
  selPend  : List SelPend
  selHist  : List SelAt
  unsent   : List Record
  own      : List Record
  lastForm : Bool
  downs    : List DownRec
deriving DecidableEq, Repr

/-- An accepted contribution to an epoch: its place in the order of arrival at this epoch, the port and node it came from, whether the sender
is a standby child, whether it is a resend (R309), and the record. -/
structure Arrival where
  ord     : Nat
  port    : Nat
  node    : Nat
  standby : Bool
  resend  : Bool
  record  : Record
deriving DecidableEq, Repr

/-- A late group taken from an accepted record, or a late record as one (R300, R301): order of arrival, port, the schema its fields are in,
and whether its leaves came through a sender whose PARENT is neither this node nor a child. -/
structure GroupIn where
  ord     : Nat
  port    : Nat
  schema  : Nat
  foreign : Bool
  group   : LateGroup
deriving DecidableEq, Repr

/-- The work on one epoch of a merging node: whether it has been opened and sealed (in epoch `sealIn`), the contributions it will merge,
resends that await the seal (R309), late groups merged into it while open (R301), the senders already accepted on time or late, the coverage
blocks held for resends (R299), and the orphans merged, as parent and index (R310). -/
structure EpochWork where
  x        : Nat
  opened   : Bool
  isSealed : Bool
  sealIn   : Nat
  inputs   : List Arrival
  resends  : List Arrival
  groups   : List GroupIn
  senders  : List Nat
  covs     : List (Nat × Coverage)
  orphans  : List (Nat × Nat)
  released : Bool
deriving DecidableEq, Repr

/-- A late group being folded (R300): the epoch it is for, the target epoch, and its inputs in arrival order. -/
structure LateAcc where
  x      : Nat
  target : Nat
  parts  : List GroupIn
deriving DecidableEq, Repr

/-- A snapshot on its way to its slot (R314): sequence number, slot bytes with SEQ 0, slot address. -/
structure SnapWrite where
  seq  : Nat
  addr : Nat
  data : Bytes
deriving DecidableEq, Repr

/-- Sealing and snapshots: the epochs worked on, late groups, the last known EXPECT of each child (R305), the sealed records that are not
yet ready with the merged fields of each, the merged fields of the latest records that are ready (R435), the snapshot ring (R312 to R315) with snapshots that wait their turn, and planned departures (R593): child index, the
epoch from which it is marked, and the epoch from which the mark is cleared; `grants` the GRANTs that no SAFE has followed yet (R595): child index, EDEP and the REQUEST's CAUSE. -/
structure SealU where
  works    : List EpochWork
  lates    : List LateAcc
  expects  : List (Nat × Nat)
  top      : Option Nat
  ready    : List (Record × List Field)
  merged   : List (Nat × List Field)
  snapSeq  : Nat
  snapNext : Nat
  skipped  : Bool
  prevEp   : Option Nat
  writes   : List SnapWrite
  departs  : List (Nat × Nat × Option Nat)
  grants   : List (Nat × Nat × Nat)
deriving DecidableEq, Repr

end Sys2Proof.Machine
end

