-- ==== Sys2Proof/Machine/HostState.lean ====
section
/-!
DEFINITION. The state of the mailboxes (R609 to R619), DMA commands (R623 to R627), LEAP_RUN (R628 to R630), PTP carriage (R631, R632) and tenant
views (R633 to R643).
-/
namespace Sys2Proof.Machine

/-- A message taken at a doorbell (R613). -/
structure Msg where
  ptr : Nat
  len : Nat
  op  : Nat
  seq : Nat
deriving DecidableEq, Repr

/-- A DMA descriptor (R624). -/
structure DmaDesc where
  srcSpace : Nat
  src      : Nat
  dstSpace : Nat
  dst      : Nat
  len      : Nat
  last     : Bool
  tview    : Nat
deriving DecidableEq, Repr

/-- A LEAP_RUN job descriptor (R628). -/
structure RunDesc where
  bundle : Nat
  tag    : Nat
  codes  : Nat
  result : Nat
  n      : Nat
deriving DecidableEq, Repr

/-- A DMA command that runs (R625): its channel, the descriptor in progress with its bytes and whether it was cut, the units behind the SRAM
windows of its source and destination as they stood at its start (R634), whether any descriptor was cut, whether the command ends after this
descriptor (R577), and the chain. -/
structure DmaRun where
  chan     : Nat
  idx      : Nat
  n        : Nat
  cut      : Bool
  srcUnits : List Nat
  dstUnits : List Nat
  trunc    : Bool
  last     : Bool
  descs    : List DmaDesc
deriving DecidableEq, Repr

/-- A LEAP_RUN that runs (R629): its descriptors, the next one to get its job, that one's codes once read, jobs in the block with their
descriptors, the codes of those that have ended, the result being written with its code, and the STATUS of jobs not created because the
command is being ended (0 none). -/
structure LeapRun where
  descs   : List RunDesc
  next    : Nat
  codes   : Option Bytes
  jobs    : List (Nat × Nat)
  results : List (Nat × Nat)
  writing : Option (Nat × Nat)
  stop    : Nat
deriving DecidableEq, Repr

/-- How far a mailbox command has come. `ptpBack` has the stamp still to be written back, `cfgEdge` the units taken for its view, `cfgDrain` those
that it releases, `late` the results that R578 still owes, and `ending` the code with which a command ends once its transactions have. -/
inductive CmdState where
  | body
  | dmaWait (descs : List DmaDesc)
  | dma (run : DmaRun)
  | leap (run : LeapRun)
  | ptp (port base : Nat) (oneStep : Bool) (tref : Stamp) (msg : Bytes)
  | ptpBack (stamp : Option Stamp)
  | cfgEdge (ent : ViewEnt) (units : List Nat)
  | cfgDrain (units : List Nat)
  | freezeWait (view : Nat)
  | saveWrite
  | restoreRead (ent : ViewEnt)
  | restoreEdge (ent : ViewEnt) (units : List Nat) (blob : Bytes)
  | resetWait (view : Nat)
  | ending (code : Nat) (trunc : Bool) (chan : Option Nat)
  | late (writes : List (Nat × Bytes))
deriving DecidableEq, Repr

/-- A mailbox (R609 to R615, R644). -/
structure Mbx where
  owner   : Option Requester
  busy    : Bool
  done    : Bool
  trunc   : Bool
  ackSeq  : Nat
  ackCode : Nat
  lastSeq : Option Nat
  msg     : Option Msg
  cmd     : Option CmdState
deriving DecidableEq, Repr

/-- A view (R632, R636): `st` 0 EMPTY, 1 READY, 2 FROZEN, 3 RESETTING, `removing` the end of its reset leaves it EMPTY. -/
structure View where
  st      : Nat
  removing : Bool
  ent     : Option ViewEnt
  chan    : Option Nat
  units   : List Nat
  acct    : Nat
  dlvWr   : Nat
  dlvSeq  : Nat
  dlvQ    : List Bytes
  irqs    : Nat
deriving DecidableEq, Repr

/-- Mailboxes by number (0 to 7 privileged, 7 + v of view v), views by number, the latest denied access (R608), the PTP receive ring (R632),
and pool units released while a transfer still uses them (R634). The last three count what R578 reports after a warm reset: descriptors, loads and jobs
discarded at the entry to fail-silence. -/
structure HostU where
  mboxes   : List (Nat × Mbx)
  views    : List (Nat × View)
  denyOff  : Nat
  denyView : Nat
  denyRid  : Nat
  ptpWr    : Nat
  ptpSeq   : Nat
  ptpQ     : List Bytes
  draining : List Nat
  discDma  : Nat
  discLoad : Nat
  discJob  : Nat
deriving DecidableEq, Repr

end Sys2Proof.Machine
end

