-- ==== Sys2Proof/Machine/IlkState.lean ====
section
/-!
DEFINITION. The state of ILK: frames to send, ports, held copies, uplinks (R458 to R487), and the START and ACTIVATE broadcasts (R488 to R496).
-/
namespace Sys2Proof.Machine

/-- A frame that waits to be sent in rows 2 to 4 of R468: its row and order within it, TYPE byte, TAG epoch (none: the epoch current when it
leaves), FLAGS, payload; `mbx` the mailbox whose PTP_TX it is. -/
structure TxFrame where
  row     : Nat
  order   : Nat
  ty      : Nat
  tag     : Option Nat
  flags   : Nat
  payload : Bytes
  mbx     : Option Nat
deriving DecidableEq, Repr

/-- A record or DOWN record on its way out of a port in rows 5 to 7: its epoch, bytes, next segment, and MSGSEQ once started. -/
structure TxRec where
  row   : Nat
  epoch : Nat
  gen   : Nat
  first : Bool
  data  : Bytes
  next  : Nat
  seq   : Option Nat
deriving DecidableEq, Repr

/-- A reassembly (R465): TAG, GEN, MSGSEQ, LASTIDX, the next INDEX, bytes so far, and the receive cells it occupies. -/
structure Reass where
  tag   : Nat
  gen   : Nat
  seq   : Nat
  last  : Nat
  next  : Nat
  data  : Bytes
  cells : Nat
deriving DecidableEq, Repr

/-- A completed reassembly that waits to be received: TAG, bytes, cells. -/
structure RxRec where
  tag   : Nat
  data  : Bytes
  cells : Nat
deriving DecidableEq, Repr

/-- One Itzil port. `lstate` 0 DOWN, 1 PROBING, 2 UP; `hbRef` the TB0 ns of the latest accepted heartbeat or miss; `hbRx` the TB0 ns and SRC of
the latest accepted heartbeat; `hbDue` a heartbeat to send at once; `pfTx` PFAIL owed to the next heartbeat (R105);
`peerUse` and `peerDepart` ACTIVE and DEPART of the latest accepted heartbeat; `rejoin` no heartbeat without DEPART since the link became UP (R598); shaper level in 2^-16 byte with the count of its last gain (R482). -/
structure IPort where
  linkUp   : Bool
  lstate   : Nat
  loss     : Nat
  pfail    : Bool
  pfailAt  : Option Nat
  hbRx     : Option (Nat × Nat)
  hbRef    : Nat
  misses   : Nat
  hbTx     : Nat
  hbSeq    : Nat
  hbDue    : Bool
  pfTx     : Bool
  peerUse  : Bool
  peerDepart : Bool
  rejoin   : Bool
  freed    : Nat
  used     : Nat
  sent     : Nat
  limit    : Nat
  level    : Int
  levelAt  : Nat
  /-- Epoch edges seen since the port rose (R487). -/
  upEpochs : Nat
  queue    : List TxFrame
  recs     : List TxRec
  seqUp    : Nat
  seqDown  : Nat
  reUp     : Option Reass
  reDown   : Option Reass
  rxUp     : List RxRec
  rxDown   : List RxRec
  asked    : List ((Nat × Nat) × Nat)
  lastTx   : Bytes
deriving DecidableEq, Repr

/-- A held copy (R467): kind, epoch, the node whose record it is, bytes, and the port its first segment started on. -/
structure Held where
  down  : Bool
  epoch : Nat
  gen   : Nat
  node  : Nat
  data  : Bytes
  port  : Nat
deriving DecidableEq, Repr

/-- The counts and list of an ACK (R492). -/
structure AckInfo where
  refused  : Bool
  overflow : Bool
  reached  : Nat
  joined   : Nat
  expected : Nat
  switched : Nat
  parent   : Nat
  miss     : List Nat
deriving DecidableEq, Repr

/-- A broadcast that the node holds: START or ACTIVATE, its ID, payload and ACK_BY (TB0 ns), the latest ACK of each child (by node ID), the
orphans' ACKs (by node ID), what this node itself contributes, and the ACK last sent. -/
structure Bcast where
  act      : Bool
  id       : Nat
  sel      : Nat
  payload  : Bytes
  ackBy    : Nat
  acks     : List (Nat × AckInfo)
  orphans  : List (Nat × AckInfo)
  joined   : Bool
  refused  : Bool
  sentAck  : Option AckInfo
  due      : Bool
  retryAt  : Nat
  done     : Bool
deriving DecidableEq, Repr

/-- ILK_BC_RESULT and what it latches (R496, R503). -/
structure BcResult where
  outcome  : Nat
  act      : Bool
  refused  : Bool
  overflow : Bool
  id       : Nat
  reached  : Nat
  joined   : Nat
  expected : Nat
  miss     : List Nat
  irq      : Bool
deriving DecidableEq, Repr

/-- The ILK unit. `active` 0 primary, 1 alternate, 2 none; `lostUp` the port of the uplink that was lost as the active one (R485, R486); `resendTop` the
latest epoch of the records that waited at the latest failover (R485); gate lists in force and those that take over at a gate cycle (R481). -/
structure Ilk where
  ports     : List (Nat × IPort)
  held      : List Held
  active    : Nat
  failovers : Nat
  lostUp    : Option Nat
  resendTop : Option Nat
  gates     : List GateList
  gatesNext : List GateList
  /-- e_A of the image that gave `gatesNext` (R481). -/
  gatesAt   : Nat
  bcid      : Nat
  actid     : Nat
  selIds    : List (Nat × Nat)
  bcasts    : List Bcast
  result    : BcResult
deriving DecidableEq, Repr

end Sys2Proof.Machine
end

