-- ==== Sys2Proof/Machine/LeapState.lean ====
section
/-!
DEFINITION. The state of LEAP: the associative memory (R357 to R363), resident models, shadows and loads (R395 to R415), jobs and
strands (R366 to R390), lanes (R367 to R370, R391) and lane time (R416 to R424).
-/
namespace Sys2Proof.Machine

/-- An entry of the associative memory with its node slot and payload (R359 to R363). -/
structure Ent where
  value   : Nat
  mask    : Nat
  payload : Nat
  node    : Nat
deriving DecidableEq, Repr

/-- A tree record of an installed copy (R364, R409): root pad, output, RETIRED, FALLBACK. -/
structure Tree where
  size     : Nat
  base     : Nat
  out      : Nat
  retired  : Bool
  fallback : Nat
deriving DecidableEq, Repr

/-- The head block (R387); `w` holds the 256 words in order. -/
structure Head where
  head  : Nat
  outs  : Nat
  trees : Nat
  cnorm : Nat
  base  : List Nat
  bias  : List Nat
  w     : List Nat
deriving DecidableEq, Repr

/-- A copy of a model in an entry region (R405, R409, R411): its number and origin, whether it holds the slot's fallback bundle, and
for each tree its pads, size and base, and the largest number of pads on a path of it (R422). `done` says that its INSTALL is complete, `staged` that it
serves from an activation on (R412), `repair` that it repairs (R413). -/
structure Copy where
  cid     : Nat
  model   : Nat
  bundle  : Nat
  cls     : Nat
  origin  : Nat
  units   : Nat
  entries : Nat
  nodes   : Nat
  isFb    : Bool
  done    : Bool
  staged  : Bool
  repair  : Bool
  trees   : List Tree
  pads    : List (List (Nat × Nat))
  depths  : List Nat
  head    : Head
deriving DecidableEq, Repr

/-- A resident model number (R403): its state code, bundle, class, host pin, the serving copy, the copy that is being installed or waits
for its edge, and when it was last used. `prev` is the copy that served before the latest activation, for samples of earlier epochs (R133); `atEdge` that
its first copy waits for an epoch edge, since an activation emptied it (R412); `repairDue` a repair that waits for another load (R413); `fbWant` a
fallback that waits for its standby, 1 by the active table and 2 by the staged one (R414). -/
structure Model where
  st        : Nat
  bundle    : Nat
  hpin      : Bool
  serving   : Option Nat
  next      : Option Nat
  used      : Nat
  prev      : Option Nat
  atEdge    : Bool
  repairDue : Bool
  fbWant    : Nat
deriving DecidableEq, Repr

/-- A shadow in the bundle store (R402): a resident model's (`model`) or a standby of a table slot (R414). -/
structure Shadow where
  bundle : Nat
  model  : Option Nat
  data   : Bytes
deriving DecidableEq, Repr

/-- The phases of a load (R399 to R405). -/
inductive LoadPh where
  | number | table | space | head | body | fetched | verify | region | install
deriving DecidableEq, Repr

/-- A load, repair or fallback switch in progress: the model number (none for a standby), the class its slot asks for, whether it is
made for a staged image (R412), a repair (R413), or a fallback switch (R414), whether it is fetched from the boot store (R650), the descriptor found, the bytes fetched, and the copy
being installed. `demand` says that it takes a model number once its descriptor is found, `byHost` that a LOAD command asked for it (R404). -/
structure Load where
  lid    : Nat
  bundle : Nat
  model  : Option Nat
  cls    : Option Nat
  staged : Bool
  repair : Bool
  isFb   : Bool
  flash  : Bool
  demand : Bool
  byHost : Bool
  phase  : LoadPh
  addr   : Nat
  len    : Nat
  data   : Bytes
  copy   : Option Nat
deriving DecidableEq, Repr

/-- A strand (R366): `st` 0 undispatched, 1 in context (lane, ctx), 2 complete, 3 must restart on `lane`. The tree and pad in progress,
partial sums, the attempt with its failures (R376), the leaps of the attempt, fallbacks taken, and poison read. -/
structure Strand where
  st       : Nat
  lane     : Nat
  ctx      : Nat
  tree     : Nat
  pad      : Option (Nat × Nat)
  parts    : List Nat
  attempt  : Nat
  chain    : Option (Nat × Nat × Nat)
  chainN   : Nat
  chainLn  : Nat
  detail   : Nat
  leaps    : Nat
  fb       : Nat
  poison   : Bool
deriving DecidableEq, Repr

/-- A Leap job: its copy (0 while a host-issued job waits for its model, R407), bundle, sample's vector, tier (0 RADIO, 1 FLEET, 2 TENANT), view, tag, whether host software issued it, its strands, the leaps of
all attempts, and its STATUS and outputs once it has ended. -/
structure Job where
  jid     : Nat
  cid     : Nat
  bundle  : Nat
  model   : Nat
  cls     : Nat
  tier    : Nat
  view    : Nat
  tag     : Nat
  host    : Bool
  started : Bool
  retried : Bool
  leaps   : Nat
  vec     : Vec
  strands : List Strand
  status  : Option Nat
  y       : List Nat
deriving DecidableEq, Repr

/-- A result kept for a SCORE source (R390). -/
structure Score where
  model  : Nat
  epoch  : Nat
  status : Nat
  y      : List Nat
deriving DecidableEq, Repr

/-- LEAP_BADLOG (R394). -/
structure BadLog where
  kind  : Nat
  lane  : Nat
  model : Nat
  base  : Nat
  tree  : Nat
deriving DecidableEq, Repr

/-- A copy in a lane's code store: the slot's codes and poison bitmap, with one parity bit per code (R367). -/
structure CodeCopy where
  vec    : Vec
  parity : List Bool
deriving DecidableEq, Repr

/-- A lane's S1 (R368, R369): the context its round-robin begins at, the first core cycle in which it may issue again, and the cycle from
which each context is ready. -/
structure LanePipe where
  ptr   : Nat
  free  : Nat
  ready : List (Nat × Nat)
deriving DecidableEq, Repr

/-- LEAP. Entries by index, an unlisted one unused (R362); `code` the code store's copies by lane and context (R367), `pipe` the lanes' S1;
`segPtr` the segments' pointers (R370); `fixes` corrected words that wait for their rewrite (R374); `badValid` LEAP_BADLOG0.VALID; `vt` and `acct` by view and account (R421, R423). -/
structure LeapU where
  laneEn     : Nat
  inj        : List (Nat × Nat)
  code       : List (Nat × List (Nat × CodeCopy))
  pipe       : List (Nat × LanePipe)
  segPtr     : List (Nat × Nat)
  ents       : List (Nat × Ent)
  fixes      : List Nat
  scrubN     : Nat
  scrubAt    : Nat
  scrubLate  : Bool
  badValid   : Bool
  badlog     : Option BadLog
  models     : List (Nat × Model)
  copies     : List Copy
  shadows    : List Shadow
  loads      : List Load
  loadSeq    : Nat
  copySeq    : Nat
  useSeq     : Nat
  quar       : List Nat
  refCode    : Nat
  refModel   : Nat
  refBundle  : Nat
  cmdRefused : Bool
  overcommit : Bool
  jobs       : List Job
  jobSeq     : Nat
  vt         : List (Nat × Nat)
  acct       : List (Nat × Nat)
  scores     : List Score
deriving DecidableEq, Repr

end Sys2Proof.Machine
end

