-- ==== Sys2Proof/Machine/Memory.lean ====
section
/-!
DEFINITION. Stored bytes by address: a list of (address, byte) pairs in one canonical form, addresses strictly rising and no entry equal
to `d`, which is what an unlisted address reads as. The SRAM banks use d = 0 (R101: initialised to zero), the boot store d = 0xFF (an
erased NOR flash).
-/
namespace Sys2Proof.Machine

/-- The byte at address `a`. -/
def memGet (d : Byte) (m : List Host.Cell) (a : Nat) : Byte :=
  match m with
  | [] => d
  | (b, v) :: r => if b = a then v else memGet d r a

/-- Byte `v` stored at address `a`, the canonical form kept. -/
def memSet (d : Byte) (m : List Host.Cell) (a : Nat) (v : Byte) : List Host.Cell :=
  match m with
  | [] => if v = d then [] else [(a, v)]
  | (b, w) :: r =>
    if a < b then (if v = d then (b, w) :: r else (a, v) :: (b, w) :: r)
    else if a = b then (if v = d then r else (a, v) :: r)
    else (b, w) :: memSet d r a v

/-- `n` bytes from address `a`. -/
def memRead (d : Byte) (m : List Host.Cell) (a : Nat) : Nat → Bytes
  | 0 => []
  | n + 1 => memGet d m a :: memRead d m (a + 1) n

/-- A run of bytes stored from address `a` on. -/
def memWrite (d : Byte) (m : List Host.Cell) (a : Nat) : Bytes → List Host.Cell
  | [] => m
  | x :: xs => memWrite d (memSet d m a x) (a + 1) xs

/-- Every byte of [a, a + n) set back to `d`. -/
def memClear (m : List Host.Cell) (a n : Nat) : List Host.Cell :=
  m.filter (fun c => !(decide (a ≤ c.1) && decide (c.1 < a + n)))

/-- The addresses of the list rise strictly from `lo` on, and no entry holds `d`. -/
def memOk (d : Byte) (lo : Nat) : List Host.Cell → Bool
  | [] => true
  | (a, v) :: r => decide (lo ≤ a) && decide (v ≠ d) && memOk d (a + 1) r

/-- The canonical form. -/
def Memory.wf (d : Byte) (m : List Host.Cell) : Bool := memOk d 0 m

end Sys2Proof.Machine
end

