-- ==== Sys2Proof/Machine/RecState.lean ====
section
/-!
DEFINITION. The state of TRC (R504 to R517), ERC (R518 to R529), CMP (R530 to R534) and of the fault FIFO and fail-silence (R568 to R573).
-/
namespace Sys2Proof.Machine

/-! TRC -/

/-- A block of trace packets (R509, R511). `events`, `insns` and `markers` are what its loss would cost; `stored` is what CMP has left
(form, bytes) once the block is ready for the ring. -/
structure TBlock where
  bseq     : Nat
  openAt   : Stamp
  openNs   : Nat
  raw      : Bytes
  events   : Nat
  insns    : Nat
  markers  : Nat
  hasLost  : Bool
  hasPower : Bool
  syncOff  : Nat
  tsOff    : Nat
  zip      : Bool
  ready    : Bool
  lz4      : Bool
  vfail    : Bool
  stored   : Bytes
deriving DecidableEq, Repr

/-- What is on its way to a core's ring: the block (none for a WRAP header) and the value WR takes when it has arrived (R512). -/
structure TFlight where
  block : Option TBlock
  wrTo  : Nat
deriving DecidableEq, Repr

/-- One core input. `base` and `size` are the ring in force; `sizeWait` a write of SIZE that waits for BUSY 0 (R514). -/
structure TCore where
  refAddr  : Nat
  insns    : Nat
  needSync : Bool
  lastTs   : Option Nat
  cur      : Option TBlock
  closed   : List TBlock
  flying   : Option TFlight
  lostEv   : Nat
  lostIns  : Nat
  lostMark : Nat
  pendUp   : Option Stamp
  bseq     : Nat
  base     : Nat
  size     : Nat
  wr       : Nat
  sizeWait : Option Nat
  halt     : Bool
  pwrReq   : Bool
  reqAt    : Nat
  pwrAck   : Bool
deriving DecidableEq, Repr

def coreNone : TCore :=
  ⟨0, 0, true, none, none, [], none, 0, 0, 0, none, 0, 0, 0, 0, none, false, false, 0, false⟩

/-! ERC -/

/-- A histogram entry of R520. -/
structure Histo where
  count   : Nat
  lo      : Nat
  hi      : Nat
  buckets : List Nat
deriving DecidableEq, Repr

/-- The EPOCH body (R519). -/
structure Tally where
  ready    : Histo
  arrival  : Histo
  leap     : Histo
  vqueue   : Histo
  faults   : Nat
  cflags   : Nat
  nmiss    : Nat
  lost     : Nat
  firstLoc : Nat
  lastLoc  : Nat
  caploss  : Nat
  linkerr  : Nat
  hbmiss   : Nat
  sealdrop : Nat
  late     : Nat
  memce    : Nat
  memue    : Nat
  leapf    : Nat
  raised   : Nat
  held     : Nat
  trclost  : Nat
  cmpfail  : Nat
  dropped  : Nat
deriving DecidableEq, Repr

def histoNone : Histo := ⟨0, 0xFFFFFFFF, 0, List.replicate 8 0⟩

def tallyNone : Tally :=
  ⟨histoNone, histoNone, histoNone, histoNone, 0, 0, 0, 0, 0, 0, 0, 0, 0, 0, 0, 0, 0, 0, 0, 0, 0, 0, 0⟩

/-- A host buffer (R527): ARM, BASE and SIZE taken up at the arming, FILL. -/
structure ErcBuf where
  arm  : Bool
  base : Nat
  size : Nat
  fill : Nat
deriving DecidableEq, Repr

/-- A chunk in progress (R526): the records it holds and its bytes once CMP has left them; `power` for qos 0b11. -/
structure Chunk where
  seqs  : List Nat
  power : Bool
  data  : Option Bytes
  sent  : Bool
deriving DecidableEq, Repr

/-- What waits for ERC to reach ON (R48): a record to append, or a flush of a cause with its fault's location. -/
inductive ErcReq where
  | append (kind epoch gen epochs : Nat) (restart tstep : Bool) (body : Bytes)
  | flush (cause loc : Nat)
deriving DecidableEq, Repr

/-- A black-box write (R529): the set, the page being programmed and the pages that follow. -/
structure BbWrite where
  set   : Nat
  page  : Nat
  pages : List Bytes
deriving DecidableEq, Repr

/-- The event recorder. `ring` holds (RSEQ, record) oldest first; `todo` the records that a running flush has still to send; `bbThen` the
pages of a power-fail write that waits for the page being programmed; `frozenStep` that TB0 stepped in a merged epoch; `waits` what waits for ERC
to reach ON; `bbErased` the erased sets not used since and `bbSets` how many this run has erased
(R648). -/
structure Erc where
  ring      : List (Nat × Bytes)
  rseq      : Nat
  flushed   : Nat
  isOver      : Bool
  restart   : Bool
  startDue  : Bool
  scanning  : Bool
  tally     : Tally
  readyCov  : Option Bytes
  freeze    : Bool
  frozen    : Tally
  frozenN   : Nat
  frozenEp  : Nat
  frozenGen : Nat
  frozenStep : Bool
  waits     : List ErcReq
  flushing  : Bool
  power     : Bool
  todo      : List Nat
  chunk     : Option Chunk
  drain     : List (Nat × Nat)
  bufA      : ErcBuf
  bufB      : ErcBuf
  cur       : Bool
  bbWrite   : Option BbWrite
  bbThen    : Option (List Bytes)
  bbNext    : Nat
  bbErased  : List Nat
  bbSets    : Nat
  bbLast    : Option Nat
deriving DecidableEq, Repr

/-! CMP -/

/-- Whose block CMP works on (R534, in the order of service). -/
inductive ZipOwner where
  | ercPower | trc (core : Nat) | prof | erc
deriving DecidableEq, Repr

structure ZipJob where
  owner : ZipOwner
  raw   : Bytes
deriving DecidableEq, Repr

/-- The compression engine: waiting blocks, failures since the last power-on reset, DISABLED, and the bytes not yet counted as KiB. `parts`
collects the chunks of the profile buffer in progress. -/
structure Cmp where
  queue    : List ZipJob
  fails    : Nat
  disabled : Bool
  inRest   : Nat
  outRest  : Nat
  parts    : Bytes
deriving DecidableEq, Repr

/-! Faults -/

/-- A fault record (R568). -/
structure FaultRec where
  loc   : Nat
  epoch : Nat
  stamp : Stamp
  cause : Nat
  sev   : Nat
  fseq  : Nat
deriving DecidableEq, Repr

/-- The fault FIFO, MCU_FLT_ENT, and fail-silence (R570 to R573); `service` the TB2 ns of the warden's last completed epoch service,
`fetches` the TB2 ns of the last uncorrectable warden fetch of each 4 KiB page (R562). -/
structure Flt where
  fifo    : List FaultRec
  fseq    : Nat
  ent     : Option FaultRec
  active  : Bool
  cause   : Nat
  service : Nat
  fetches : List (Nat × Nat)
deriving DecidableEq, Repr

end Sys2Proof.Machine
end

