-- ==== Sys2Proof/Machine/MemState.lean ====
section
/-!
DEFINITION. The state of MEM (R538 to R567) and of the boot store, the settings and the field update (R646 to R680).
-/
namespace Sys2Proof.Machine

/-- A merge-buffer entry (R554): code-word index, the bytes written (none: not valid), and the core cycle of its first write. -/
structure MergeEnt where
  idx   : Nat
  bytes : List (Option Byte)
  since : Nat
deriving DecidableEq, Repr

/-- One bank: its merge buffer oldest first, corrections per macro in the current pass, the erased macro (R552), the scrub's next index, the
words that wait for a scrub write-back (R558), uncorrectable words that wait to be rewritten poisoned (R562), passes completed and the
TB2 time in ns, times the bank's words, at which the next word is due. -/
structure Bank where
  merge    : List MergeEnt
  counts   : List (Nat × Nat)
  erased   : Option Nat
  scrub    : Nat
  fix      : List Nat
  rewrite  : List Nat
  passes   : Nat
  dueAt    : Nat
deriving DecidableEq, Repr

def bankNone : Bank := ⟨[], [], none, 0, [], [], 0, 0⟩

/-- MEM_INJ (R566, R567). -/
structure Inj where
  arm   : Bool
  two   : Bool
  bank  : Nat
  mac   : Nat
  mag   : Nat
deriving DecidableEq, Repr

/-- MEM. `sram` holds the stored symbols: symbol j of code word i of bank b at address (b × words + i) × 19 + j, in the canonical form of
Machine/Memory.lean with 0 unlisted. -/
structure Mem where
  sram   : List Host.Cell
  banks  : List Bank
  late   : Bool
  lastCe : Nat
  lastUe : Nat
  inj    : Inj
deriving DecidableEq, Repr

/-- A settings record in force (R651). -/
structure Settings where
  sseq      : Nat
  fwSlot    : Nat
  imgSlot   : Nat
  packSlot  : Nat
  trial     : Nat
  bbBank    : Nat
  flash     : Nat
  fallbacks : Nat
deriving DecidableEq, Repr

/-- What follows the completion of a settings write. -/
inductive AfterWrite where
  | idle
  | restart (fallback : Bool)
deriving DecidableEq, Repr

/-- The boot-store command in progress (R666). -/
structure BstCmd where
  op   : Nat
  addr : Nat
  len  : Nat
deriving DecidableEq, Repr

/-- Boot store, settings, firmware and trials. `store` is the flash in canonical form with 0xFF unlisted; `copy` the sector that holds the
settings in force; `want` the record that a settings write in progress programs; `st` SVC_BOOT_STAT.STATE; `phase` the phase of R659;
`triedImg` whether start-up has tried the first image slot; `trialAt` the slow cycle of a trial's beginning, `switching` a firmware switch whose restart
is under way, `sentLimit` the LIMIT at the trial's first record, `credits` and `snapSince` what R676 asks for. -/
structure Boot where
  store     : List Host.Cell
  cur       : Settings
  copy      : Nat
  want      : Option Settings
  after     : AfterWrite
  st        : Nat
  phase     : Nat
  triedImg  : Bool
  fwVer     : Nat
  reset     : Bool
  skew      : Bool
  bbSkipped : Bool
  trialAt   : Nat
  switching : Bool
  sentLimit : Option Nat
  credits   : Bool
  snapSince : Bool
  schedHi   : Nat
  schedSlot : Nat
  arm       : Bool
  refused   : Bool
  cmd       : Option BstCmd
  result    : Nat
  detail    : Nat
  conflict  : Bool
  packWant  : Option Nat
  svcOut    : List Nat
deriving DecidableEq, Repr

end Sys2Proof.Machine
end

