-- ==== Sys2Proof/Machine/VrdState.lean ====
section
/-!
DEFINITION. The state of VRD (R426 to R452), of buddies and mirrors (R579 to R589) and of the tray panel (R590 to R600).
-/
namespace Sys2Proof.Machine

/-- A verdict record (R437). `score` and `limit` are F64 words, `ovf` the subjects of an overflow entry. -/
structure Verdict where
  vseq    : Nat
  cls     : Nat
  orig    : Nat
  reason  : Nat
  quorum  : Bool
  isOver    : Bool
  part    : Bool
  rebuilt : Bool
  epoch   : Nat
  subject : Nat
  issuer  : Nat
  gen     : Nat
  det     : Nat
  dkind   : Nat
  hits    : Nat
  count   : Nat
  score   : Nat
  limit   : Nat
  job     : Nat
  jgen    : Nat
  step    : Nat
  value   : Nat
  ref     : Nat
  decider : Nat
  ovf     : List Nat
deriving DecidableEq, Repr

/-- An entry of the verdict queue: the TB0 ns of its entry, the port it came from (none: own), whether it holds a reserved entry (R439), and
whether it may leave: an EXPEL that waits for a vote (R448, R452) may not; `voting` its open vote. -/
structure VEntry where
  v        : Verdict
  at0      : Nat
  port     : Option Nat
  reserved : Bool
  ready    : Bool
  voting   : Option Nat
deriving DecidableEq, Repr

/-- An open vote (R452): its VID, YES votes, members that have answered, the members, and its deadline on TB0 in ns. -/
structure Vote where
  vid      : Nat
  yes      : Nat
  answered : List Nat
  members  : List Nat
  deadline : Nat
deriving DecidableEq, Repr

/-- A row of the straggler table (R435): leaf, map, the order of its last set bit. -/
structure TrackRow where
  leaf : Nat
  map  : Nat
  mark : Nat
deriving DecidableEq, Repr

/-- A detector entry's state (R429, R431, R435): F64 words, `w` the warm-up count, `warmup` its length where a rebuild sets it (R589). -/
structure Det where
  m      : Nat
  v      : Nat
  sp     : Nat
  sn     : Nat
  u      : Nat
  w      : Nat
  warmup : Option Nat
  win    : Nat
  raised : List (Nat × Nat)
  job    : Nat
  jgen   : Nat
  sl     : List Nat
  rows   : List TrackRow
  marks  : Nat
deriving DecidableEq, Repr

/-- A detector pass that is due (R428): its epoch, whether the DOWN record that R280 allows had been accepted, and whether the own-baseline detectors
have run (R29). -/
structure PassDue where
  epoch  : Nat
  downOk : Bool
  based  : Bool
deriving DecidableEq, Repr

/-- The verdict unit. Levels in ns with the TB2 ns of their last update (R448); the ring of R447 with the verdicts that wait for it; `hHeld` the low
word of VRD_DET_H held (R457); `due` the epochs whose detector pass is due, each with whether the DOWN record of R280 had been accepted by its end. -/
structure VrdU where
  dets     : List Det
  due      : List PassDue
  seq      : Nat
  queue    : List VEntry
  isOver     : List VEntry
  overflow : Bool
  peerGap  : Bool
  gapRun   : Nat
  gapNoted : Bool
  sentNow  : Nat
  kept     : List (Nat × Verdict)
  keys     : List (Nat × Nat × Nat)
  spLevel  : Nat
  spAt     : Nat
  domeLevel : Nat
  /-- Costs that the levels' registers are read with while no image is active (R101). -/
  spUnit    : Nat
  domeUnit  : Nat
  domeAt   : Nat
  votes    : List Vote
  vid      : Nat
  ringWr   : Nat
  ringSeq  : Nat
  ringQ    : List Verdict
  flying   : Option Verdict
  hHeld    : Option (Nat × Nat)
  vmask    : List (Nat × Nat)
deriving DecidableEq, Repr

/-- A mirror of another node (R583): NODE and the block. -/
structure Mirror where
  node  : Nat
  epoch : Nat
  gen   : Nat
  stamp : Nat
  data  : Bytes
deriving DecidableEq, Repr

/-- MCU_MIR_STAT.SYNC with what it waits for (R585 to R589): 0 NONE, 1 REQUESTED, 2 RECEIVING, 3 SYNCED, 4 FRESH, 5 REBUILDING, 6 REBUILT. `apply`
is a SYNC_DATA that waits for the epoch edge; `askedAt` the TB0 ns of the SYNC_REQ; `decided` no longer publishes REBUILDING. -/
structure MirU where
  sync      : Nat
  abandoned : Bool
  held      : List Mirror
  apply     : Option Bytes
  askedAt   : Nat
  fails     : Nat
  left      : Nat
  decided   : Bool
deriving DecidableEq, Repr

/-- A panel event (R590). -/
structure PnlEvt where
  input : Nat
  level : Bool
  seq   : Nat
  stamp : Stamp
deriving DecidableEq, Repr

/-- The tray panel (R589 to R600): settled levels, events, the departure's state 0 IDLE, 1 REQUESTED, 2 GRANTED, 3 SAFE with e_D, its cause, the
epoch of the last REQUEST, the slow cycle of the press, and whether it has acted as a long press. -/
structure PnlU where
  btn     : Nat
  plug    : Nat
  evts    : List PnlEvt
  seq     : Nat
  evtOut  : List (Requester × PnlEvt)
  pulled  : Nat
  dep     : Nat
  eD      : Nat
  cause   : Nat
  askedAt : Nat
  press   : Option Nat
  long    : Bool
  rejoin  : Option Nat
deriving DecidableEq, Repr

end Sys2Proof.Machine
end

