-- ==== Sys2Proof/Machine/State.lean ====
section
/-!
DEFINITION. The state of the block: plain data, one structure for each unit, the queue of commands that wait, and the state right after
a power-on reset (R101, R103) with every field at the value the manual gives or the assumption log names.
-/
namespace Sys2Proof.Machine

/-- Why a step can stop with a fault: it never does, since every command of the block runs. -/
inductive Fault where
deriving DecidableEq, Repr

/-- Why a command has no meaning. -/
inductive Refusal where
  /-- Raised by the dispatcher for a command that is not modelled. Safe: nothing is claimed about it. -/
  | notModelled (mnemonic : String)
deriving DecidableEq, Repr

/-- The block's state. `rc` holds the read-to-clear counters and `rw` the plain read/write registers by name, each at its reset value where
it is not listed; `adj` holds the value still in force of an adjustment register written in this epoch (R134, R135). -/
structure State where
  integ     : Integ
  pending   : List Instr
  bus       : Bus
  pow       : List UnitPow
  rst       : Rst
  mm        : Mm
  rc        : List (RcReg × Nat)
  rw        : List (RwReg × Nat)
  adj       : List (RwReg × Nat)
  time      : TimeU
  cap       : CapU
  feat      : FeatU
  leap      : LeapU
  img       : ImgU
  red       : RedU
  sealing   : SealU
  vrd       : VrdU
  ilk       : Ilk
  mir       : MirU
  pnl       : PnlU
  host      : HostU
  trc       : List TCore
  erc       : Erc
  cmp       : Cmp
  flt       : Flt
  mem       : Mem
  boot      : Boot
  freeDraws : Nat
deriving DecidableEq, Repr

/-! The state right after a power-on reset (R101), for any integration and boot-store contents -/

/-- Power of the unit with code `u`: TIME, CAP, ILK, MBX and SVC are ON (R46, R681); MEM, MCU, DMA and ERC have raised their requests at
step 3 of R103 (R51); every other unit is OFF. -/
def initPow (u : Nat) : UnitPow :=
  if u = 8 ∨ u = 1 ∨ u = 7 ∨ u = 15 ∨ u = 17 then ⟨.on, true, false, false, 3, 0, 3, none, false⟩
  else if u = 12 ∨ u = 14 ∨ u = 13 ∨ u = 10 then ⟨.off, true, false, true, 3, 0, 3, some 0, false⟩
  else ⟨.off, false, false, true, 3, 0, 3, none, false⟩

/-- A time base with its counting cleared; STEP_ARMED is 1 except in TB2 (R154). -/
def initBase (n : Nat) : Base := ⟨0, 0, 0, [], [], n != 2, 0, 0, 0, false, none⟩

def initTime (g : Integ) : TimeU :=
  { c := 0, bases := (List.range (Config.timeBases g)).map initBase,
    grid := ⟨.waiting, false, gridOrigin * 10 ^ 9, 0, 0, 0, 0, false, false⟩,
    fifo := [], seqs := [], lostIn := [], strobes := List.replicate (Config.capInputs g) ⟨false, false, none⟩, ppsHigh := false, ppsSec := 0 }

def initCap : CapU :=
  { strobe := 0, restart := true, join := false, poisoned := false, lanes := [], engines := [], optab := [], other := none, slots := List.replicate 8 slotNone,
    marks := 0, table := [], rings := [], ringEp := [], groups := [], memStacks := [], sensors := [], links := [], loss := List.replicate 8 0,
    rawSns := [], rawEcc := [], rawStep := [], frozen := [], prof := ⟨0, 0, none, [], 0, 0, false, [], false, 0, false⟩ }

def initFeat : FeatU :=
  { queue := [], cur := none, slots := [], state := [], lastEp := none, evSeq := 0, latest := none, lastSat := none, badState := [], prevState := [], prevBad := [] }

def initLeap (g : Integ) : LeapU :=
  { laneEn := 2 ^ g.lanes - 1, inj := [], code := [], pipe := [], segPtr := [], ents := [], fixes := [], scrubN := 0, scrubAt := 0, scrubLate := false,
    badValid := false, badlog := none, models := [], copies := [], shadows := [], loads := [], loadSeq := 0, copySeq := 0, useSeq := 0, quar := [], refCode := 0,
    refModel := 0, refBundle := 0, cmdRefused := false, overcommit := false, jobs := [], jobSeq := 0, vt := [], acct := [], scores := [] }

def initImg : ImgU :=
  { st := .idle, reject := 0, detail := 0, busy := false, mismatch := false, adjDrop := false, adjReject := false, lateAct := false,
    refused := false, slot := 0, loading := none, staged := none, active := none, old := none, oldRegs := [], featDue := [], detDue := false, gen := 0, genPrev := 0,
    eA := 0, hasAct := false, lastEA := none, nextIsEA := false, sched := none, outcome := 0, reached := 0, switched := 0 }

def initRed : RedU :=
  { sels := List.replicate 4 none, selPend := [], selHist := [], unsent := [], own := [], lastForm := false, downs := [] }

def initSeal : SealU :=
  { works := [], lates := [], expects := [], top := none, ready := [], merged := [], snapSeq := 0, snapNext := 0, skipped := false, prevEp := none,
    writes := [], departs := [], grants := [] }

def initVrd : VrdU :=
  { dets := [], due := [], seq := 0, queue := [], isOver := [], overflow := false, peerGap := false, gapRun := 0, gapNoted := false, sentNow := 0,
    kept := [], keys := [], spLevel := 0, spAt := 0, domeLevel := 0, domeAt := 0, spUnit := 0, domeUnit := 0, votes := [], vid := 0, ringWr := 0, ringSeq := 0,
    ringQ := [], flying := none, hHeld := none, vmask := [] }

def initIlk : Ilk :=
  { ports := [], held := [], active := 2, failovers := 0, lostUp := none, resendTop := none, gates := [], gatesNext := [], gatesAt := 0, bcid := 0, actid := 0, selIds := [], bcasts := [],
    result := ⟨0, false, false, false, 0, 0, 0, 0, [], false⟩ }

def initErc : Erc :=
  { ring := [], rseq := 0, flushed := 0, isOver := false, restart := true, startDue := true, scanning := false, tally := tallyNone,
    readyCov := none, freeze := false, frozen := tallyNone, frozenN := 0, frozenEp := 0, frozenGen := 0, frozenStep := false, waits := [], flushing := false, power := false,
    todo := [], chunk := none, drain := [], bufA := ⟨false, 0, 0, 0⟩, bufB := ⟨false, 0, 0, 0⟩, cur := false, bbWrite := none, bbThen := none,
    bbNext := 1, bbErased := [], bbSets := 0, bbLast := none }

def initPnl : PnlU :=
  { btn := 0, plug := 0, evts := [], seq := 0, evtOut := [], pulled := 0, dep := 0, eD := 0, cause := 0, askedAt := 0, press := none, long := false,
    rejoin := none }

/-- The settings of R651 at their defaults. -/
def settingsDefault (g : Integ) : Settings := ⟨1, 0, 0, 0, 0, 0, Config.byClass g 0x03022000 0x13122104, 0⟩

def initBoot (g : Integ) (store : List Host.Cell) : Boot :=
  { store := store, cur := { settingsDefault g with flash := 0 }, copy := 0, want := none, after := .idle, st := 0, phase := 1,
    triedImg := false, fwVer := 0, reset := false, skew := false, bbSkipped := false, trialAt := 0, switching := false, sentLimit := none, credits := false,
    snapSince := false, schedHi := 0, schedSlot := 0, arm := false, refused := false, cmd := none, result := 0, detail := 0, conflict := false,
    packWant := none, svcOut := [] }

/-- The block right after a power-on reset: steps 1 to 3 of R103 are over, SRAM initialisation waits for MEM's power. -/
def State.initial (g : Integ) (p : Straps) (store : List Host.Cell) : State :=
  { integ := g, pending := [], bus := ⟨[], none, [], []⟩, pow := (List.range 18).map (fun i => initPow (i + 1)),
    rst := { serial := p.serial, pkg := p.pkg, die := p.die, key := 0, keyState := 0, por := true, warm := false, pfw := false,
             fallback := false, step := 4, warn := false, flushA := false, flushB := false, flushC := false, selftest := 0,
             failWdn := false, failBank := 0 },
    mm := ⟨[], [], 0, 0, 0, []⟩, rc := [], rw := [], adj := [], time := initTime g, cap := initCap, feat := initFeat, leap := initLeap g,
    img := initImg, red := initRed, sealing := initSeal, vrd := initVrd, ilk := initIlk, mir := ⟨0, false, [], none, 0, 0, 0, false⟩,
    pnl := initPnl,
    host := ⟨[], [], 0, 0, 0, 0, 0, [], [], 0, 0, 0⟩, trc := List.replicate g.traces coreNone, erc := initErc,
    cmp := ⟨[], 0, false, 0, 0, []⟩, flt := ⟨[], 0, none, false, 0, 0, []⟩,
    mem := ⟨[], List.replicate (Config.banks g) bankNone, false, 0, 0, ⟨false, false, 0, 0, 0⟩⟩, boot := initBoot g store, freeDraws := 0 }

/-- The machine right after reset: a power-on reset of a NEWT-S at its defaults, straps 0, with an erased boot store. -/
def State.reset : State := State.initial Config.newtDefault ⟨0, 0, 0⟩ []

end Sys2Proof.Machine
end

