-- ==== Sys2Proof/Machine/Ops.lean ====
section
/-!
DEFINITION. The named operations over the state that every command family uses: counters and plain registers by name, the instants of the
clocks (R38) and of fleet time (R146), unit power on a request (R45, R48), locations (R34), and the memory master port (R59 to R64,
R235 to R237).
-/
namespace Sys2Proof.Machine

/-! Tables by name -/

/-- The value at key `k` of an association list. -/
def aget [BEq κ] (t : List (κ × α)) (k : κ) : Option α := (t.find? (fun p => p.1 == k)).map (·.2)

/-- Key `k` set to `v`, in place or at the end. -/
def aset [BEq κ] (t : List (κ × α)) (k : κ) (v : α) : List (κ × α) :=
  match t with
  | [] => [(k, v)]
  | (j, w) :: r => if j == k then (k, v) :: r else (j, w) :: aset r k v

/-- Key `k` removed. -/
def adel [BEq κ] (t : List (κ × α)) (k : κ) : List (κ × α) := t.filter (fun p => !(p.1 == k))

/-! Counters (R18, R20) -/

/-- The share of a counter's increment that the recorder's EPOCH body sums (R519); ERC observes the increment itself. -/
def tallyRc (r : RcReg) (n : Nat) (t : Tally) : Tally :=
  match r with
  | .ilk _ .lost => { t with lost := satAdd 16 t.lost n }
  | .ilk _ .rxErr | .ilk _ .lenBad | .ilk _ .verBad | .ilk _ .typeBad | .ilk _ .pcrcBad | .ilk _ .peerBad | .ilk _ .segBad
  | .ilk _ .creditOvr => { t with linkerr := add32 t.linkerr n }
  | .ilk _ .hbMiss => { t with hbmiss := add32 t.hbmiss n }
  | .sealStaleDrop | .sealGenDrop | .sealTagBad | .sealDupDrop | .sealAdoptBad | .sealAdoptConflict =>
    { t with sealdrop := add32 t.sealdrop n }
  | .sealLate => { t with late := add32 t.late n }
  | .memCe => { t with memce := add32 t.memce n }
  | .memUe => { t with memue := satAdd 16 t.memue n }
  | .leapTransient | .leapPermanent | .leapLaneFault => { t with leapf := satAdd 16 t.leapf n }
  | .vrdRaised => { t with raised := satAdd 16 t.raised n }
  | .vrdHeld => { t with held := satAdd 16 t.held n }
  | .trcLost _ => { t with trclost := add32 t.trclost n }
  | .cmpVerifyFail => { t with cmpfail := satAdd 16 t.cmpfail n }
  | _ => t

/-- A counter's value. -/
def rcGet (s : State) (r : RcReg) : Nat := (aget s.rc r).getD 0

/-- A counter counts `n`, saturating (R18). -/
def rcAdd (s : State) (r : RcReg) (n : Nat) : State :=
  if n = 0 then s
  else { s with rc := aset s.rc r (add32 (rcGet s r) n), erc := { s.erc with tally := tallyRc r n s.erc.tally } }

/-- A counter counts one. -/
def rcInc (s : State) (r : RcReg) : State := rcAdd s r 1

/-- A counter that holds a maximum (FEAT_BUF_HWM). -/
def rcMax (s : State) (r : RcReg) (v : Nat) : State :=
  if rcGet s r < v then { s with rc := aset s.rc r (min v 0xFFFFFFFF) } else s

/-- A counter clears (RC). -/
def rcClear (s : State) (r : RcReg) : State := { s with rc := adel s.rc r }

/-! Plain registers -/

/-- A plain register's value: the last one written, or its reset value. -/
def rwGet (s : State) (r : RwReg) : Nat := (aget s.rw r).getD (rwReset r)

/-- A plain register set. -/
def rwSet (s : State) (r : RwReg) (v : Nat) : State := { s with rw := aset s.rw r v }

/-- The value in force: for an adjustment register written in this epoch, the one from before the writes (R134, R135). -/
def rwEff (s : State) (r : RwReg) : Nat := (aget s.adj r).getD (rwGet s r)

/-- A base address from a pair of words. -/
def pairBase (s : State) (r : Bool → RwReg) : Nat := rwGet s (r false) + rwGet s (r true) * 2 ^ 32

/-! Clocks (R38): every clock's cycle count follows from clk_time_i's -/

def coreCycle (s : State) : Nat := s.time.c * s.integ.coreMHz / 1000
def hostCycle (s : State) : Nat := s.time.c * s.integ.hostMHz / 1000
def slowCycle (s : State) : Nat := s.time.c * 32768 / 10 ^ 9

/-- The counter moved on to `n` ns where it has not passed it. -/
def advanceTo (s : State) (n : Nat) : State := { s with time := { s.time with c := max s.time.c n } }

/-! Time bases (R146, R148, R149) -/

/-- The modulus of a base's value in units of 2^-44 ns. -/
def fineMod : Nat := 2 ^ 64 * 10 ^ 9 * 2 ^ 44

/-- A base's value at counter value `c` in units of 2^-44 ns; below 0 it wraps (log entry 137). -/
def baseFine (b : Base) (c : Nat) : Nat := ((b.off + (c : Int) * (2 ^ 44 + b.rate)) % (fineMod : Int)).toNat

/-- A base's value in ns, truncated. -/
def baseNs (b : Base) (c : Nat) : Nat := baseFine b c / 2 ^ 44

/-- A stamp of a value in ns. -/
def stampNs (n : Nat) : Stamp := ⟨n / 10 ^ 9 % 2 ^ 48, n % 10 ^ 9⟩

def zeroBase : Base := ⟨0, 0, 0, [], [], true, 0, 0, 0, false, none⟩

/-- Base `n`. -/
def baseAt (s : State) (n : Nat) : Base := s.time.bases.getD n zeroBase

/-- TB0 now, in ns. -/
def tb0Ns (s : State) : Nat := baseNs (baseAt s 0) s.time.c

/-- TB0 now in units of 2^-10 ns, the unit of grid edges. -/
def tb0Tick (s : State) : Nat := baseFine (baseAt s 0) s.time.c / 2 ^ 34

/-- TB0 now as a stamp. -/
def tb0Stamp (s : State) : Stamp := stampNs (tb0Ns s)

/-- TB2 now in ns: the counter itself where the class has no TB2. -/
def tb2Ns (s : State) : Nat := if 2 < s.time.bases.length then baseNs (baseAt s 2) s.time.c else s.time.c

/-- The first counter value at which a base reads `fine` or more, in units of 2^-44 ns. -/
def firstCount (b : Base) (fine : Nat) : Nat :=
  let step : Int := 2 ^ 44 + b.rate
  (((fine : Int) - b.off + step - 1) / step).toNat

/-- The counter moved on to the first count at which TB0 reads at least `ns`. -/
def advanceTb0 (s : State) (ns : Nat) : State := advanceTo s (firstCount (baseAt s 0) (ns * 2 ^ 44))

/-- The counter moved on to the first count at which TB0 reads at least `tick` units of 2^-10 ns. -/
def advanceTick (s : State) (tick : Int) : State := advanceTo s (firstCount (baseAt s 0) (tick.toNat * 2 ^ 34))

/-- The same for TB2, in ns. -/
def advanceTb2 (s : State) (ns : Nat) : State :=
  advanceTo s (if 2 < s.time.bases.length then firstCount (baseAt s 2) (ns * 2 ^ 44) else ns)

/-- The counter moved on to the first count of slow cycle `n`. -/
def advanceSlow (s : State) (n : Nat) : State := advanceTo s (ceilDiv (n * 10 ^ 9) 32768)

/-- The counter moved on to the first count of core cycle `n`. -/
def advanceCore (s : State) (n : Nat) : State := advanceTo s (ceilDiv (n * 1000) s.integ.coreMHz)

/-! Epoch grid -/

/-- TB0 of the edge that begins epoch `x`, in units of 2^-10 ns (R160, R161), on the earlier length before an anchor that R166 moved. -/
def edgeTick (g : Grid) (x : Nat) : Int :=
  ((g.anchor * 1024 : Nat) : Int) + ((x : Int) - (g.anchorE : Int)) * (epochTicks (if x < g.anchorE then g.eOld else g.e) : Int)

/-- TB0 of the edge that begins epoch `x` in ns, truncated. -/
def edgeNs (g : Grid) (x : Nat) : Int := edgeTick g x / 1024

/-- The stamp of the edge that begins epoch `x`. -/
def edgeStamp (g : Grid) (x : Nat) : Stamp := stampNs (edgeNs g x).toNat

/-- TB0 now minus END of epoch `x` (the edge that begins x + 1), in ns, 0 before it. -/
def sinceEnd (s : State) (x : Nat) : Nat := (((tb0Tick s : Int) - edgeTick s.time.grid (x + 1)) / 1024).toNat

/-- The epoch in progress, 0 while the grid is WAITING. -/
def epochNow (s : State) : Nat := if s.time.grid.st == .waiting then 0 else s.time.grid.epoch

/-- The grid is RUNNING. -/
def gridRuns (s : State) : Bool := s.time.grid.st == .running

/-! The active image -/

def hasImage (s : State) : Bool := s.img.active.isSome

/-- ROLE (R12): 0 with no image. -/
def roleOf (s : State) : Nat := (s.img.active.map (·.role)).getD 0

/-- The node's height. -/
def nodeH (s : State) : Nat := (s.img.active.map (·.node.h)).getD 0

/-- The node's ID. -/
def nodeId (s : State) : Nat := (s.img.active.map (·.nodeId)).getD 0

/-- The generation in force at epoch `x` (R124, R126), one already scheduled for a coming edge included. -/
def genAt (s : State) (x : Nat) : Nat :=
  let now := if s.img.hasAct && decide (x < s.img.eA) then s.img.genPrev else s.img.gen
  match s.img.sched with
  | some k => if k.actAt ≤ x then k.gen else now
  | none => now

/-- An adjustment register's value for work on epoch `x`: the old image's before e_A, while R136 holds it (R133). -/
def rwFor (s : State) (x : Nat) (r : RwReg) : Nat :=
  if s.img.hasAct && decide (x < s.img.eA) && s.img.old.isSome then (aget s.img.oldRegs r).getD (rwReset r) else rwEff s r

/-! Locations (R34, R35) -/

/-- The location word of a place in this block. -/
def locWord (s : State) (depth unit slice mac cell : Nat) : Nat :=
  s.rst.pkg * 2 ^ 56 + s.rst.die * 2 ^ 48 + depth * 2 ^ 45 + (if 5 ≤ depth then 0 else unit) * 2 ^ 40 +
  (if 4 ≤ depth then 0 else slice) * 2 ^ 32 + (if 3 ≤ depth then 0 else mac) * 2 ^ 24 + (if 2 ≤ depth then 0 else cell)

/-! Unit power (R45 to R51, R681). Unit codes as R37 -/

/-- TIME, CAP, ILK, MBX and SVC (R46). -/
def alwaysOn (u : Nat) : Bool := u == 8 || u == 1 || u == 7 || u == 15 || u == 17

/-- MEM, MCU, DMA and ERC (R51). -/
def coreUnit (u : Nat) : Bool := u == 12 || u == 14 || u == 13 || u == 10

def unitDefault : UnitPow := ⟨.off, false, false, true, 3, 0, 3, none, false⟩

/-- The power of the unit with code `u`. -/
def powOf (s : State) (u : Nat) : UnitPow := s.pow.getD (u - 1) unitDefault

/-- Unit `u` changed. -/
def modPow (s : State) (u : Nat) (f : UnitPow → UnitPow) : State := { s with pow := s.pow.modify (u - 1) f }

/-- A unit raises its power request (R94). -/
def raiseReq (c : Nat) (p : UnitPow) : UnitPow :=
  if p.req then p else { p with req := true, reqAt := some c, late := false }

/-- A request reaches a unit: GATED becomes ON in a cycle; RET asks for its switch and waits (R45, R48, R94). -/
def touchPow (c : Nat) (p : UnitPow) : UnitPow :=
  match p.st with
  | .gated => { p with st := .on }
  | .ret => raiseReq c p
  | _ => p

/-- A request reaches unit `u`. -/
def touch (s : State) (u : Nat) : State := modPow s u (touchPow s.time.c)

/-- The unit keeps its registers' writes waiting: it is in RET or OFF (R49). -/
def asleep (s : State) (u : Nat) : Bool :=
  match (powOf s u).st with
  | .ret | .off => true
  | _ => false

/-- Work that is due in unit `u` is done while the unit is ON; else the unit is asked to wake and the work stays due (R48). -/
def whenOn (s : State) (u : Nat) (work : State → State) : State :=
  let t := touch s u
  if asleep t u then t else work t

/-- A request from outside for unit `u` is served, or waits for the unit to reach ON (R48). -/
def awaitUnit (s : State) (u : Nat) (i : Instr) (serve : State → State) : State :=
  let t := touch s u
  if asleep t u && (powOf t u).req then { t with bus := { t.bus with deferred := t.bus.deferred ++ [(u, .command i)] } } else serve t

/-- MEM, DMA, ERC and MCU have reached ON (R51). -/
def coreUp (s : State) : Bool := !asleep s 12 && !asleep s 14 && !asleep s 13 && !asleep s 10

/-! Interrupts and quiet -/

/-- Start-up has reached the register port (R103 step 3) with nothing but SVC answering before step 6 (R104). -/
def earlyStart (s : State) : Bool := decide (s.rst.step < 6)

/-- Every output but the register port's, the service port's, TIME's, and the boot store's is quiet: fail-silent (R97), RECOVERY (R663), no
image (R662) or steps 3 to 5 (R104). -/
def quiet (s : State) : Bool := s.flt.active || decide (s.rst.step < 6) || s.boot.st == 5

/-- The mm_ port issues nothing new (R97, R104, R662). -/
def mmQuiet (s : State) : Bool := quiet s || !hasImage s

/-! Memory master port -/

/-- A job that belongs to `o`. -/
def mmJobOf (s : State) (o : MmOwner) : Option MmJob := s.mm.jobs.find? (fun j => j.owner == o)

/-- A write of `b` to host memory at `a` begins for owner `o`. -/
def mmWriteJob (s : State) (o : MmOwner) (qos chan a : Nat) (b : Bytes) : State :=
  { s with mm := { s.mm with jobs := s.mm.jobs ++ [⟨o, true, qos, chan, a, b.length, b, 0, 0, 0⟩] } }

/-- A read of `n` bytes of host memory at `a` begins for owner `o`. -/
def mmReadJob (s : State) (o : MmOwner) (qos chan a n : Nat) : State :=
  { s with mm := { s.mm with jobs := s.mm.jobs ++ [⟨o, false, qos, chan, a, n, zeros n, 0, 0, 0⟩] } }

/-- Bytes of a job's next burst: at most 16 beats of 32 bytes, not across a 4 KiB boundary (R59, R60). -/
def burstBytes (j : MmJob) : Nat :=
  let p := j.addr + j.issued
  let start := p / 32 * 32
  min (j.addr + j.len) (min (start + 512) ((p / 4096 + 1) * 4096)) - p

/-- Beats of a burst of `n` bytes from address `p`. -/
def burstBeats (p n : Nat) : Nat := ceilDiv (p + n - p / 32 * 32) 32

/-- The lowest free tag (R60). -/
def freeTag (m : Mm) : Option Nat := (List.range 64).find? (fun t => (lookup m.tags t).isNone)

/-- The observation bucket brought up to the host cycle `h` (R235). -/
def fillBucket (cap h : Nat) (m : Mm) : Mm := { m with bucket := min 16000 (m.bucket + cap * (h - m.bucketH)), bucketH := max h m.bucketH }

/-- A job has a burst to issue: bytes left, no error, its channel not halted (R64). -/
def wantsBurst (m : Mm) (j : MmJob) : Bool := decide (j.issued < j.len) && j.err == 0 && (lookup m.halted j.chan).isNone

/-- Order of arbitration: classes that never wait first, then observation in round-robin order of channel (R237), which `hold` keeps back. -/
def pickJob (hold : Bool) (m : Mm) : Option MmJob :=
  match m.jobs.find? (fun j => wantsBurst m j && j.qos != 0) with
  | some j => some j
  | none =>
    let obs := m.jobs.filter (fun j => wantsBurst m j && j.qos == 0 && !hold)
    (sortBy (fun j => (j.chan + 32 - m.lastObs - 1) % 32) obs).head?

/-- One burst issued where the port has a tag and, for observation, the tokens (R60, R235). -/
def issueOne (hold : Bool) (m : Mm) : Option Mm :=
  match pickJob hold m, freeTag m with
  | some j, some t =>
    let n := burstBytes j
    let p := j.addr + j.issued
    let beats := burstBeats p n
    if j.qos = 0 ∧ m.bucket < 1000 * beats then none
    else some { m with
      jobs := m.jobs.map (fun k => if k.owner == j.owner then { k with issued := k.issued + n, left := k.left + n } else k),
      tags := setKey m.tags t ⟨j.owner, j.write, j.qos, p / 32 * 32, beats, j.issued, 0⟩,
      bucket := if j.qos = 0 then m.bucket - 1000 * beats else m.bucket,
      lastObs := if j.qos = 0 then j.chan else m.lastObs }
  | _, _ => none

/-- Bursts issued as long as one can be, at most `n`. -/
def issueAll (hold : Bool) : Nat → Mm → Mm
  | 0, m => m
  | n + 1, m =>
    match issueOne hold m with
    | some k => issueAll hold n k
    | none => m

/-- The flush of R105 has a phase to complete. -/
def flushRuns (s : State) : Bool := s.rst.flushA || s.rst.flushB || s.rst.flushC

/-- The busy state of R105 and R107: from the warning on, until it has fallen and the flush is over. -/
def pwrBusy (s : State) : Bool := s.rst.warn || flushRuns s

/-- The port issues what it may (R59, R60, R235): nothing while it is quiet, no observation during a power-fail flush (R105), and with work to do only
once DMA is ON (R48; DEDUCED, log entry 121). -/
def mmPump (s : State) : State :=
  if mmQuiet s then s
  else
    let t := if s.mm.jobs.isEmpty then s else touch s 13
    if !t.mm.jobs.isEmpty && asleep t 13 then t
    else { t with mm := issueAll (pwrBusy t) 64 (fillBucket (rwEff t .capObs % 256) (hostCycle t) t.mm) }

end Sys2Proof.Machine
end

