-- ==== Sys2Proof/Machine/Zip.lean ====
section
/-!
DEFINITION. The LZ4 block that CMP forms (R532), by the greedy pass of the manual, and the chunk that holds a stored block (R531).
-/
namespace Sys2Proof.Machine

/-- The hash of the four bytes at `i`. -/
def lzHash (raw : Bytes) (i : Nat) : Nat := (leAt raw i 4 * 0x9E3779B1) % 2 ^ 32 / 2 ^ 20

/-- Equal bytes from `c + l` and `i + l` on, while i + l < n − 5. -/
def lzExtend (raw : Bytes) (c i : Nat) : Nat → Nat → Nat
  | 0, l => l
  | f + 1, l => if i + l < raw.length - 5 && byteAt raw (c + l) == byteAt raw (i + l) then lzExtend raw c i f (l + 1) else l

/-- The bytes that continue a length of at least 15. -/
def lzMore (n : Nat) : Bytes := if n < 15 then [] else List.replicate ((n - 15) / 255) 0xFF ++ toLe 1 ((n - 15) % 255)

/-- A sequence: literals, then a match of length `l` at offset `o`; the last one has no match. -/
def lzSeq (lit : Bytes) (m : Option (Nat × Nat)) : Bytes :=
  match m with
  | some (o, l) => toLe 1 (min lit.length 15 * 16 + min (l - 4) 15) ++ lzMore lit.length ++ lit ++ toLe 2 o ++ lzMore (l - 4)
  | none => toLe 1 (min lit.length 15 * 16) ++ lzMore lit.length ++ lit

/-- The pass from position `i` with the literals from `anchor` on; `t` maps a hash to a position. -/
def lzPass (raw : Bytes) : Nat → Nat → Nat → List (Nat × Nat) → Bytes
  | 0, _, anchor, _ => lzSeq (raw.drop anchor) none
  | f + 1, i, anchor, t =>
    if raw.length < i + 12 then lzSeq (raw.drop anchor) none
    else
      let h := lzHash raw i
      let t1 := setKey t h i
      match lookup t h with
      | some c =>
        if leAt raw c 4 = leAt raw i 4 then
          let l := lzExtend raw c i raw.length 4
          lzSeq (sliceOf raw anchor (i - anchor)) (some (i - c, l)) ++ lzPass raw f (i + l) (i + l) t1
        else lzPass raw f (i + 1) anchor t1
      | none => lzPass raw f (i + 1) anchor t1

/-- The LZ4 block of a raw block. -/
def lz4 (raw : Bytes) : Bytes := lzPass raw (raw.length + 1) 0 0 []

/-- A CMP chunk (R531). -/
def cmpChunk (raw stored : Bytes) (isLz vfail : Bool) : Bytes :=
  padTo 16 (toLe 2 raw.length ++ toLe 2 stored.length ++ toLe 1 (flag isLz + 4 * flag vfail) ++ zeros 3 ++ toLe 4 (crc32c raw) ++ zeros 4 ++
    stored)

/-- The end header of R527. -/
def endHeader : Bytes := zeros 16

end Sys2Proof.Machine
end

