-- ==== Sys2Proof/Machine/Recorder.lean ====
section
/-!
DEFINITION. The event recorder: records (R518 to R522), freezing (R525), chunks into the host buffers (R526, R527), flushes (R528) and the
black box (R529).
-/
namespace Sys2Proof.Machine

/-! Histograms and the tally (R519, R520) -/

/-- A value in ns enters a histogram (R520). -/
def histoAdd (h : Histo) (v0 : Nat) : Histo :=
  let v := min v0 0xFFFFFFFF
  let k := if v < 1024 then 0 else min 7 (topBit v - 9)
  ⟨add32 h.count 1, min h.lo v, max h.hi v, h.buckets.modify k (fun x => satAdd 16 x 1)⟩

def histoMerge (a b : Histo) : Histo :=
  ⟨add32 a.count b.count, min a.lo b.lo, max a.hi b.hi, (a.buckets.zip b.buckets).map (fun p => satAdd 16 p.1 p.2)⟩

def histoBytes (h : Histo) : Bytes :=
  toLe 4 h.count ++ toLe 4 h.lo ++ toLe 4 h.hi ++ zeros 4 ++ (h.buckets.map (toLe 2)).flatten

/-- The EPOCH body from 0x20 on. -/
def tallyBytes (t : Tally) : Bytes :=
  histoBytes t.ready ++ histoBytes t.arrival ++ histoBytes t.leap ++ histoBytes t.vqueue ++ toLe 2 t.faults ++ toLe 2 t.cflags ++
  toLe 1 t.nmiss ++ zeros 1 ++ toLe 2 t.lost ++ toLe 8 t.firstLoc ++ toLe 8 t.lastLoc ++ toLe 4 t.caploss ++ toLe 4 t.linkerr ++
  toLe 4 t.hbmiss ++ toLe 4 t.sealdrop ++ toLe 4 t.late ++ toLe 4 t.memce ++ toLe 2 t.memue ++ toLe 2 t.leapf ++ toLe 2 t.raised ++
  toLe 2 t.held ++ toLe 4 t.trclost ++ toLe 2 t.cmpfail ++ toLe 2 t.dropped

/-- The frozen tally takes up one EPOCH record (R525): FIRST_LOC from the earliest with a fault, LAST_LOC from the latest. -/
def tallyMerge (a b : Tally) : Tally :=
  { ready := histoMerge a.ready b.ready, arrival := histoMerge a.arrival b.arrival, leap := histoMerge a.leap b.leap,
    vqueue := histoMerge a.vqueue b.vqueue, faults := satAdd 16 a.faults b.faults, cflags := a.cflags ||| b.cflags,
    nmiss := max a.nmiss b.nmiss, lost := satAdd 16 a.lost b.lost, firstLoc := if a.faults = 0 then b.firstLoc else a.firstLoc,
    lastLoc := if b.faults = 0 then a.lastLoc else b.lastLoc, caploss := add32 a.caploss b.caploss, linkerr := add32 a.linkerr b.linkerr,
    hbmiss := add32 a.hbmiss b.hbmiss, sealdrop := add32 a.sealdrop b.sealdrop, late := add32 a.late b.late,
    memce := add32 a.memce b.memce, memue := satAdd 16 a.memue b.memue, leapf := satAdd 16 a.leapf b.leapf,
    raised := satAdd 16 a.raised b.raised, held := satAdd 16 a.held b.held, trclost := add32 a.trclost b.trclost,
    cmpfail := satAdd 16 a.cmpfail b.cmpfail, dropped := satAdd 16 a.dropped b.dropped }

/-- The tally of the epoch in progress changed. -/
def modTally (s : State) (f : Tally → Tally) : State := { s with erc := { s.erc with tally := f s.erc.tally } }

/-! Records -/

/-- A recorder record (R518): header, body from 0x20, RCRC. -/
def ercRecord (kind flags rseq epoch gen epochs node : Nat) (body : Bytes) : Bytes :=
  let head := toLe 2 0x5245 ++ toLe 1 kind ++ toLe 1 flags ++ toLe 4 rseq ++ toLe 8 epoch ++ toLe 2 gen ++ zeros 2 ++ toLe 4 epochs ++
    toLe 4 node ++ zeros 4
  let b := head ++ body ++ zeros (220 - body.length)
  b ++ toLe 4 (crc32c b)

/-- Records that the ring holds (R30). -/
def ercSlots (s : State) : Nat := Config.recorderBytes s.integ / 256

/-- RSEQ of the ring record that the next append overwrites; a record lost to an uncorrectable word holds no bytes and has been counted (R562). -/
def ercVictim (s : State) : Option Nat :=
  if s.erc.ring.length < ercSlots s then none else (s.erc.ring.head?.filter (fun r => !r.2.isEmpty)).map (·.1)

/-- The next append overwrites a record not yet in host memory (R522). -/
def ercLoses (s : State) : Bool :=
  match ercVictim s with
  | some q => newer 32 q s.erc.flushed
  | none => false

/-- A request for ERC waits for it to reach ON (R48). -/
def ercWait (s : State) (r : ErcReq) : State := { s with erc := { s.erc with waits := s.erc.waits ++ [r] } }

/-- A record enters the ring (R518, R522). -/
def ercPut (s : State) (kind epoch gen epochs : Nat) (restart tstep : Bool) (body : Bytes) : State :=
  let e := s.erc
  let q := (e.rseq + 1) % 2 ^ 32
  let lose := ercLoses s
  let flags := flag (restart || e.restart) + 2 * flag tstep + 4 * flag lose
  let r := ercRecord kind flags q epoch gen epochs (nodeId s + nodeH s * 2 ^ 24) body
  let ring := (if e.ring.length < ercSlots s then e.ring else e.ring.drop 1) ++ [(q, r)]
  let drain := if (rwGet s .ercCfg).testBit 0 then e.drain ++ [(q, epochNow s)] else e.drain
  let s1 := { s with erc := { e with ring := ring, rseq := q, restart := false, drain := drain } }
  if lose then rcInc s1 .ercOverwrite else s1

/-- A record is to enter the ring: at once, or when ERC reaches ON (R48). -/
def ercAppend (s : State) (kind epoch gen epochs : Nat) (restart tstep : Bool) (body : Bytes) : State :=
  let t := touch s 10
  if asleep t 10 then ercWait t (.append kind epoch gen epochs restart tstep body) else ercPut t kind epoch gen epochs restart tstep body

/-- A record of another kind than EPOCH is dropped while frozen (R525). -/
def ercDropFrozen (s : State) : State :=
  let s1 := rcInc s .ercFrozenDrop
  { s1 with erc := { s1.erc with frozen := { s1.erc.frozen with dropped := satAdd 16 s1.erc.frozen.dropped 1 } } }

/-- FREEZE clears; a tally of at least one epoch is appended as a FROZEN record (R525), with TIME_STEP when TB0 stepped in an epoch merged
(DEDUCED, log entry 118). -/
def ercUnfreeze (s : State) : State :=
  if !s.erc.freeze then s
  else
    let e := s.erc
    let s1 := { s with erc := { e with freeze := false, frozen := tallyNone, frozenN := 0, frozenStep := false } }
    if e.frozenN = 0 then s1 else ercAppend s1 2 e.frozenEp e.frozenGen e.frozenN false e.frozenStep (tallyBytes e.frozen)

/-! Host buffers -/

/-- A host buffer is armed (R527). -/
def ercArmed (s : State) : Bool := s.erc.bufA.arm || s.erc.bufB.arm

def ercBuf (e : Erc) (b : Bool) : ErcBuf := if b then e.bufB else e.bufA

def setErcBuf (e : Erc) (b : Bool) (f : ErcBuf → ErcBuf) : Erc := if b then { e with bufB := f e.bufB } else { e with bufA := f e.bufA }

/-- DRAIN_HELD (R527, R536): neither buffer is armed; 0 from a reset until the START record (DEDUCED, log entry 120). -/
def ercHeldUp (s : State) : Bool := !ercArmed s && !s.erc.startDue

/-- A chunk of `n` bytes fits the buffer with room for an end header (R527). -/
def ercFits (b : ErcBuf) (n : Nat) : Bool := b.arm && decide (b.fill + n + 16 ≤ b.size * 4096)

/-- The current buffer takes no more: an end header is written and ARM clears (R527); FILL counts it from its
issue (DESIGN CHOICE, log entry 119). -/
def ercEnd (s : State) (b : Bool) (qos : Nat) : State :=
  let u := ercBuf s.erc b
  if !u.arm then s
  else
    let ends := decide (u.fill + 16 ≤ u.size * 4096)
    let s1 := { s with erc := setErcBuf s.erc b (fun x => { x with arm := false, fill := if ends then x.fill + 16 else x.fill }) }
    if ends then mmWriteJob s1 (.ercEnd b) qos 2 (u.base + u.fill) endHeader else s1

/-- The chunk in progress goes to the buffer that takes it: the current one, or the other after an end header. -/
def ercPlace (s : State) (c : Chunk) (d : Bytes) : State :=
  let qos := if c.power then 3 else 0
  let put (t : State) (b : Bool) : State :=
    mmWriteJob { t with erc := { t.erc with cur := b, chunk := some { c with sent := true } } } (.ercChunk b) qos 2
      ((ercBuf t.erc b).base + (ercBuf t.erc b).fill) d
  let b := s.erc.cur
  if ercFits (ercBuf s.erc b) d.length then put s b
  else
    let s1 := ercEnd s b qos
    let s2 := { s1 with erc := { s1.erc with cur := if (ercBuf s1.erc (!b)).arm then !b else b } }
    if ercFits (ercBuf s2.erc (!b)) d.length then put s2 (!b) else ercEnd s2 (!b) qos

/-- The records of `q` that the ring still holds; one lost to an uncorrectable word is skipped (R562). -/
def ercHeld (e : Erc) (q : List Nat) : List (Nat × Bytes) :=
  q.filterMap (fun n => ((lookup e.ring n).filter (fun r => !r.isEmpty)).map (fun r => (n, r)))

/-- A chunk is formed of up to 16 records (R526) and goes to CMP where CMP_CFG.ERC is 1 (R530). -/
def ercForm (s : State) (q : List Nat) (power : Bool) : State :=
  let recs := (ercHeld s.erc q).take 16
  let raw := (recs.map (·.2)).flatten
  if recs.isEmpty then s
  else if (rwGet s .cmpCfg).testBit 2 then
    { s with erc := { s.erc with chunk := some ⟨recs.map (·.1), power, none, false⟩ },
             cmp := { s.cmp with queue := s.cmp.queue ++ [⟨if power then .ercPower else .erc, raw⟩] } }
  else { s with erc := { s.erc with chunk := some ⟨recs.map (·.1), power, some (cmpChunk raw raw false false), false⟩ } }

/-- A running flush with nothing left to send ends (R528). -/
def ercFlushEnd (s : State) : State :=
  if s.erc.flushing && s.erc.todo.isEmpty && s.erc.chunk.isNone then { s with erc := { s.erc with flushing := false, power := false } } else s

/-- The next chunk is formed, one at a time: of a flush first, else of 16 records that DRAIN has gathered; none while no buffer is armed
(R527) or the block is quiet. -/
def ercNext (s : State) : State :=
  if s.erc.chunk.isSome || !ercArmed s || mmQuiet s then s
  else if s.erc.flushing then
    let live := (ercHeld s.erc s.erc.todo).map (·.1)
    ercFlushEnd (ercForm { s with erc := { s.erc with todo := live.drop 16 } } live s.erc.power)
  else if 16 ≤ s.erc.drain.length then
    ercForm { s with erc := { s.erc with drain := s.erc.drain.drop 16 } } ((s.erc.drain.take 16).map (·.1)) false
  else s

/-- A chunk that CMP has left, or that needed none, is written. -/
def ercSend (s : State) : State :=
  match s.erc.chunk with
  | some c =>
    if c.sent || mmQuiet s then s
    else (match c.data with
      | some d => ercPlace s c d
      | none => s)
  | none => s

/-- The recorder's host path moves on. -/
def ercPump (s : State) : State := mmPump (ercSend (ercNext s))

/-- A chunk's last write completion (R526): ERC_FLUSHED and FILL advance. With an error the records stay unflushed. -/
def ercChunkDone (s : State) (b : Bool) (len err : Nat) : State :=
  match s.erc.chunk with
  | none => s
  | some c =>
    let e := { s.erc with chunk := none }
    let e1 := if err ≠ 0 then e
      else { setErcBuf e b (fun x => { x with fill := x.fill + len }) with
        flushed := c.seqs.foldl (fun a q => if newer 32 q a then q else a) e.flushed }
    ercPump (ercFlushEnd { s with erc := e1 })

/-! Flushes and the black box -/

/-- Start of set `k` in the run's black-box bank (R647, R648). -/
def bbAddr (s : State) (k : Nat) : Nat := (if s.boot.cur.bbBank = 1 then 0x50000 else 0x10000) + 0x4000 * k

/-- The 64 newest records, newest first (R529), without those lost to an uncorrectable word (R562). -/
def bbPages (s : State) : List Bytes := (((s.erc.ring.map (·.2)).filter (fun r => !r.isEmpty)).reverse).take 64

/-- The black-box part of a fault flush: the next unused set, at most once in 10 s of TB2 (R529, R649). -/
def bbFault (s : State) : State :=
  if !(rwGet s .ercCfg).testBit 1 then s
  else
    let recent := (match s.erc.bbLast with
      | some t => decide (tb2Ns s < t + 10 ^ 10)
      | none => false)
    if recent || decide (15 < s.erc.bbNext) || !s.erc.bbErased.contains s.erc.bbNext || s.erc.bbWrite.isSome then rcInc s .ercBbSkip
    else
      let left := s.erc.bbErased.filter (· != s.erc.bbNext)
      { s with erc := { s.erc with bbWrite := some ⟨s.erc.bbNext, 0, bbPages s⟩, bbNext := s.erc.bbNext + 1, bbLast := some (tb2Ns s), bbErased := left } }

/-- Phase C of R105 in set 0; a fault write in progress stops after the page being programmed (R529). -/
def bbPower (s : State) : State :=
  if !s.erc.bbErased.contains 0 then { s with boot := { s.boot with bbSkipped := true }, rst := { s.rst with flushC := false } }
  else
    let s1 := { s with erc := { s.erc with bbErased := s.erc.bbErased.filter (· != 0) }, rst := { s.rst with flushC := true } }
    match s1.erc.bbWrite with
    | some w => { s1 with erc := { s1.erc with bbWrite := some { w with pages := w.pages.take 1 }, bbThen := some (bbPages s1) } }
    | none => { s1 with erc := { s1.erc with bbWrite := some ⟨0, 0, bbPages s1⟩ } }

/-- What a flush has to send (R528): the unflushed records, and what a running flush has not yet sent, newest first in a power-fail flush. -/
def ercTodo (s : State) (power : Bool) : List Nat :=
  let busy := (match s.erc.chunk with
    | some c => c.seqs
    | none => [])
  let up := ((s.erc.ring.map (·.1)).filter (fun q => newer 32 q s.erc.flushed || (s.erc.flushing && s.erc.todo.contains q))).filter (fun q => !busy.contains q)
  if power then up.reverse else up

/-- A flush starts (R528): cause 1 HOST, 2 FAULT, 3 POWER, with the fault's location. -/
def ercFlushNow (s : State) (cause loc : Nat) : State :=
  let s1 := if cause = 1 then s else ercUnfreeze s
  let st := tb0Stamp s1
  let s2 := if s1.erc.freeze then ercDropFrozen s1
    else ercAppend s1 5 (epochNow s1) (genAt s1 (epochNow s1)) 0 false s1.time.grid.tstep
      (toLe 1 cause ++ zeros 3 ++ toLe 6 st.sec ++ toLe 4 st.ns ++ zeros 2 ++ toLe 8 loc)
  let power := s2.erc.power || cause == 3
  let s3 := if s2.flt.active then s2
    else { s2 with erc := { s2.erc with flushing := true, power := power, todo := ercTodo s2 power, drain := [] } }
  let s4 := if cause = 2 then bbFault s3 else if cause = 3 then bbPower s3 else s3
  ercPump s4

/-- A flush is asked for: it starts at once, or when ERC reaches ON (R48, R50). -/
def ercFlush (s : State) (cause loc : Nat) : State :=
  let t := touch s 10
  if asleep t 10 then ercWait t (.flush cause loc) else ercFlushNow t cause loc

/-- One request that waited for ERC. -/
def ercServe (s : State) (r : ErcReq) : State :=
  match r with
  | .append kind epoch gen epochs restart tstep body => ercPut s kind epoch gen epochs restart tstep body
  | .flush cause loc => ercFlushNow s cause loc

/-- ERC has reached ON: what waited for it is done in the order of arrival. -/
def ercWake (s : State) : State :=
  ercPump (s.erc.waits.foldl ercServe { s with erc := { s.erc with waits := [] } })

/-- A page of the black box is programmed (R529). -/
def bbPageDone (s : State) : State :=
  match s.erc.bbWrite with
  | none => s
  | some w =>
    let store := (match w.pages with
      | p :: _ => memWrite 0xFF s.boot.store (bbAddr s w.set + 256 * w.page) p
      | [] => s.boot.store)
    let next : Option BbWrite × Option (List Bytes) :=
      (match w.pages.drop 1, s.erc.bbThen with
       | [], some ps => (some ⟨0, 0, ps⟩, none)
       | [], none => (none, none)
       | ps, t => (some ⟨w.set, w.page + 1, ps⟩, t))
    let cDone := next.1.isNone && s.rst.flushC
    { s with boot := { s.boot with store := store }, erc := { s.erc with bbWrite := next.1, bbThen := next.2 },
             rst := { s.rst with flushC := s.rst.flushC && !cDone } }

/-! The strobe (R519, R521, R525) -/

def startBody (s : State) : Bytes :=
  toLe 4 0x00020300 ++ toLe 4 (flag s.rst.por + 2 * flag s.rst.warm + 4 * flag s.rst.pfw + 8 * flag s.rst.fallback) ++
  toLe 8 ((s.img.active.map (·.build)).getD 0) ++ toLe 8 s.rst.serial

/-- The START record that waits for the first strobe after a reset (R521). -/
def ercStart (s : State) : State :=
  if !s.erc.startDue then s
  else
    let s1 := { s with erc := { s.erc with startDue := false } }
    if s1.erc.freeze then ercDropFrozen s1
    else ercAppend s1 4 (epochNow s1) (genAt s1 (epochNow s1)) 0 true false (startBody s1)

/-- The EPOCH record of epoch `x`, and the COVER record when the coverage calls for one; or the merge while frozen. -/
def ercEpoch (s : State) (x : Nat) (tstep : Bool) : State :=
  let g := genAt s x
  let t := s.erc.tally
  let cov := s.erc.readyCov
  let s0 := { s with erc := { s.erc with tally := tallyNone, readyCov := none } }
  if s0.erc.freeze then
    let n := add32 s0.erc.frozenN 1
    let s1 := { s0 with erc := { s0.erc with
      frozen := tallyMerge s0.erc.frozen t, frozenN := n, frozenEp := x, frozenGen := g, frozenStep := s0.erc.frozenStep || tstep } }
    if cov.isSome then ercDropFrozen s1 else s1
  else
    let s1 := ercAppend s0 1 x g 1 false tstep (tallyBytes t)
    match cov with
    | some c => ercAppend s1 3 x g 1 false tstep c
    | none => s1

/-- The node's record is ready (R519): H_READY, CFLAGS, NMISS and the loss block's sum. -/
def ercReady (s : State) (x cflags nmiss loss : Nat) (head : Bytes) : State :=
  let s1 := modTally s (fun t => { t with ready := histoAdd t.ready (sinceEnd s x), cflags := cflags, nmiss := nmiss, caploss := add32 t.caploss loss })
  { s1 with erc := { s1.erc with readyCov := if cflags % 64 ≠ 0 ∨ nmiss ≠ 0 then some (head.take 160) else none } }

end Sys2Proof.Machine
end

