-- ==== Sys2Proof/Machine/Faults.lean ====
section
/-!
DEFINITION. Raising a fault record (R568 to R570, R691): the FIFO, the recorder's tally and the flush it starts.
-/
namespace Sys2Proof.Machine

/-- SEV of a cause (R569): 1 CONTAINED, 2 UNIT_OUT, 3 FAIL_SILENT. -/
def causeSev (c : Nat) : Nat :=
  if c = 1 ∨ c = 5 ∨ c = 6 ∨ c = 7 then 1 else if c = 2 ∨ c = 4 ∨ c = 8 ∨ c = 9 then 2 else 3

/-- A fault record's 32 bytes (R568). -/
def faultBytes (f : FaultRec) : Bytes :=
  toLe 8 f.loc ++ toLe 8 f.epoch ++ toLe 6 f.stamp.sec ++ toLe 4 f.stamp.ns ++ toLe 1 f.cause ++ toLe 1 f.sev ++ toLe 4 f.fseq

/-- A record enters the fault FIFO of 32; with the FIFO full it is lost, but for a FAIL_SILENT record, which replaces the newest (R570). -/
def faultEnter (s : State) (f : FaultRec) : State :=
  if s.flt.fifo.length < 32 then { s with flt := { s.flt with fifo := s.flt.fifo ++ [f] } }
  else if f.sev = 3 then { s with flt := { s.flt with fifo := s.flt.fifo.dropLast ++ [f] } }
  else rcInc s .mcuFltLost

/-- A fault record is raised (R568, R570): the next FSEQ, the FIFO, FAULTS with FIRST_LOC and LAST_LOC, a flush of cause FAULT. -/
def raiseFault (s : State) (cause loc : Nat) : State :=
  let q := (s.flt.fseq + 1) % 2 ^ 32
  let f : FaultRec := ⟨loc, epochNow s, tb0Stamp s, cause, causeSev cause, q⟩
  let s1 := faultEnter { s with flt := { s.flt with fseq := q } } f
  let s2 := modTally s1 (fun t =>
    { t with faults := satAdd 16 t.faults 1, firstLoc := if t.faults = 0 then loc else t.firstLoc, lastLoc := loc })
  ercFlush s2 2 loc

end Sys2Proof.Machine
end

