-- ==== Sys2Proof/Machine/Cap.lean ====
section
/-!
DEFINITION. CAP (R191 to R234, R690): counter lanes, engines and the operator table, step marks, rings, health, the frozen epoch sample,
and profile buffers.
-/
namespace Sys2Proof.Machine

/-! The capture map -/

/-- CAPTURE of the active image; none while no image is active (R690). -/
def capSec (s : State) : Option CaptureSec :=
  match s.img.active with
  | some im => im.capture
  | none => none

/-- The image in force for work on epoch `x` (R133): the old one for an epoch before e_A while R136 holds it, the staged one for an epoch from
a scheduled activation on. -/
def imageAt (s : State) (x : Nat) : Option Image :=
  let now := if s.img.hasAct && decide (x < s.img.eA) && s.img.old.isSome then s.img.old else s.img.active
  match s.img.sched, s.img.staged with
  | some k, some im => if k.actAt ≤ x && im.gen == k.gen then some im else now
  | _, _ => now

/-- A strobe of this node has begun the epoch in progress (R195). -/
def inEpoch (s : State) : Bool := s.time.grid.forming

/-- The capture taps take events: start-up is over and the block is not fail-silent (R97, R104). -/
def tapsOn (s : State) : Bool := !s.flt.active && decide (6 ≤ s.rst.step)

def modCap (s : State) (f : CapU → CapU) : State := { s with cap := f s.cap }

/-- A drop counter counts `n`, and so does the loss block's field `k` (R248). -/
def capDrop (s : State) (r : RcReg) (k n : Nat) : State :=
  if n = 0 then s else modCap (rcAdd s r n) (fun c => { c with loss := c.loss.modify k (fun v => add32 v n) })

/-! Counter lanes (R69, R71, R196, R197) -/

def laneNone : Lane := ⟨0, 0, false, false, false⟩

/-- The lane is captured. -/
def laneCaptured (s : State) (n : Nat) : Bool :=
  match capSec s with
  | some c => c.lanes.any (fun l => l.lane == n)
  | none => false

/-- One cycle's increments of a lane: `clr` any slot clears, `add` their sum. -/
def laneAdd (clr : Bool) (add : Nat) (l : Lane) : Lane :=
  let v0 := if clr then 0 else l.value
  { value := satAdd 64 v0 add, delta := satAdd 64 l.delta add, clr := l.clr || clr,
    satV := (l.satV && !clr) || decide (2 ^ 64 ≤ v0 + add), satD := l.satD || decide (2 ^ 64 ≤ l.delta + add) }

/-- One cycle's valid increment slots; a SPIRE-L's csp_ and rwp_ inputs are tied off (R53). -/
def incSlots (s : State) (given : List IncSlot) : State :=
  let slots := if Config.isSpireL s.integ then [] else given
  let bad := slots.filter (fun x => !laneCaptured s x.lane)
  let ok := slots.filter (fun x => laneCaptured s x.lane)
  let s1 := capDrop s .capDropRange 0 bad.length
  (ok.map (·.lane)).eraseDups.foldl (fun a n =>
    let mine := ok.filter (fun x => x.lane == n)
    modCap a (fun c => { c with lanes := modKey c.lanes n laneNone (laneAdd (mine.any (·.clr)) (sumOf (mine.map (·.val)))) })) s1

/-! Engines and the operator table (R70, R71, R201 to R207) -/

def engNone (c : Nat) : Eng := ⟨0, 0, none, c, 0, 0, 0, 0, List.replicate 16 0⟩

def engCaptured (s : State) (n : Nat) : Bool :=
  match capSec s with
  | some c => c.engEn && c.engines.contains n
  | none => false

def optabOn (s : State) : Bool :=
  match capSec s with
  | some c => c.optabEn
  | none => false

/-- A credit or command of an operator enters the table, or OTHER when the table is full (R205, R206). -/
def optabAdd (s : State) (key : Nat × Nat) (cmds busy stalled : Nat) : State :=
  if !optabOn s then s
  else match findIdx (fun e => e.layer == key.1 && e.op == key.2) s.cap.optab with
    | some i => modCap s (fun c => { c with optab := c.optab.modify i (fun e =>
        { e with cmds := add32 e.cmds cmds, busy := add32 e.busy busy, stalled := add32 e.stalled stalled }) })
    | none =>
      if s.cap.optab.length < 1024 then modCap s (fun c => { c with optab := c.optab ++ [⟨key.1, key.2, cmds, busy, stalled⟩] })
      else
        let o := s.cap.other.getD ⟨0xFFFF, 0xFFFF, 0, 0, 0⟩
        capDrop (modCap s (fun c => { c with other := some { o with
          cmds := add32 o.cmds cmds, busy := add32 o.busy busy, stalled := add32 o.stalled stalled } })) .capOptabOvf 5 1

def engAt (s : State) (n : Nat) : Eng := lookupD s.cap.engines n (engNone s.cap.strobe)

/-- The interval up to `cyc`, exclusive, is credited (R202, R203); an interval of no cycles credits nothing. -/
def engCredit (s : State) (n cyc : Nat) : State :=
  let e := engAt s n
  let d := cyc - e.since
  let e1 : Eng := match e.state with
    | 0 => { e with idle := add32 e.idle d }
    | 1 => { e with busy := add32 e.busy d }
    | _ => { e with stalled := add32 e.stalled d, byReason := e.byReason.modify e.reason (fun v => add32 v d) }
  let s1 := modCap s (fun c => { c with engines := setKey c.engines n { e1 with since := cyc } })
  match e.cmd with
  | some key => if d = 0 ∨ e.state = 0 then s1 else if e.state = 1 then optabAdd s1 key 0 d 0 else optabAdd s1 key 0 0 d
  | none => s1

/-- An accepted engine event (R202). -/
def engTake (s : State) (x : EngSlot) : State :=
  let s1 := engCredit s x.engine (coreCycle s)
  let e := engAt s1 x.engine
  let e1 := { e with state := x.state, reason := x.reason }
  let e2 := if x.cmd then { e1 with cmd := some (x.layer, x.op), cmds := add32 e1.cmds 1 } else e1
  let s2 := modCap s1 (fun c => { c with engines := setKey c.engines x.engine e2 })
  if x.cmd then optabAdd s2 (x.layer, x.op) 1 0 0 else s2

/-- One cycle's valid engine slots, in ascending slot order (R70, R71). An event dropped for its engine and its state counts as the former. -/
def engSlots (s : State) (given : List EngSlot) : State :=
  let slots := if Config.isSpireL s.integ then [] else given
  let bad := slots.filter (fun x => !engCaptured s x.engine)
  let st3 := slots.filter (fun x => engCaptured s x.engine && x.state == 3)
  let ok := slots.filter (fun x => engCaptured s x.engine && x.state != 3)
  let win := (ok.map (·.engine)).eraseDups.filterMap (fun n => (ok.filter (fun x => x.engine == n)).getLast?)
  let s1 := capDrop (capDrop s .capDropRange 0 bad.length) .capDropEngstate 1 st3.length
  win.foldl engTake (capDrop s1 .capDropEngcol 1 (ok.length - win.length))

/-! Job steps (R208 to R212) -/

/-- Duration of a completion in ns (R210). -/
def stepDuration (b e : Stamp) : Nat := min 0xFFFFFFFF ((e.sec * 10 ^ 9 + e.ns) - (b.sec * 10 ^ 9 + b.ns))

/-- Room for event samples in FEAT's queue (R224): fewer than 3 free entries drop the sample. -/
def featEvent (s : State) (v : EvSample) : State :=
  if !inEpoch s then s
  else if Config.featQueue s.integ < s.feat.queue.length + 3 then capDrop s .capDropEvq 4 1
  else { s with feat := { s.feat with queue := s.feat.queue ++ [.event s.time.grid.epoch s.feat.evSeq v], evSeq := s.feat.evSeq + 1 } }

def setSlot (s : State) (i : Nat) (j : JobSlot) : State :=
  modCap s (fun c => { c with slots := c.slots.set i { j with mark := c.marks + 1 }, marks := c.marks + 1 })

/-- A BEGIN mark for a job without a slot takes the lowest free one, else the one marked least recently. -/
def freeSlot (l : List JobSlot) : Nat :=
  match findIdx (fun j => !j.used) l with
  | some i => i
  | none =>
    let m := l.foldl (fun a j => min a j.mark) (2 ^ 64)
    (findIdx (fun j => j.mark == m) l).getD 0

/-- A committed mark (R210, R211). -/
def markStep (s : State) (isEnd : Bool) (job gen num : Nat) : State :=
  let t := tb0Stamp s
  match findIdx (fun j => j.used && j.job == job) s.cap.slots with
  | none =>
    if isEnd then capDrop (modCap s (fun c => { c with marks := c.marks + 1 })) .capStepOrphan 6 1
    else setSlot s (freeSlot s.cap.slots) ⟨true, job, gen, some (num, t), 0⟩
  | some i =>
    let j := s.cap.slots.getD i slotNone
    if j.gen ≠ gen ∧ !newer 8 gen j.gen then capDrop s .capStepGenDrop 6 1
    else if !isEnd then
      let s1 := setSlot s i { j with gen := gen, openStep := some (num, t) }
      if j.gen = gen ∧ j.openStep.isSome then capDrop s1 .capStepOrphan 6 1 else s1
    else
      match j.openStep with
      | some (n, b) =>
        if j.gen = gen ∧ n = num then
          let d : StepDone := ⟨i, job, gen, num, b, t, stepDuration b t⟩
          let s1 := setSlot s i { j with openStep := none }
          if inEpoch s1 then
            featEvent (modCap s1 (fun c => { c with
              table := (c.table.filter (fun x => x.slot != i)) ++ [d], rawStep := c.rawStep ++ [d] })) (.step d)
          else s1
        else capDrop (setSlot s i j) .capStepOrphan 6 1
      | none => capDrop (setSlot s i j) .capStepOrphan 6 1

/-- A write of CAP_STEP_NUM (R208, R212). -/
def stepMarkOp (s : State) (num : Nat) : State :=
  match capSec s with
  | some c =>
    let id := rwGet s .capStepId
    if c.stepEn && tapsOn s then markStep s (id.testBit 31) (id % 65536) (id / 65536 % 256) num else s
  | none => s

/-! Rings (R73, R213 to R216) -/

/-- The group of a watched ring. -/
def ringGroup (s : State) (r : Nat) : Option Nat :=
  match capSec s with
  | some c => if c.ringEn && decide (r < s.integ.rings) then lookup c.rings r else none
  | none => none

/-- One cycle's net change of a ring. -/
def ringNet (s : State) (r posted retired : Nat) : State :=
  let g := (ringGroup s r).getD 0
  let o := lookupD s.cap.rings r 0 + posted
  let s1 := modCap s (fun c =>
    let p := lookupD c.groups g (0, 0)
    let q := lookupD c.ringEp r (0, 0)
    { c with rings := setKey c.rings r (min 0xFFFFFFFF (o - retired)), groups := setKey c.groups g (add32 p.1 posted, add32 p.2 retired),
             ringEp := setKey c.ringEp r (add32 q.1 posted, add32 q.2 retired) })
  if o < retired then capDrop s1 .capRingUnder 2 1 else s1

/-- One cycle's valid ring slots. -/
def ringSlots (s : State) (given : List RingSlot) : State :=
  let slots := if Config.isSpireL s.integ then [] else given
  let bad := slots.filter (fun x => (ringGroup s x.ring).isNone)
  let zero := slots.filter (fun x => (ringGroup s x.ring).isSome && x.count == 0)
  let ok := slots.filter (fun x => (ringGroup s x.ring).isSome && x.count != 0)
  let s1 := capDrop (capDrop s .capDropRange 0 bad.length) .capDropRingzero 2 zero.length
  (ok.map (·.ring)).eraseDups.foldl (fun a r =>
    let mine := ok.filter (fun x => x.ring == r)
    ringNet a r (sumOf ((mine.filter (fun x => !x.done)).map (·.count))) (sumOf ((mine.filter (·.done)).map (·.count)))) s1

/-- CAP_RING_CLR (R215). -/
def ringClear (s : State) (r : Nat) : State := modCap s (fun c => { c with rings := dropKey c.rings r })

/-! Health (R217 to R221) -/

def stkNone : Stk := ⟨0, 0, 0, 0, 0, 0x7FFFFFFF, []⟩
def snsNone : Sns := ⟨0, 0, 0, 0, 0, 0⟩

/-- Cycles since the strobe that began the epoch. -/
def epochOffset (s : State) : Nat := coreCycle s - s.cap.strobe

/-- Capacity of a stack that the image captures, HEALTH_EN being 1 (R222, R225). -/
def stackGib (s : State) (n : Nat) : Option Nat :=
  match capSec s with
  | some c => if c.healthEn then lookup c.memStacks n else none
  | none => none

/-- One ECC event of a captured stack. -/
def eccTake (s : State) (x : EccSlot) : State :=
  let k := lookupD s.cap.memStacks x.stack stkNone
  let rep := k.lru.contains x.addr
  let k1 := if x.kind = 0 ∨ x.kind = 2 then
      { k with rep := if rep then add32 k.rep 1 else k.rep, lru := (x.addr :: k.lru.filter (· != x.addr)).take 8 }
    else k
  let k2 := match x.kind with
    | 0 => { k1 with ce := add32 k1.ce 1 }
    | 1 => { k1 with ue := add32 k1.ue 1, ueAddr := if k1.ue = 0 then x.addr else k1.ueAddr }
    | 2 => { k1 with scrub := add32 k1.scrub 1 }
    | _ => { k1 with repair := add32 k1.repair 1 }
  let s1 := modCap s (fun c => { c with memStacks := setKey c.memStacks x.stack k2, rawEcc := c.rawEcc ++ [(x.stack, epochOffset s, x.kind, x.addr)] })
  if x.kind = 1 then featEvent s1 (.ue x.stack x.addr (epochOffset s)) else s1

/-- One valid ECC slot (R218): granules are of 64 bytes. -/
def eccSlot (s : State) (x : EccSlot) : State :=
  match stackGib s x.stack with
  | none => capDrop s .capDropHealth 3 1
  | some g => if x.addr < g * 2 ^ 24 then eccTake s x else capDrop s .capDropAddr 3 1

def snsCaptured (s : State) (n : Nat) : Bool :=
  match capSec s with
  | some c => c.healthEn && c.sensors.contains n
  | none => false

/-- One valid sensor slot (R220). -/
def snsSlot (s : State) (x : SensorSlot) : State :=
  if !snsCaptured s x.sensor then capDrop s .capDropHealth 3 1
  else
    let v := signed 16 x.val
    let k := lookupD s.cap.sensors x.sensor snsNone
    let k1 : Sns := if k.count = 0 then { k with count := 1, lo := v, hi := v, sum := v, last := v }
      else { k with count := add32 k.count 1, lo := min k.lo v, hi := max k.hi v,
                    sum := max (-(2 ^ 31)) (min (2 ^ 31 - 1) (k.sum + v)), last := v }
    modCap s (fun c => { c with sensors := setKey c.sensors x.sensor k1, rawSns := c.rawSns ++ [(x.sensor, epochOffset s, x.val)] })

/-- One valid link slot (R221). -/
def lnkSlot (s : State) (x : LinkSlot) : State :=
  let on := (match capSec s with
    | some c => c.healthEn && c.links.contains x.link
    | none => false)
  if !on then capDrop s .capDropHealth 3 1
  else
    let k := lookupD s.cap.links x.link (0, 0)
    modCap s (fun c => { c with links := setKey c.links x.link (add32 k.1 x.count, add32 k.2 1) })

/-! Profile buffers (R229 to R234) -/

def kindOn (s : State) (k : Nat) : Bool := (rwEff s .capProfMask).testBit (k - 1)

/-- An entry's bytes (R230). -/
def profEntry (kind index : Nat) (payload : Bytes) : Bytes :=
  let p := padTo 4 payload
  toLe 1 kind ++ zeros 1 ++ toLe 2 (8 + p.length) ++ toLe 4 index ++ p

/-- The successive `n` items of a list. -/
def runsOf {α : Type} (n : Nat) : Nat → List α → List (List α)
  | 0, _ => []
  | f + 1, l => if l.isEmpty then [] else l.take n :: runsOf n f (l.drop n)

/-- Entries over the samples or events of one index: more than a buffer holds go on in a further entry of the same KIND and INDEX (log entry 146). -/
def longEntries (kind index n : Nat) (l : List Bytes) : List Bytes := (runsOf n l.length l).map (fun g => profEntry kind index g.flatten)

def stampLittle (t : Stamp) : Bytes := toLe 6 t.sec ++ toLe 4 t.ns

/-- Every entry of the epoch that ends, in ascending KIND and INDEX (R230, R231). -/
def profEntries (s : State) : List Bytes :=
  let c := s.cap
  let on (k : Nat) (l : List Bytes) : List Bytes := if kindOn s k then l else []
  let ops := c.optab ++ c.other.toList
  let rings := sortBy id ((c.rings.map (·.1)) ++ (c.ringEp.map (·.1))).eraseDups
  let sns := sortBy id (c.rawSns.map (·.1)).eraseDups
  let ecc := sortBy id (c.rawEcc.map (·.1)).eraseDups
  on 1 (c.engines.map (fun p => profEntry 1 p.1 (toLe 4 p.2.idle ++ toLe 4 p.2.busy ++ toLe 4 p.2.stalled ++ (p.2.byReason.map (toLe 4)).flatten))) ++
  on 2 (if ops.isEmpty then [] else [profEntry 2 ops.length ((ops.map (fun o => toLe 2 o.layer ++ toLe 2 o.op ++ toLe 4 o.cmds ++ toLe 4 o.busy ++
    toLe 4 o.stalled)).flatten)]) ++
  on 3 (rings.filterMap (fun r =>
    let q := lookupD c.ringEp r (0, 0)
    let o := lookupD c.rings r 0
    if q.1 = 0 ∧ q.2 = 0 ∧ o = 0 then none else some (profEntry 3 r (toLe 4 q.1 ++ toLe 4 q.2 ++ toLe 4 o)))) ++
  on 4 (sns.flatMap (fun n => longEntries 4 n 8151 ((c.rawSns.filter (fun x => x.1 == n)).map (fun x => padTo 4 (toLe 4 x.2.1 ++ toLe 2 x.2.2))))) ++
  on 5 (ecc.flatMap (fun n => longEntries 5 n 5434 ((c.rawEcc.filter (fun x => x.1 == n)).map (fun x =>
    padTo 4 (toLe 4 x.2.1 ++ toLe 1 x.2.2.1 ++ toLe 4 x.2.2.2))))) ++
  on 6 ((sortBy (·.slot) c.rawStep).map (fun d => profEntry 6 d.slot (toLe 2 d.job ++ toLe 1 d.gen ++ toLe 4 d.step ++ stampLittle d.beginAt ++
    stampLittle d.endAt ++ toLe 4 d.duration)))

/-- The successive 4,096 bytes of a run (R530). -/
def chunksOf4k : Nat → Bytes → List Bytes
  | 0, _ => []
  | f + 1, b => if b.isEmpty then [] else b.take 4096 :: chunksOf4k f (b.drop 4096)

/-- A buffer closes (R231): ready, or to CMP (R530). -/
def profClose (s : State) (b : ProfBuf) : State :=
  let s1 := modCap s (fun c => { c with prof := { c.prof with bufs := c.prof.bufs ++ [if b.zip then b else { b with stored := some b.data }] } })
  if b.zip then { s1 with cmp := { s1.cmp with queue := s1.cmp.queue ++ (chunksOf4k 17 b.data).map (fun x => ⟨.prof, x⟩) } } else s1

/-- An entry still fits the buffer (R229, R530). -/
def profRoom (b : ProfBuf) (e : Bytes) : Bool := decide (b.data.length + e.length ≤ if b.zip then 65216 else 65472)

/-- The buffer being filled closes; `last` with LAST_OF_EPOCH. -/
def profShut (s : State) (last : Bool) : State :=
  match s.cap.prof.cur with
  | some b => profClose (modCap s (fun c => { c with prof := { c.prof with cur := none } })) { b with last := last }
  | none => s

/-- A buffer that has room for the entry is being filled, where one is to be had: two exist at most. -/
def profOpen (s : State) (e : Bytes) : State :=
  let s1 := if s.cap.prof.cur.any (profRoom · e) then s else profShut s false
  let p := s1.cap.prof
  if p.cur.isNone && decide (p.bufs.length < 2) then
    modCap s1 (fun c => { c with prof := { c.prof with
      cur := some ⟨p.seq, p.ep, p.gen, [], 0, p.lost, false, p.pois, (rwGet s1 .cmpCfg).testBit 1, none⟩, seq := (p.seq + 1) % 2 ^ 32, lost := 0 } })
  else s1

/-- `n` entries are dropped (R233). -/
def profLose (s : State) (n : Nat) : State :=
  capDrop (modCap s (fun c => { c with prof := { c.prof with lost := add32 c.prof.lost n } })) .capProfLost 7 n

/-- The ring is full (R232). -/
def profFull (s : State) : Bool :=
  let n := rwGet s .capProfSize
  n == 0 || (s.cap.prof.wr + 1) % n == rwGet s .capProfRd % n

/-- HELD (R233). -/
def profHeld (s : State) : Bool := !s.cap.prof.bufs.isEmpty && !s.cap.prof.flying && profFull s

/-- The entries still waiting are dropped; the epoch's last closed buffer is then its last (R231, R233). -/
def profDropRest (s : State) : State :=
  let p := s.cap.prof
  if p.todo.isEmpty then s
  else modCap (profLose s p.todo.length) (fun c => { c with prof := { c.prof with
    todo := [], bufs := c.prof.bufs.modify (c.prof.bufs.length - 1) (fun b => if b.epoch = p.ep then { b with last := true } else b) } })

/-- Entries enter buffers in order (R231). Where both are closed they wait for one to be copied, or are dropped where none will be (R233). -/
def profPour : List Bytes → State → State
  | [], s => profShut (modCap s (fun c => { c with prof := { c.prof with todo := [] } })) true
  | e :: es, s =>
    let s1 := profOpen s e
    match s1.cap.prof.cur with
    | some b =>
      profPour es (if profRoom b e then modCap s1 (fun c => { c with prof := { c.prof with cur := some { b with data := b.data ++ e, count := b.count + 1 } } })
        else profLose s1 1)
    | none =>
      let s2 := modCap s1 (fun c => { c with prof := { c.prof with todo := e :: es } })
      if !s2.cap.prof.flying && (profFull s2 || s2.cap.prof.halt) then profDropRest s2 else s2

/-- The entries of the epoch that ended are written (R231), or dropped where the ring is disabled (R239). Entries of the epoch before that still wait have
waited on the observation cap and are dropped (R233, log entry 147). -/
def profWrite (s : State) (es : List Bytes) (x g : Nat) (pois : Bool) : State :=
  let s1 := profDropRest s
  if rwGet s1 .capProfSize = 0 then profLose s1 es.length
  else if es.isEmpty then s1
  else profPour es (modCap s1 (fun c => { c with prof := { c.prof with ep := x, gen := g, pois := pois } }))

/-- The slot's bytes of a buffer (R229). -/
def profBytes (s : State) (b : ProfBuf) (stored : Bytes) : Bytes :=
  let d := padTo 32 stored
  toLe 4 0x50465043 ++ toLe 4 b.seq ++ toLe 8 b.epoch ++ toLe 4 (64 + d.length) ++ toLe 4 b.lost ++ toLe 2 b.gen ++
  toLe 2 (flag b.last + 2 * flag b.zip + 4 * flag b.pois) ++ toLe 4 (crc32c d) ++ toLe 8 s.rst.serial ++ zeros 24 ++ d

/-- The oldest closed buffer goes to its slot (R232). -/
def profCopy (s : State) : State :=
  let p := s.cap.prof
  match p.bufs with
  | [] => s
  | b :: _ =>
    (match b.stored with
     | none => s
     | some d =>
       if p.flying || p.halt || profFull s || mmQuiet s then s
       else mmPump (mmWriteJob (modCap (touch s 13) (fun c => { c with prof := { c.prof with flying := true } })) .profBody 0 0
         (pairBase s .capProfBase + 65536 * p.wr) (profBytes s b d)))

/-- The buffer in flight has its last completion, or is lost (R232, R234); entries that wait for a buffer go on. -/
def profDone (s : State) (err : Nat) : State :=
  let n := (s.cap.prof.bufs.head?.map (·.count)).getD 0
  let s1 := modCap s (fun c => { c with prof := { c.prof with bufs := c.prof.bufs.drop 1, flying := false } })
  let s2 := if err = 0 then modCap s1 (fun c => { c with prof := { c.prof with wr := (c.prof.wr + 1) % max 1 (rwGet s .capProfSize) } })
    else capDrop s1 .capProfLost 7 n
  if s2.cap.prof.todo.isEmpty then s2 else profPour s2.cap.prof.todo s2

/-- CMP has left a profile buffer's last chunk. -/
def profZipped (s : State) (d : Bytes) : State :=
  modCap s (fun c =>
    let bs := c.prof.bufs.modify (c.prof.bufs.findIdx (fun b => b.stored.isNone)) (fun b => { b with stored := some d })
    { c with prof := { c.prof with bufs := bs } })

/-! The epoch sample (R191, R194, R203, R222) -/

/-- Per-epoch tallies restart (R194, R207). -/
def capRestart (cyc : Nat) (c : CapU) : CapU :=
  { c with
    strobe := cyc, restart := false, join := false, poisoned := false,
    lanes := c.lanes.map (fun p => (p.1, { p.2 with delta := 0, clr := false, satD := false })),
    engines := c.engines.map (fun p => (p.1, { p.2 with idle := 0, busy := 0, stalled := 0, cmds := 0, byReason := List.replicate 16 0 })),
    optab := [], other := none, table := [], ringEp := [], groups := [],
    memStacks := c.memStacks.map (fun p => (p.1, { stkNone with lru := p.2.lru })),
    sensors := c.sensors.map (fun p => (p.1, { snsNone with quiet := p.2.quiet })),
    links := [], loss := List.replicate 8 0, rawSns := [], rawEcc := [], rawStep := [] }

/-- Every enabled engine's interval is cut (R203). -/
def engCut (s : State) (cyc : Nat) : State :=
  match capSec s with
  | some c => if c.engEn then c.engines.foldl (fun a n => engCredit a n cyc) s else s
  | none => s

/-- The figures of a ring group at the sample (R214). -/
def groupSample (c : CapU) (sec : CaptureSec) (g : Nat) : Nat × Nat × Nat × Nat × Nat :=
  let occ := (sec.rings.filter (fun p => p.2 == g)).map (fun p => lookupD c.rings p.1 0)
  let t := lookupD c.groups g (0, 0)
  (g, t.1, t.2, min 0xFFFFFFFF (sumOf occ), (occ.filter (· != 0)).length)

/-- A sensor's sample; `quiet` 1 stands for STALE (R220). -/
def snsSample (stale : Nat) (k : Sns) : Sns × Sns :=
  let q := if k.count = 0 then k.quiet + 1 else 0
  ({ k with quiet := if stale ≠ 0 ∧ stale ≤ q ∧ k.count = 0 then 1 else 0 }, { k with quiet := q })

/-- The epoch sample of `x` (R222), over the capture map in force. -/
def takeSample (s : State) (x : Nat) (b e : Stamp) (cyc : Nat) : Sample :=
  let c := s.cap
  let stale := rwEff s .capStale
  let head : Sample :=
    { epoch := x, beginAt := b, endAt := e, cycles := min 0xFFFFFFFF (cyc - c.strobe), gen := genAt s x, restart := c.restart, tstep := s.time.grid.tstep,
      join := c.join, poisoned := c.poisoned, lanes := [], engines := [], optab := [], groups := [], memStacks := [], sensors := [], links := [],
      steps := [], loss := c.loss }
  match capSec s with
  | none => head
  | some sec =>
    { head with
      lanes := sec.lanes.map (fun l => (l.lane, lookupD c.lanes l.lane laneNone)),
      engines := if sec.engEn then sec.engines.map (fun n => (n, lookupD c.engines n (engNone c.strobe))) else [],
      optab := if sec.optabEn then c.optab ++ c.other.toList else [],
      groups := if sec.ringEn then (groupsInUse sec).map (groupSample c sec) else [],
      memStacks := if sec.healthEn then sec.memStacks.map (fun p => (p.1, lookupD c.memStacks p.1 stkNone)) else [],
      sensors := if sec.healthEn then sec.sensors.map (fun n => (n, (snsSample stale (lookupD c.sensors n snsNone)).1)) else [],
      links := if sec.healthEn then sec.links.map (fun n => (n, lookupD c.links n (0, 0))) else [],
      steps := if sec.stepEn then sortBy (·.slot) c.table else [] }

/-- Captured sensors without a sample have counted one epoch more. -/
def quietSensors (s : State) : State :=
  match capSec s with
  | some sec => modCap s (fun c => { c with sensors := sec.sensors.foldl (fun t n =>
      setKey t n (snsSample 0 (lookupD t n snsNone)).2) c.sensors })
  | none => s

/-- The frozen copy of epoch `x` is taken, the tallies restart, its profile entries are written, and FEAT's queue takes the sample
(R191, R194, R224, R231). -/
def capFreeze (s : State) (x : Nat) (b e : Stamp) : State :=
  let cyc := coreCycle s
  let s1 := engCut s cyc
  let smp := takeSample s1 x b e cyc
  let es := profEntries s1
  let s2 := modCap (quietSensors s1) (fun c => capRestart cyc { c with frozen := (smp :: c.frozen).take (if roleOf s = 1 then 5 else 12) })
  let s3 := profWrite s2 es x smp.gen smp.poisoned
  let q := if roleOf s = 1 then s3.feat.queue ++ [.epoch x] else s3.feat.queue
  { s3 with feat := { s3.feat with queue := q, evSeq := 0 } }

/-- The first strobe begins an epoch and ends none (R195, R690): what the tallies held is discarded. -/
def capBegin (s : State) : State :=
  let cyc := coreCycle s
  let s1 := engCut s cyc
  let keep := (s1.cap.restart, s1.cap.join)
  { modCap s1 (fun c => { capRestart cyc c with restart := keep.1, join := keep.2 }) with feat := { s1.feat with evSeq := 0 } }

/-- The frozen copy of epoch `x`. -/
def sampleOf (s : State) (x : Nat) : Option Sample := s.cap.frozen.find? (fun p => p.epoch == x)

/-- A switch of images (R133): what the new map captures keeps its state where the old one captured it too. -/
def capRemap (s : State) : State :=
  match capSec s with
  | none => modCap s (fun c => { c with lanes := [], engines := [], rings := [], memStacks := [], sensors := [] })
  | some sec => modCap s (fun c => { c with
      lanes := c.lanes.filter (fun p => sec.lanes.any (fun l => l.lane == p.1)),
      engines := c.engines.filter (fun p => sec.engEn && sec.engines.contains p.1),
      rings := c.rings.filter (fun p => sec.ringEn && (lookup sec.rings p.1).isSome),
      memStacks := c.memStacks.filter (fun p => (lookup sec.memStacks p.1).isSome),
      sensors := c.sensors.filter (fun p => sec.sensors.contains p.1) })

/-- VALUE or DELTA of a lane in the latest frozen copy (R200). -/
def laneSnap (s : State) (n : Nat) : Nat :=
  match capSec s, s.cap.frozen with
  | some sec, f :: _ =>
    (match sec.lanes.find? (fun l => l.lane == n), lookup f.lanes n with
     | some l, some v => if l.mode = 1 then v.delta else v.value
     | _, _ => 0)
  | _, _ => 0

/-- The view may read the lane (R198). -/
def laneVisible (s : State) (n view : Nat) : Bool :=
  view == 0 || (match capSec s with
    | some sec => (match sec.lanes.find? (fun l => l.lane == n) with
      | some l => l.vis == 0 || (l.vis == 1 && l.owner == view)
      | none => false)
    | none => false)

end Sys2Proof.Machine
end

