-- ==== Sys2Proof/Machine/Trace.lean ====
section
/-!
DEFINITION. TRC: packets (R504 to R508), blocks (R509 to R511), rings (R512 to R514) and the power handshake (R75, R76, R515, R516).
-/
namespace Sys2Proof.Machine

def coreAt (s : State) (c : Nat) : TCore := s.trc.getD c coreNone

def modCore (s : State) (c : Nat) (f : TCore → TCore) : State := { s with trc := s.trc.modify c f }

/-- TRC_MAP of the active image enables the core (R225). -/
def trcEnabled (s : State) (c : Nat) : Bool :=
  match s.img.active with
  | some im => (match im.capture with
    | some x => x.traces.contains c && decide (c < s.trc.length)
    | none => false)
  | none => false

def stampLe (t : Stamp) : Bytes := toLe 6 t.sec ++ toLe 4 t.ns

/-- Staging buffers in use (R509). -/
def bufsUsed (k : TCore) : Nat :=
  (if k.cur.isSome then 1 else 0) + k.closed.length + (match k.flying with
    | some f => if f.block.isSome then 1 else 0
    | none => 0)

/-- BUSY (R535). -/
def coreBusy (k : TCore) : Bool := k.cur.isSome || !k.closed.isEmpty || k.flying.isSome

/-- The ring takes packets: a size in force and no disabling that waits (R514). -/
def ringOn (k : TCore) : Bool := k.size != 0 && k.sizeWait != some 0

/-- Bytes enter the open block. -/
def pushRaw (k : TCore) (b : Bytes) (f : TBlock → TBlock) : TCore :=
  { k with cur := k.cur.map (fun x => f { x with raw := x.raw ++ b }) }

/-- A TS packet enters the open block (R508). -/
def pushTs (s : State) (k : TCore) : TCore :=
  pushRaw { k with lastTs := some (tb0Ns s) } (0x01 :: stampLe (tb0Stamp s))
    (fun x => { x with tsOff := if x.tsOff = 0xFFFF then x.raw.length - 11 else x.tsOff })

/-- A block opens with what waits for it: OVERFLOW, then POWER_UP and its TS (R510, R516). -/
def openBlock (s : State) (k : TCore) : TCore :=
  let b : TBlock := ⟨k.bseq, tb0Stamp s, tb0Ns s, [], 0, 0, 0, false, false, 0xFFFF, 0xFFFF, (rwGet s .cmpCfg).testBit 0, false, false, false, []⟩
  let k0 := { k with cur := some b, bseq := (k.bseq + 1) % 2 ^ 32, needSync := true }
  let k1 := if k0.lostEv = 0 ∧ k0.lostMark = 0 then k0
    else { pushRaw k0 (toLe 1 2 ++ toLe 4 k0.lostEv ++ toLe 4 k0.lostIns ++ toLe 1 k0.lostMark) (fun x => { x with hasLost := true }) with
      lostEv := 0, lostIns := 0, lostMark := 0 }
  match k1.pendUp with
  | some t => pushTs s (pushRaw { k1 with pendUp := none } (0x04 :: stampLe t) (fun x => { x with hasPower := true, markers := x.markers + 1 }))
  | none => k1

/-- The open block closes: to CMP where it opened with CMP_CFG.TRC at 1, else ready for the ring (R509, R530). An empty one frees its buffer. -/
def closeBlock (s : State) (c : Nat) : State :=
  let k := coreAt s c
  match k.cur with
  | none => s
  | some b =>
    if b.raw.isEmpty then modCore s c (fun x => { x with cur := none, bseq := b.bseq })
    else
      let b1 := if b.zip then b else { b with ready := true, stored := b.raw }
      let s1 := modCore s c (fun x => { x with cur := none, closed := x.closed ++ [b1] })
      if b.zip then { s1 with cmp := { s1.cmp with queue := s1.cmp.queue ++ [⟨.trc c, b.raw⟩] } } else s1

/-- Events are lost: LOST and the next OVERFLOW (R510, R513 to R515). -/
def loseEvents (s : State) (c ev ins marks : Nat) : State :=
  let s1 := modCore s c (fun k =>
    { k with lostEv := add32 k.lostEv ev, lostIns := add32 k.lostIns ins, lostMark := satAdd 8 k.lostMark marks })
  rcAdd s1 (.trcLost c) ev

/-- Power markers are lost: TRC_MARK_LOST and the next OVERFLOW's MARKERS (R515, R516). -/
def loseMarks (s : State) (c n : Nat) : State := rcAdd (loseEvents s c 0 0 n) .trcMarkLost n

/-- An ordinary packet of at most `n` bytes has an open block to enter: the open one, or the other buffer newly opened; none when there is
no room (R509, R510). -/
def makeRoom (s : State) (c n : Nat) : Option State :=
  let k := coreAt s c
  match k.cur with
  | some b =>
    if b.raw.length + n ≤ 4032 then some s
    else if bufsUsed k < 2 then some (let s1 := closeBlock s c; modCore s1 c (openBlock s1)) else none
  | none => if bufsUsed k < 2 then some (modCore s c (openBlock s)) else none

/-- A TS is due before the core's next packet (R508). -/
def tsDue (s : State) (c : Nat) : Bool :=
  match (coreAt s c).lastTs with
  | some t => decide (t + (rwGet s .trcCfg % 1024) * 1000 ≤ tb0Ns s)
  | none => true

/-- The smallest N of R506. -/
def addrBytes (ref addr : Nat) : Nat := ((List.range 9).find? (fun n => addr / 256 ^ n == ref / 256 ^ n)).getD 8

/-- The core's next event packet is in sync form (R507). -/
def syncForm (k : TCore) (ic : Nat) : Bool := k.needSync || decide (4096 ≤ k.insns + ic)

/-- Address bytes of the core's next event packet (R506, R507). -/
def eventN (k : TCore) (addr ic : Nat) : Nat := if syncForm k ic then 8 else addrBytes k.refAddr addr

/-- An event packet enters the core's open block (R504 to R507). -/
def pushEvent (k : TCore) (kind addr ic : Nat) : TCore :=
  let sync := syncForm k ic
  let n := eventN k addr ic
  pushRaw { k with refAddr := addr, insns := if sync then 0 else k.insns + ic, needSync := false }
    (toLe 1 ((kind + 1) * 16 + n) ++ toLe 1 ic ++ toLe n addr)
    (fun x => { x with events := x.events + 1, insns := x.insns + ic,
                       syncOff := if sync && x.syncOff == 0xFFFF then x.raw.length - 10 else x.syncOff })

/-- A TS is written when it is due (R508); none when it finds no room. -/
def tsFirst (s : State) (c : Nat) : Option State :=
  if tsDue s c then (makeRoom s c 11).map (fun t => if tsDue t c then modCore t c (pushTs t) else t) else some s

/-- An event finds room after the TS that is due before it (R508, R509): in the open block at its own length, or in a new one. -/
def eventRoom (s : State) (e : TraceSlot) : Option State :=
  (tsFirst s e.core).bind (fun t => makeRoom t e.core (2 + eventN (coreAt t e.core) e.addr e.icount))

/-- One event on tip_ for core `c` (R506 to R510, R514, R515); it finds no room while TRC has not yet reached ON. -/
def traceOne (s : State) (e : TraceSlot) : State :=
  let c := e.core
  if !trcEnabled s c then rcInc s .trcDropMap
  else
    let s0 := touch s 9
    let k := coreAt s0 c
    if asleep s0 9 || !ringOn k || k.pwrReq then loseEvents s0 c 1 e.icount 0
    else
      match eventRoom s0 e with
      | some t => modCore t c (fun x => pushEvent x e.kind e.addr e.icount)
      | none => loseEvents s0 c 1 e.icount 0

/-- A write of SIZE that waited takes effect once BUSY is 0 (R514). -/
def applySize (s : State) (c : Nat) : State :=
  let k := coreAt s c
  match k.sizeWait with
  | some n =>
    if coreBusy k then s
    else rwSet (modCore s c (fun x => { x with size := n, base := pairBase s (.trcBase c), wr := 0, sizeWait := none })) (.trcRd c) 0
  | none => s

/-- SIZE is written (R514): a disabling closes the open block. -/
def sizeWrite (s : State) (c n : Nat) : State :=
  let s1 := modCore s c (fun k => { k with sizeWait := some n })
  applySize (if n = 0 then closeBlock s1 c else s1) c

/-- A buffer came free: a waiting POWER_UP opens the next block at once (R516). -/
def bufferFreed (s : State) (c : Nat) : State :=
  let k := coreAt s c
  let s1 := if k.pendUp.isSome && k.cur.isNone && decide (bufsUsed k < 2) && ringOn k then modCore s c (openBlock s) else s
  applySize s1 c

/-- A block of the core is closed by age (R509). -/
def ageClose (s : State) (c : Nat) : State :=
  match (coreAt s c).cur with
  | some b => if b.raw.isEmpty then s else closeBlock (advanceTb0 s (b.openNs + (rwGet s .trcCfg / 65536 % 1024) * 1000)) c
  | none => s

/-- The bytes of a block in the ring (R511). -/
def blockBytes (c : Nat) (b : TBlock) : Bytes :=
  padTo 32 (toLe 2 0x4B54 ++ toLe 1 c ++ toLe 1 (flag b.lz4 + 2 * flag b.hasLost + 4 * flag b.hasPower + 8 * flag b.vfail) ++ toLe 4 b.bseq ++
    toLe 2 b.raw.length ++ toLe 2 b.stored.length ++ toLe 2 b.syncOff ++ toLe 2 b.tsOff ++ stampLe b.openAt ++ zeros 2 ++
    toLe 4 (crc32c b.raw) ++ b.stored)

/-- A WRAP header (R511). -/
def wrapBytes (c bseq : Nat) : Bytes :=
  toLe 2 0x4B54 ++ toLe 1 c ++ toLe 1 16 ++ toLe 4 bseq ++ zeros 2 ++ zeros 2 ++ toLe 2 0xFFFF ++ toLe 2 0xFFFF ++ zeros 12 ++ zeros 4

/-- What R512 does with a block of `n` bytes: write it, write a WRAP header, or hold. -/
inductive RingMove where
  | block | wrap | hold
deriving DecidableEq, Repr

def ringMove (bytes wr rd n : Nat) : RingMove :=
  let free := (rd + 2 * bytes - wr - 32) % bytes
  if bytes - wr < n then (if 32 ≤ free then .wrap else .hold) else if n ≤ free then .block else .hold

/-- The oldest closed block, when CMP has left it. -/
def readyBlock (k : TCore) : Option TBlock :=
  match k.closed with
  | b :: _ => if b.ready then some b else none
  | [] => none

def coreMove (s : State) (c : Nat) (b : TBlock) : RingMove :=
  let k := coreAt s c
  ringMove (k.size * 4096) k.wr (rwGet s (.trcRd c)) (blockBytes c b).length

/-- HELD (R512, R535). -/
def coreHeld (s : State) (c : Nat) : Bool :=
  match readyBlock (coreAt s c) with
  | some b => (coreAt s c).flying.isNone && coreMove s c b == .hold
  | none => false

/-- The oldest ready block of a core, or a WRAP header before it, is written to the ring (R512). -/
def blockWrite (s : State) (c : Nat) : State :=
  let k := coreAt s c
  if k.halt || k.flying.isSome || k.size == 0 || mmQuiet s then s
  else match readyBlock k with
    | none => s
    | some b =>
      let d := blockBytes c b
      (match coreMove s c b with
       | .hold => s
       | .wrap =>
         mmPump (mmWriteJob (modCore s c (fun x => { x with flying := some ⟨none, 0⟩ })) (.trcBlock c) 0 1 (k.base + k.wr) (wrapBytes c b.bseq))
       | .block =>
         mmPump (mmWriteJob (modCore s c (fun x =>
           { x with closed := x.closed.drop 1, flying := some ⟨some b, (x.wr + d.length) % (x.size * 4096)⟩ })) (.trcBlock c) 0 1 (k.base + k.wr) d))

/-- The block in flight has its last completion (R512), or is lost with an error (R513). -/
def blockDone (s : State) (c err : Nat) : State :=
  match (coreAt s c).flying with
  | none => s
  | some f =>
    if err = 0 then bufferFreed (modCore s c (fun k => { k with flying := none, wr := f.wrTo })) c
    else
      let s1 := modCore s c (fun k => { k with flying := none, halt := true })
      let s2 := (match f.block with
        | some b => loseMarks (loseEvents s1 c b.events b.insns 0) c b.markers
        | none => s1)
      bufferFreed s2 c

/-- CMP has left the core's oldest block that was not ready. -/
def blockZipped (s : State) (c : Nat) (isLz vfail : Bool) (st : Bytes) : State :=
  modCore s c (fun k =>
    let i := k.closed.findIdx (fun b => !b.ready)
    { k with closed := k.closed.modify i (fun b => { b with ready := true, lz4 := isLz, vfail := vfail, stored := st }) })

/-- tip_pwr_req_i rises (R75, R515): a TS that is due and finds room precedes the marker (R508). With no room the marker is lost and the acknowledge waits for R76. -/
def powerDown (s : State) (c : Nat) : State :=
  let s0 := modCore s c (fun k => { k with pwrReq := true, reqAt := s.time.c })
  if s.flt.active || !trcEnabled s c then modCore s0 c (fun k => { k with pwrAck := true })
  else
    let k := coreAt s0 c
    if k.pendUp.isSome then
      modCore (loseMarks (modCore s0 c (fun x => { x with pendUp := none })) c 2) c (fun x => { x with pwrAck := true })
    else
      let s1 := if k.cur.isNone && decide (bufsUsed k < 2) && ringOn k then modCore s0 c (openBlock s0) else s0
      match (coreAt s1 c).cur with
      | some _ =>
        let s1 := (tsFirst s1 c).getD s1
        let s2 := modCore s1 c (fun x => pushRaw { x with pwrAck := true } (0x03 :: stampLe (tb0Stamp s1))
          (fun b => { b with hasPower := true, markers := b.markers + 1 }))
        closeBlock s2 c
      | none => loseMarks s1 c 1

/-- tip_pwr_req_i falls (R75, R516). -/
def powerUp (s : State) (c : Nat) : State :=
  let s0 := modCore s c (fun k => { k with pwrReq := false, pwrAck := false })
  if s.flt.active || !trcEnabled s c then s0
  else bufferFreed (modCore s0 c (fun k => { k with pendUp := some (tb0Stamp s) })) c

/-- The acknowledge that has not risen 2 µs after the request rises; what was pending is lost (R76). -/
def ackTimeout (s : State) (c : Nat) : State :=
  let k := coreAt s c
  if k.pwrAck || !k.pwrReq then s
  else
    let s0 := advanceTo s (k.reqAt + 2000)
    let s1 := (match k.cur with
      | some b => loseMarks (loseEvents (modCore s0 c (fun x => { x with cur := none })) c b.events b.insns 0) c b.markers
      | none => s0)
    modCore s1 c (fun x => { x with pwrAck := true })

/-- HALT is cleared (R513, R535). -/
def trcHaltClear (s : State) (c : Nat) : State := modCore s c (fun k => { k with halt := false })

def trcStatWord (s : State) (c : Nat) : Nat :=
  let k := coreAt s c
  flag k.pwrReq * 8 + flag (coreBusy k) * 4 + flag (coreHeld s c) * 2 + flag k.halt

end Sys2Proof.Machine
end

