-- ==== Sys2Proof/Machine/Compress.lean ====
section
/-!
DEFINITION. CMP (R530 to R534): which block it works on next, and what becomes of the block when CMP has left it.
-/
namespace Sys2Proof.Machine

def modCmp (s : State) (f : Cmp → Cmp) : State := { s with cmp := f s.cmp }

/-- Order of service (R534). -/
def zipRank : ZipOwner → Nat
  | .ercPower => 0
  | .trc _ => 1
  | .prof => 2
  | .erc => 3

/-- The block that CMP serves next: the oldest of the first stream that has one. -/
def nextZip (s : State) : Option ZipJob := (sortBy (fun j => zipRank j.owner) s.cmp.queue).head?

/-- Bytes enter a counter of whole KiB. -/
def kibAdd (s : State) (r : RcReg) (rest n : Nat) : State × Nat := (rcAdd s r ((rest + n) / 1024), (rest + n) % 1024)

/-- The counts of one block (R533, R537): the stored form is raw, or LZ4. -/
def zipCounts (s : State) (raw stored : Nat) : State :=
  let a := kibAdd (rcInc s .cmpBlocks) .cmpInKib s.cmp.inRest raw
  let b := kibAdd a.1 .cmpOutKib s.cmp.outRest stored
  modCmp b.1 (fun c => { c with inRest := a.2, outRest := b.2 })

/-- A self-check mismatch (R533): after 16 of them CMP is out of service. -/
def zipFail (s : State) : State :=
  let n := s.cmp.fails + 1
  let s1 := modCmp (rcInc s .cmpVerifyFail) (fun c => { c with fails := n, disabled := c.disabled || decide (16 ≤ n) })
  if 16 ≤ n ∧ !s.cmp.disabled then raiseFault s1 8 (locWord s1 4 11 0 0 0) else s1

/-- Chunks that the profile buffers behind the first one still have to come. -/
def laterChunks (s : State) : Nat :=
  sumOf (((s.cap.prof.bufs.filter (fun b => b.stored.isNone)).drop 1).map (fun b => ceilDiv b.data.length 4096))

/-- The block goes where its stream takes it. -/
def zipDeliver (s : State) (j : ZipJob) (isLz vfail : Bool) (stored : Bytes) : State :=
  match j.owner with
  | .trc c => blockZipped s c isLz vfail stored
  | .prof =>
    let parts := s.cmp.parts ++ cmpChunk j.raw stored isLz vfail
    if (s.cmp.queue.filter (fun k => k.owner == .prof)).length ≤ laterChunks s then profZipped (modCmp s (fun c => { c with parts := [] })) parts
    else modCmp s (fun c => { c with parts := parts })
  | _ =>
    let d := cmpChunk j.raw stored isLz vfail
    ercPump { s with erc := { s.erc with chunk := s.erc.chunk.map (fun c => { c with data := some d }) } }

/-- COMPRESS_BLOCK_DONE: the block served is compressed and checked; `mismatch` is what the self-check finds. -/
def compressDone (s : State) (mismatch : Bool) : State :=
  match nextZip s with
  | none => s
  | some j =>
    let s0 := modCmp s (fun c => { c with queue := c.queue.erase j })
    let z := lz4 j.raw
    let off := s.cmp.disabled
    let fail := mismatch && !off
    let long := decide (j.raw.length ≤ z.length)
    let stored := if off || fail || long then j.raw else z
    let s1 := zipCounts s0 j.raw.length stored.length
    let s2 := if !off && long then rcInc s1 .cmpRaw else s1
    let s3 := zipDeliver s2 j (!(off || fail || long)) fail stored
    if fail then zipFail s3 else s3

/-- CMP_STAT. -/
def cmpStatWord (s : State) : Nat := flag s.cmp.disabled

end Sys2Proof.Machine
end

