-- ==== Sys2Proof/Machine/Mem.lean ====
section
/-!
DEFINITION. MEM: the RS(19,16) code (R548 to R550), erased macros (R552, R553), the merge buffer (R554 to R557), reads and writes by port,
aliases (R545 to R547), scrub (R558, R559), injection (R567) and the self-test (R560, R561).
-/
namespace Sys2Proof.Machine

/-! GF(2^8) on 0x11D (R548) -/

/-- Multiplication by α. -/
def gfDouble (a : Nat) : Nat := if a < 128 then 2 * a else (2 * a - 256) ^^^ 0x1D

/-- The product over the bits of `b`. -/
def gfMulN : Nat → Nat → Nat → Nat
  | 0, _, _ => 0
  | n + 1, a, b => (if b % 2 = 1 then a else 0) ^^^ gfMulN n (gfDouble a) (b / 2)

def gfMul (a b : Nat) : Nat := gfMulN 8 a b

/-- α^n. -/
def gfPow : Nat → Nat
  | 0 => 1
  | n + 1 => gfDouble (gfPow n)

/-- The quotient a ÷ b for b not 0, by search. -/
def gfDiv (a b : Nat) : Nat := ((List.range 256).find? (fun q => gfMul q b == a)).getD 0

/-- One data symbol enters the division by g(x). -/
def rsStep (r : Nat × Nat × Nat) (d : Nat) : Nat × Nat × Nat :=
  let f := d ^^^ r.2.2
  (gfMul f 0x08, r.1 ^^^ gfMul f 0x0E, r.2.1 ^^^ gfMul f 0x07)

/-- The 19 symbols of a code word: C0, C1, C2, then the data bytes (R540, R548). -/
def rsEncode (d : List Nat) : List Nat :=
  let r := d.reverse.foldl rsStep (0, 0, 0)
  [r.1, r.2.1, r.2.2] ++ d

/-- A poisoned word's symbols (R550). -/
def rsPoison (d : List Nat) : List Nat :=
  match rsEncode d with
  | a :: b :: r => (a ^^^ 0xFF) :: (b ^^^ 0xFF) :: r
  | l => l

/-- Syndrome S_i. -/
def rsSyn (w : List Nat) (i : Nat) : Nat := w.foldr (fun c a => gfMul a (gfPow i) ^^^ c) 0

/-- What a read decides (R549, R553): the data, the symbols corrected with their values, uncorrectable, poisoned. -/
structure RsRead where
  data   : List Nat
  fixes  : List (Nat × Nat)
  bad    : Bool
  poison : Bool
deriving DecidableEq, Repr

def rsFix (w : List Nat) (fs : List (Nat × Nat)) : List Nat := fs.foldl (fun a f => a.modify f.1 (· ^^^ f.2)) w

/-- The corrections that the syndromes call for, `j0` the erased position. -/
def rsErrors (s0 s1 s2 : Nat) (j0 : Option Nat) : Option (List (Nat × Nat)) :=
  match j0 with
  | none => ((List.range 19).find? (fun j => s0 != 0 && s1 == gfMul s0 (gfPow j) && s2 == gfMul s1 (gfPow j))).map (fun j => [(j, s0)])
  | some j =>
    let x0 := gfPow j
    let t0 := s1 ^^^ gfMul x0 s0
    let t1 := s2 ^^^ gfMul x0 s1
    if t0 = 0 ∧ t1 = 0 then some [(j, s0)]
    else ((List.range 19).find? (fun k => k != j && t0 != 0 && t1 == gfMul t0 (gfPow k))).map (fun k =>
      let e1 := gfDiv t0 (gfPow k ^^^ x0)
      (if s0 ^^^ e1 = 0 then [] else [(j, s0 ^^^ e1)]) ++ [(k, e1)])

/-- The decision on one code word read. -/
def rsDecode (w : List Nat) (j0 : Option Nat) : RsRead :=
  let s0 := rsSyn w 0
  let s1 := rsSyn w 1
  let s2 := rsSyn w 2
  if s0 = 0 ∧ s1 = 0 ∧ s2 = 0 then ⟨w.drop 3, [], false, false⟩
  else if s0 = 0x00 ∧ s1 = 0x1C ∧ s2 = 0x24 then ⟨w.drop 3, [], false, true⟩
  else match rsErrors s0 s1 s2 j0 with
    | some fs => ⟨(rsFix w fs).drop 3, fs, false, false⟩
    | none => ⟨w.drop 3, [], true, false⟩

/-! Banks -/

def bankAt (s : State) (b : Nat) : Bank := s.mem.banks.getD b bankNone

def modBank (s : State) (b : Nat) (f : Bank → Bank) : State := { s with mem := { s.mem with banks := s.mem.banks.modify b f } }

/-- Bytes of a bank (R539). -/
def bankBytes (s : State) : Nat := 16 * Config.bankWords s.integ

/-- Bytes of the SRAM. -/
def sramBytes (s : State) : Nat := s.integ.sramMib * 1048576

/-- Where code word `i` of bank `b` begins in the store of symbols. -/
def wordAddr (s : State) (b i : Nat) : Nat := (b * Config.bankWords s.integ + i) * 19

/-- The stored symbols of a code word. -/
def rawWord (s : State) (b i : Nat) : List Nat := (memRead 0 s.mem.sram (wordAddr s b i) 19).map (·.toNat)

/-- Symbols stored as they are. -/
def storeRaw (s : State) (b i : Nat) (w : List Nat) : State :=
  { s with mem := { s.mem with sram := memWrite 0 s.mem.sram (wordAddr s b i) (w.map (BitVec.ofNat 8)) } }

/-- The symbols that an armed injection corrupts (R566, R567). -/
def injected (j : Inj) (w : List Nat) : List Nat :=
  let w1 := w.modify j.mac (· ^^^ j.mag)
  if j.two then w1.modify ((j.mac + 1) % 19) (· ^^^ j.mag) else w1

/-- A code word is written through port A (R542, R567): an armed injection of its bank strikes it, and a scrub write-back that waits
for the word is skipped (R558). -/
def writeWordA (s : State) (b i : Nat) (w : List Nat) : State :=
  let j := s.mem.inj
  let hit := j.arm && j.bank == b
  let s1 := storeRaw s b i (if hit then injected j w else w)
  let s2 := if hit then { s1 with mem := { s1.mem with inj := { j with arm := false } } } else s1
  modBank s2 b (fun k => { k with fix := k.fix.filter (· != i), rewrite := k.rewrite.filter (· != i) })

/-- A code word is written through port B. -/
def writeWordB (s : State) (b i : Nat) (w : List Nat) : State :=
  modBank (storeRaw s b i w) b (fun k => { k with rewrite := k.rewrite.filter (· != i) })

/-- The location of a correction (R551): L1 where the correcting value has one bit set, else L2. -/
def ceLoc (s : State) (b i : Nat) (f : Nat × Nat) : Nat :=
  match (List.range 8).find? (fun n => f.2 == 2 ^ n) with
  | some n => locWord s 1 12 b f.1 (8 * i + n)
  | none => locWord s 2 12 b f.1 0

/-- One correction is counted (R549, R551, R552): MEM_CE, MEM_LAST_CE, the macro's count, and the erasure that the count brings. -/
def noteFix (s : State) (b i : Nat) (f : Nat × Nat) : State :=
  let s1 := rcInc s .memCe
  let n := lookupD (bankAt s1 b).counts f.1 0 + 1
  let s2 := modBank { s1 with mem := { s1.mem with lastCe := ceLoc s b i f } } b (fun k => { k with counts := setKey k.counts f.1 n })
  let at0 := rwGet s2 .memEraseAt
  if at0 ≠ 0 ∧ at0 ≤ n ∧ (bankAt s2 b).erased = none then
    raiseFault (modBank s2 b (fun k => { k with erased := some f.1 })) 2 (locWord s2 2 12 b f.1 0)
  else s2

/-- An uncorrectable or poisoned word: MEM_LAST_UE and the fault record (R550, R551). -/
def noteUe (s : State) (b : Nat) : State :=
  let loc := locWord s 3 12 b 0 0
  raiseFault { s with mem := { s.mem with lastUe := loc } } 1 loc

/-- A read of a code word is counted and answered (R549 to R551): the decision, with the stored word. An uncorrectable word raises its
fault and, unless `keep`, waits to be rewritten poisoned (R562); a poisoned one raises it too (R550), but not where `keep` leaves that to the reader
(R557, R559). -/
def readWord (s : State) (b i : Nat) (keep : Bool) : State × RsRead :=
  let r := rsDecode (rawWord s b i) (bankAt s b).erased
  let s1 := r.fixes.foldl (fun a f => noteFix a b i f) s
  if r.poison then (if keep then rcInc s1 .memPoisonRd else noteUe (rcInc s1 .memPoisonRd) b, r)
  else if r.bad then
    let s2 := noteUe (rcInc s1 .memUe) b
    (if keep then s2 else modBank s2 b (fun k => { k with rewrite := k.rewrite.filter (· != i) ++ [i] }), r)
  else (s1, r)

/-! Merge buffer (R554 to R557) -/

/-- The entry's valid bytes laid over `d`. -/
def overlay (e : MergeEnt) (d : List Nat) : List Nat := (e.bytes.zip d).map (fun p => (p.1.map (·.toNat)).getD p.2)

def entOf (s : State) (b i : Nat) : Option MergeEnt := (bankAt s b).merge.find? (fun e => e.idx == i)

def dropEnt (s : State) (b i : Nat) : State := modBank s b (fun k => { k with merge := k.merge.filter (fun e => e.idx != i) })

/-- An entry drains: a plain write when every byte is valid, else a read-modify-write, poisoned when its read is (R555, R557). -/
def drainEnt (s : State) (b : Nat) (e : MergeEnt) : State :=
  let s0 := dropEnt s b e.idx
  if e.bytes.all (·.isSome) then writeWordA s0 b e.idx (rsEncode (overlay e (List.replicate 16 0)))
  else
    let rr := readWord (rcInc s0 .memMergeRmw) b e.idx true
    let d := overlay e rr.2.data
    if rr.2.bad then writeWordA rr.1 b e.idx (rsPoison d)
    else if rr.2.poison then noteUe (writeWordA rr.1 b e.idx (rsPoison d)) b
    else writeWordA rr.1 b e.idx (rsEncode d)

/-- The entry of a word, if any, is drained by force. -/
def drainWord (s : State) (b i : Nat) : State :=
  match entOf s b i with
  | some e => drainEnt s b e
  | none => s

/-- Every entry of every bank drains by force (R557). -/
def drainAll (s : State) : State :=
  (List.range s.mem.banks.length).foldl (fun a b => (bankAt a b).merge.foldl (fun x e => drainEnt x b e) a) s

/-- Bytes of one code word written: `o` the first byte's place in the word. -/
def putBytes (e : MergeEnt) (o : Nat) (d : Bytes) : MergeEnt :=
  { e with bytes := (List.range 16).map (fun k => if o ≤ k ∧ k < o + d.length then d[k - o]? else (e.bytes.getD k none)) }

/-- A write within one code word (R554), from any requester; an entry that a port-B write has joined drains at once (R555). -/
def writeIn (s0 : State) (portB : Bool) (b i o : Nat) (d : Bytes) : State :=
  if d.length = 16 then
    (match entOf s0 b i with
     | some e => drainEnt s0 b (putBytes e 0 d)
     | none => if portB then writeWordB s0 b i (rsEncode (d.map (·.toNat))) else writeWordA s0 b i (rsEncode (d.map (·.toNat))))
  else
    match entOf s0 b i with
    | some e =>
      let e1 := putBytes e o d
      if portB || e1.bytes.all (·.isSome) then drainEnt s0 b e1
      else modBank s0 b (fun k => { k with merge := k.merge.map (fun x => if x.idx == i then e1 else x) })
    | none =>
      let s1 := (match (bankAt s0 b).merge with
        | e :: _ => if 8 ≤ (bankAt s0 b).merge.length then drainEnt s0 b e else s0
        | [] => s0)
      modBank s1 b (fun k => { k with merge := k.merge ++ [putBytes ⟨i, List.replicate 16 none, coreCycle s1⟩ o d] })

/-- A run of bytes written to the SRAM from byte address `a`, code word by code word; `f` bounds their number. -/
def writeSpan (portB : Bool) : Nat → State → Nat → Bytes → State
  | 0, s, _, _ => s
  | f + 1, s, a, d =>
    if d.isEmpty then s
    else
      let n := min d.length (16 - a % 16)
      let s1 := if a + n ≤ sramBytes s then writeIn s portB (a / bankBytes s) (a % bankBytes s / 16) (a % 16) (d.take n) else rcInc s .memRange
      writeSpan portB f s1 (a + n) (d.drop n)

def sramWrite (s : State) (portB : Bool) (a : Nat) (d : Bytes) : State := writeSpan portB (d.length + 1) (touch s 12) a d

/-- A read within one code word; none when it is uncorrectable or poisoned. Port A lays the merge entry over it (R556); port B drains
the entry first. -/
def readIn (s : State) (portB : Bool) (b i : Nat) : State × Option (List Nat) :=
  let s0 := if portB then drainWord s b i else s
  let rr := readWord s0 b i false
  if rr.2.bad || rr.2.poison then (rr.1, none)
  else match entOf rr.1 b i with
    | some e => (rr.1, some (overlay e rr.2.data))
    | none => (rr.1, some rr.2.data)

/-- A run of bytes read from the SRAM; the flag says that every word was good. A word that is not reads as zeros, nothing of it leaves. -/
def readSpan (portB : Bool) : Nat → State → Nat → Nat → State × Bytes × Bool
  | 0, s, _, _ => (s, [], true)
  | f + 1, s, a, n =>
    if n = 0 then (s, [], true)
    else
      let k := min n (16 - a % 16)
      let r := if a + k ≤ sramBytes s then readIn s portB (a / bankBytes s) (a % bankBytes s / 16)
        else (rcInc s .memRange, some (List.replicate 16 0))
      let d : Bytes := (match r.2 with
        | some w => ((w.drop (a % 16)).take k).map (BitVec.ofNat 8)
        | none => zeros k)
      let t := readSpan portB f r.1 (a + k) (n - k)
      (t.1, d ++ t.2.1, r.2.isSome && t.2.2)

def sramRead (s : State) (portB : Bool) (a n : Nat) : State × Bytes × Bool := readSpan portB (n + 1) (touch s 12) a n

/-- One 32-bit word of an alias write (R545 to R547): OR (set) or AND with the complement (clear); nothing is written where the read fails. -/
def aliasWord (s : State) (setBits : Bool) (a v : Nat) : State × Bool :=
  if a + 4 ≤ sramBytes s then
    let b := a / bankBytes s
    let i := a % bankBytes s / 16
    let rr := readWord (drainWord s b i) b i false
    if rr.2.bad || rr.2.poison then (rr.1, false)
    else
      let o := a % 16
      let old := rr.2.data
      let new := (List.range 16).map (fun k => if o ≤ k ∧ k < o + 4 then
        (let m := v / 2 ^ (8 * (k - o)) % 256
         if setBits then old.getD k 0 ||| m else old.getD k 0 &&& (255 - m)) else old.getD k 0)
      (writeWordB rr.1 b i (rsEncode new), true)
  else (rcInc s .memRange, true)

/-- Alias writes of a run of bytes, a multiple of 4. -/
def aliasSpan (setBits : Bool) : Nat → State → Nat → Bytes → State × Bool
  | 0, s, _, _ => (s, true)
  | f + 1, s, a, d =>
    if d.isEmpty then (s, true)
    else
      let r := aliasWord s setBits a (leNat (d.take 4))
      if r.2 then aliasSpan setBits f r.1 (a + 4) (d.drop 4) else r

/-! Scrub, rewriting and injection -/

/-- TB2 ns, times the bank's words, between two scrub reads of a bank (R558). -/
def scrubPace (s : State) : Nat := rwGet s .memScrubHours * 3600 * 10 ^ 9

/-- The scrub reads a bank's next code word when its pace makes it due (R558, R559). -/
def scrubRead (s : State) (b : Nat) : State :=
  if s.mem.banks.length ≤ b then s
  else
    let k0 := bankAt s b
    let i := k0.scrub
    let n := Config.bankWords s.integ
    let s0 := touch (advanceTb2 s (ceilDiv k0.dueAt n)) 12
    let s1 := if k0.dueAt + 256 * scrubPace s0 ≤ tb2Ns s0 * n then { s0 with mem := { s0.mem with late := true } } else s0
    let rr := readWord (drainWord s1 b i) b i true
    let s2 := if rr.2.bad then rcInc (writeWordB rr.1 b i (rsPoison rr.2.data)) .memScrubFix
      else if rr.2.fixes.isEmpty then rr.1
      else modBank rr.1 b (fun k => { k with fix := k.fix.filter (· != i) ++ [i] })
    let last := decide (n ≤ i + 1)
    modBank s2 b (fun k => { k with
      scrub := if last then 0 else i + 1, counts := if last then [] else k.counts, passes := if last then satAdd 16 k.passes 1 else k.passes,
      dueAt := k0.dueAt + scrubPace s0 })

/-- The oldest word that needed correction is written back (R558, R559). -/
def scrubWriteback (s : State) (b : Nat) : State :=
  match (bankAt s b).fix with
  | [] => s
  | i :: rest =>
    let d := (rsDecode (rawWord s b i) (bankAt s b).erased).data
    rcInc (modBank (storeRaw s b i (rsEncode d)) b (fun k => { k with fix := rest })) .memScrubFix

/-- The oldest uncorrectable word of a bank is rewritten poisoned (R562). -/
def poisonRewriteOp (s : State) (b : Nat) : State :=
  match (bankAt s b).rewrite with
  | [] => s
  | i :: _ => writeWordA s b i (rsPoison ((rawWord s b i).drop 3))

/-- PASSES (R566): passes that every bank has completed. -/
def scrubPasses (s : State) : Nat := (s.mem.banks.map (·.passes)).foldl min (if s.mem.banks.isEmpty then 0 else 0xFFFF)

/-- A write of MEM_INJ (R566): ignored while ARM is 1; a position beyond 18 or a value of 0 disarms. -/
def injWrite (s : State) (d : Nat) : State :=
  if s.mem.inj.arm then s
  else
    let m := d / 2 ^ 20 % 32
    let g := d % 256
    { s with mem := { s.mem with inj := ⟨d.testBit 31 && decide (m ≤ 18) && g != 0, d.testBit 30, d / 2 ^ 25 % 32, m, g⟩ } }

def injWord (j : Inj) : Nat := flag j.arm * 2 ^ 31 + flag j.two * 2 ^ 30 + j.bank * 2 ^ 25 + j.mac * 2 ^ 20 + j.mag

/-- MEM_BANK_STAT of the selected bank (R566). -/
def bankStatWord (s : State) : Nat :=
  let n := rwGet s .memBankSel
  if s.mem.banks.length ≤ n then 0
  else
    let b := bankAt s n
    flag b.erased.isSome * 2 ^ 31 + (b.erased.getD 0) * 2 ^ 16 + (b.counts.map (·.2)).foldl (fun a c => max a (min c 0xFFFF)) 0

/-- A write of 1 to ERASED ends the erasure (R553). -/
def erasureEndOp (s : State) : State := modBank s (rwGet s .memBankSel) (fun k => { k with erased := none })

/-- The self-test leaves word 0 of each bank as it was, written poisoned when its first read was uncorrectable (R560); it counts nothing. -/
def selfTestWords (s : State) : State :=
  (List.range s.mem.banks.length).foldl (fun a b =>
    let r := rsDecode (rawWord a b 0) (bankAt a b).erased
    storeRaw a b 0 (if r.bad || r.poison then rsPoison r.data else rsEncode r.data)) s

end Sys2Proof.Machine
end

