-- ==== Sys2Proof/Machine/Deliver.lean ====
section
/-!
DEFINITION. Tenant views' host windows and delivery rings (R632 to R638): the slot of a record's own fields, its staged write (R314) and the
interrupt that follows.
-/
namespace Sys2Proof.Machine

def viewNone : View := ⟨0, false, none, none, [], 0, 0, 0, [], 0⟩

def viewAt (s : State) (v : Nat) : View := lookupD s.host.views v viewNone

def modView (s : State) (v : Nat) (f : View → View) : State := { s with host := { s.host with views := modKey s.host.views v viewNone f } }

/-- `n` bytes at `a` lie inside the view's host window. -/
def inWindowOf (w : View) (a n : Nat) : Bool :=
  match w.ent with
  | some e => decide (e.hbase ≤ a) && decide (a + n ≤ e.hbase + e.hsize)
  | none => false

/-- SLOTS and the slot's bytes of a delivery ring; 0 slots where it is off or lies outside the view's window (R636). -/
def dlvRing (s : State) (v : Nat) : Nat × Nat :=
  let c := rwGet s (.dlvCfg v)
  let slots := c / 65536 % 4096
  let size := c % 256 * 1024
  if inWindowOf (viewAt s v) (pairBase s (.dlvBase v)) (slots * size) then (slots, size) else (0, size)

/-- A delivery slot's bytes with SEQ 0 (R637), its fields written least significant byte first (R313). -/
def dlvSlot (epoch gen : Nat) (fs : List (Nat × Field)) : Bytes :=
  let body := (fs.map (fun p => fieldBytes toLe p.1 p.2)).flatten
  let head (crc : Nat) : Bytes := toLe 8 epoch ++ toLe 2 gen ++ toLe 2 fs.length ++ toLe 4 body.length ++ toLe 4 crc ++ zeros 4
  zeros 8 ++ head (crc32c (head 0 ++ body)) ++ body

/-- The oldest slot that waits starts its staged write: SEQ = 0 first (R314). -/
def dlvStart (s : State) (v : Nat) : State :=
  let w := viewAt s v
  let r := dlvRing s v
  let a := pairBase s (.dlvBase v) + w.dlvWr * r.2
  if w.dlvQ.isEmpty || (mmJobOf s (.dlvZero v)).isSome || (mmJobOf s (.dlvBody v)).isSome || (mmJobOf s (.dlvSeq v)).isSome || r.1 == 0 then s
  else mmPump (mmWriteJob s (.dlvZero v) 0 3 a (zeros 8))

/-- A view's slot of the node's own record, when it holds fields that the view owns (R637). -/
def dlvOne (epoch gen : Nat) (owned : List (Nat × Nat × Field)) (s : State) (v : Nat) : State :=
  let w := viewAt s v
  let fs := (owned.filter (fun p => p.1 == v)).map (·.2)
  let on := (match w.ent with
    | some e => e.deliver
    | none => false)
  let r := dlvRing s v
  if !on || fs.isEmpty || r.1 == 0 || w.st == 0 || w.st == 3 then s
  else
    let b := dlvSlot epoch gen fs
    let full := (w.dlvWr + w.dlvQ.length + 1) % r.1 == rwGet s (.dlvRd v) % r.1
    if w.st = 2 ∨ full ∨ r.2 < b.length then rcInc s (.tenDlvSkip v)
    else dlvStart (modView s v (fun k => { k with dlvQ := k.dlvQ ++ [b] })) v

/-- The record's fields go to the views that own them (R637). -/
def deliverAll (s : State) (sch : SchemaSec) (r : Record) : State :=
  let owned := (((List.range sch.fields.length).zip (sch.fields.zip r.fields)).map (fun p => (p.2.1.owner, p.1, p.2.2))).filter (fun p => p.1 != 0)
  (s.host.views.map (·.1)).foldl (dlvOne r.epoch r.gen owned) s

/-- The next interrupt write that waits is issued, one at a time. -/
def irqStart (s : State) (v : Nat) : State :=
  let a := pairBase s (.tenIrqAddr v)
  if (viewAt s v).irqs = 0 ∨ (mmJobOf s (.viewIrq v)).isSome then s
  else mmPump (mmWriteJob s (.viewIrq v) 1 3 a (toLe 4 (rwGet s (.tenIrqData v))))

/-- A tenant's interrupt: a write of TEN_IRQ_DATA to TEN_IRQ_ADDR (R638). -/
def tenantIrq (s : State) (v : Nat) : State :=
  if inWindowOf (viewAt s v) (pairBase s (.tenIrqAddr v)) 4 then irqStart (modView s v (fun k => { k with irqs := k.irqs + 1 })) v else s

/-- An interrupt write has its completion. -/
def irqDone (s : State) (v : Nat) : State := irqStart (modView s v (fun k => { k with irqs := k.irqs - 1 })) v

/-- A stage of the slot's write has its completions (R314). An error ends the write and leaves the slot out. -/
def dlvStage (s : State) (v stage err : Nat) : State :=
  let w := viewAt s v
  let r := dlvRing s v
  let a := pairBase s (.dlvBase v) + w.dlvWr * r.2
  match w.dlvQ with
  | [] => s
  | b :: rest =>
    if err ≠ 0 then dlvStart (rcInc (modView s v (fun k => { k with dlvQ := rest })) (.tenDlvSkip v)) v
    else if stage = 0 then mmPump (mmWriteJob s (.dlvBody v) 0 3 (a + 8) (b.drop 8))
    else if stage = 1 then mmPump (mmWriteJob s (.dlvSeq v) 0 3 a (toLe 8 (w.dlvSeq + 1)))
    else
      let s1 := modView s v (fun k => { k with dlvQ := rest, dlvSeq := k.dlvSeq + 1, dlvWr := (k.dlvWr + 1) % max 1 r.1 })
      dlvStart (if (rwGet s (.tenIrqCfg v)).testBit 1 then tenantIrq s1 v else s1) v

end Sys2Proof.Machine
end

