-- ==== Sys2Proof/Machine/Sign.lean ====
section
/-!
DEFINITION. The signature trailer (R655, R656): SHA-384, the curve P-384 and ECDSA verification. The manual names these functions and does
not lay them out; they follow FIPS 180-4 and FIPS 186-5 (PRESUMED, see the assumption log).
-/
namespace Sys2Proof.Machine

/-! SHA-384 over 64-bit words -/

def w64 (n : Nat) : Nat := n % 2 ^ 64
def rotr (n x : Nat) : Nat := w64 (x / 2 ^ n + x * 2 ^ (64 - n))
def not64 (x : Nat) : Nat := 2 ^ 64 - 1 - x
def bigSigma0 (x : Nat) : Nat := rotr 28 x ^^^ rotr 34 x ^^^ rotr 39 x
def bigSigma1 (x : Nat) : Nat := rotr 14 x ^^^ rotr 18 x ^^^ rotr 41 x
def smallSigma0 (x : Nat) : Nat := rotr 1 x ^^^ rotr 8 x ^^^ x / 2 ^ 7
def smallSigma1 (x : Nat) : Nat := rotr 19 x ^^^ rotr 61 x ^^^ x / 2 ^ 6

/-- The round constants: the first 64 fraction bits of the cube roots of the first 80 primes. -/
def shaConsts : List Nat :=
  [0x428A2F98D728AE22, 0x7137449123EF65CD, 0xB5C0FBCFEC4D3B2F, 0xE9B5DBA58189DBBC, 0x3956C25BF348B538] ++
  [0x59F111F1B605D019, 0x923F82A4AF194F9B, 0xAB1C5ED5DA6D8118, 0xD807AA98A3030242, 0x12835B0145706FBE] ++
  [0x243185BE4EE4B28C, 0x550C7DC3D5FFB4E2, 0x72BE5D74F27B896F, 0x80DEB1FE3B1696B1, 0x9BDC06A725C71235] ++
  [0xC19BF174CF692694, 0xE49B69C19EF14AD2, 0xEFBE4786384F25E3, 0x0FC19DC68B8CD5B5, 0x240CA1CC77AC9C65] ++
  [0x2DE92C6F592B0275, 0x4A7484AA6EA6E483, 0x5CB0A9DCBD41FBD4, 0x76F988DA831153B5, 0x983E5152EE66DFAB] ++
  [0xA831C66D2DB43210, 0xB00327C898FB213F, 0xBF597FC7BEEF0EE4, 0xC6E00BF33DA88FC2, 0xD5A79147930AA725] ++
  [0x06CA6351E003826F, 0x142929670A0E6E70, 0x27B70A8546D22FFC, 0x2E1B21385C26C926, 0x4D2C6DFC5AC42AED] ++
  [0x53380D139D95B3DF, 0x650A73548BAF63DE, 0x766A0ABB3C77B2A8, 0x81C2C92E47EDAEE6, 0x92722C851482353B] ++
  [0xA2BFE8A14CF10364, 0xA81A664BBC423001, 0xC24B8B70D0F89791, 0xC76C51A30654BE30, 0xD192E819D6EF5218] ++
  [0xD69906245565A910, 0xF40E35855771202A, 0x106AA07032BBD1B8, 0x19A4C116B8D2D0C8, 0x1E376C085141AB53] ++
  [0x2748774CDF8EEB99, 0x34B0BCB5E19B48A8, 0x391C0CB3C5C95A63, 0x4ED8AA4AE3418ACB, 0x5B9CCA4F7763E373] ++
  [0x682E6FF3D6B2B8A3, 0x748F82EE5DEFB2FC, 0x78A5636F43172F60, 0x84C87814A1F0AB72, 0x8CC702081A6439EC] ++
  [0x90BEFFFA23631E28, 0xA4506CEBDE82BDE9, 0xBEF9A3F7B2C67915, 0xC67178F2E372532B, 0xCA273ECEEA26619C] ++
  [0xD186B8C721C0C207, 0xEADA7DD6CDE0EB1E, 0xF57D4F7FEE6ED178, 0x06F067AA72176FBA, 0x0A637DC5A2C898A6] ++
  [0x113F9804BEF90DAE, 0x1B710B35131C471B, 0x28DB77F523047D84, 0x32CAAB7B40C72493, 0x3C9EBE0A15C9BEBC] ++
  [0x431D67C49C100D4C, 0x4CC5D4BECB3E42B6, 0x597F299CFC657E2A, 0x5FCB6FAB3AD6FAEC, 0x6C44198C4A475817]

/-- The initial hash value of SHA-384. -/
def shaInit : List Nat :=
  [0xCBBB9D5DC1059ED8, 0x629A292A367CD507, 0x9159015A3070DD17, 0x152FECD8F70E5939,
   0x67332667FFC00B31, 0x8EB44A8768581511, 0xDB0C2E0D64F98FA7, 0x47B5481DBEFA4FA4]

/-- The message schedule extended to 80 words; the newest word first. -/
def shaSchedule : Nat → List Nat → List Nat
  | 0, w => w
  | n + 1, w => shaSchedule n (w64 (smallSigma1 (w.getD 1 0) + w.getD 6 0 + smallSigma0 (w.getD 14 0) + w.getD 15 0) :: w)

/-- One round on the working variables a to h. -/
def shaRound (v : List Nat) (kw : Nat × Nat) : List Nat :=
  match v with
  | [a, b, c, d, e, f, g, h] =>
    let t1 := h + bigSigma1 e + ((e &&& f) ^^^ (not64 e &&& g)) + kw.1 + kw.2
    let t2 := bigSigma0 a + ((a &&& b) ^^^ (a &&& c) ^^^ (b &&& c))
    [w64 (t1 + t2), a, b, c, w64 (d + t1), e, f, g]
  | l => l

/-- One block of 128 bytes. -/
def shaBlock (h : List Nat) (b : Bytes) : List Nat :=
  let w := (shaSchedule 64 ((List.range 16).map (fun i => beAt b (8 * i) 8)).reverse).reverse
  ((h.zip ((shaConsts.zip w).foldl shaRound h)).map (fun p => w64 (p.1 + p.2)))

/-- The padded message. -/
def shaPad (m : Bytes) : Bytes := m ++ [0x80] ++ zeros ((111 + 128 - m.length % 128) % 128) ++ toBe 16 (8 * m.length)

def shaBlocks : Nat → List Nat → Bytes → List Nat
  | 0, h, _ => h
  | n + 1, h, b => shaBlocks n (shaBlock h (b.take 128)) (b.drop 128)

/-- SHA-384: 48 bytes. -/
def sha384 (m : Bytes) : Bytes :=
  let p := shaPad m
  ((shaBlocks (p.length / 128) shaInit p).take 6).flatMap (toBe 8)

/-! The curve P-384 -/

def ecP : Nat := 2 ^ 384 - 2 ^ 128 - 2 ^ 96 + 2 ^ 32 - 1
def ecB : Nat := 0xB3312FA7E23EE7E4988E056BE3F82D19181D9C6EFE8141120314088F5013875AC656398D8A2ED19D2A85C8EDD3EC2AEF
def ecN : Nat := 0xFFFFFFFFFFFFFFFFFFFFFFFFFFFFFFFFFFFFFFFFFFFFFFFFC7634D81F4372DDF581A0DB248B0A77AECEC196ACCC52973
def ecGx : Nat := 0xAA87CA22BE8B05378EB1C71EF320AD746E1D3B628BA79B9859F741E082542A385502F25DBF55296C3A545E3872760AB7
def ecGy : Nat := 0x3617DE4A96262C6F5D9E98BF9292DC29F8F41DBD289A147CE9DA3113B5F0B8C00A60B1CE1D7E819D7A431D7C90EA0E5F

/-- `a` to the power `e` modulo `m`, over the low `n` bits of `e`. -/
def powMod : Nat → Nat → Nat → Nat → Nat
  | 0, _, _, m => 1 % m
  | n + 1, a, e, m => (if e % 2 = 1 then a else 1) * powMod n (a * a % m) (e / 2) m % m

/-- The inverse modulo a prime. -/
def invMod (a m : Nat) : Nat := powMod 384 (a % m) (m - 2) m

/-- A difference modulo `m`. -/
def subMod (a b m : Nat) : Nat := (a + m - b % m) % m

/-- A point of the curve; none is the point at infinity. -/
abbrev EcPoint := Option (Nat × Nat)

def ecAdd (a b : EcPoint) : EcPoint :=
  match a, b with
  | none, q => q
  | p, none => p
  | some (x1, y1), some (x2, y2) =>
    let chord (l : Nat) : EcPoint :=
      let x3 := subMod (l * l) (x1 + x2) ecP
      some (x3, subMod (l * subMod x1 x3 ecP) y1 ecP)
    if x1 = x2 then
      if (y1 + y2) % ecP = 0 then none
      else chord ((3 * x1 * x1 + ecP - 3) * invMod (2 * y1) ecP % ecP)
    else chord (subMod y2 y1 ecP * invMod (subMod x2 x1 ecP) ecP % ecP)

/-- `k` times a point, over the low `n` bits of `k`. -/
def ecMul : Nat → Nat → EcPoint → EcPoint
  | 0, _, _ => none
  | n + 1, k, p => ecAdd (if k % 2 = 1 then p else none) (ecMul n (k / 2) (ecAdd p p))

def onCurve (x y : Nat) : Bool := decide (x < ecP) && decide (y < ecP) && y * y % ecP == (x * x * x + (ecP - 3) * x + ecB) % ecP

/-- ECDSA verification of (r, s) over the digest `z`. -/
def ecdsaOk (qx qy r s z : Nat) : Bool :=
  if !(onCurve qx qy && decide (1 ≤ r) && decide (r < ecN) && decide (1 ≤ s) && decide (s < ecN)) then false
  else
    let w := invMod s ecN
    match ecAdd (ecMul 384 (z * w % ecN) (some (ecGx, ecGy))) (ecMul 384 (r * w % ecN) (some (qx, qy))) with
    | some (x, _) => x % ecN == r
    | none => false

/-! The trailer -/

/-- The trailer's size. -/
def trailerLen : Nat := 224

/-- The anchor admits items: neither all zeros nor all ones (R92). -/
def keyUsable (anchor : Nat) : Bool := anchor != 0 && anchor != 2 ^ 384 - 1

/-- The trailer of the item whose bytes are `b` passes against the key anchor (R656). -/
def trailerOk (anchor : Nat) (b : Bytes) : Bool :=
  let off := b.length - trailerLen
  let t := b.drop off
  let qx := sliceOf t 0x10 48
  let qy := sliceOf t 0x40 48
  decide (trailerLen ≤ b.length) && leAt t 0 4 == 0x54474953 && leAt t 4 4 == off && off % 16 == 0 &&
  beNat (sha384 (4 :: qx ++ qy)) == anchor &&
  ecdsaOk (beNat qx) (beNat qy) (beNat (sliceOf t 0x70 48)) (beNat (sliceOf t 0xA0 48)) (beNat (sha384 (b.take (off + 0x70))))

end Sys2Proof.Machine
end

