-- ==== Sys2Proof/Machine/Bundle.lean ====
section
/-!
DEFINITION. The model bundle (R395 to R398): its reading, and the checks of R401 with the structure rules of R357 to R365 and R387.
-/
namespace Sys2Proof.Machine

/-! The parts -/

def bunBytes (b : Bytes) (o n : Nat) : Nat := leAt b o n
def bunTrees (b : Bytes) : Nat := leAt b 0x10 2
def bunFeats (b : Bytes) : Nat := leAt b 0x12 2
def bunEntries (b : Bytes) : Nat := leAt b 0x14 4
def bunFeatOff (b : Bytes) : Nat := leAt b 0x20 4
def bunTreeOff (b : Bytes) : Nat := leAt b 0x24 4
def bunHeadOff (b : Bytes) : Nat := leAt b 0x28 4
def bunEntOff (b : Bytes) : Nat := leAt b 0x2C 4

/-- Entry `i` of the entry array (R398). -/
def bunEnt (b : Bytes) (i : Nat) : Ent :=
  let o := bunEntOff b + 32 * i
  ⟨leAt b o 8, leAt b (o + 8) 8, leAt b (o + 16) 8, leAt b (o + 24) 4⟩

/-- Tree record `t` (R364). -/
def bunTree (b : Bytes) (t : Nat) : Tree :=
  let o := bunTreeOff b + 16 * t
  ⟨leAt b o 4 / 2 ^ 28 % 4, leAt b o 4 % 2 ^ 18, byteAt b (o + 4), (byteAt b (o + 5)).testBit 0, leAt b (o + 8) 4⟩

/-- The head block (R387). -/
def bunHead (b : Bytes) : Head :=
  let o := bunHeadOff b
  { head := byteAt b o, outs := byteAt b (o + 1), trees := leAt b (o + 4) 2, cnorm := leAt b (o + 8) 4,
    base := (List.range 16).map (fun i => leAt b (o + 0x10 + 4 * i) 4), bias := (List.range 16).map (fun i => leAt b (o + 0x50 + 4 * i) 4),
    w := (List.range 256).map (fun i => leAt b (o + 0x90 + 4 * i) 4) }

/-- Feature table entry `i` (R397): INDEX and HASH. -/
def bunFeat (b : Bytes) (i : Nat) : Nat × Nat :=
  let o := bunFeatOff b + 8 * i
  (leAt b o 2, leAt b (o + 4) 4)

/-! Words (R359 to R363) -/

def nodeUsed (n : Nat) : Bool := n.testBit 31
def nodeFeat (n : Nat) : Nat := n / 65536 % 4096

/-- An unused entry (R362). -/
def entNone : Ent := ⟨0, 2 ^ 63, 0, 0⟩

def entValid (e : Ent) : Bool := e.value.testBit 63

/-- Entries of a pad by its SIZE code (R363). -/
def padEntries (size : Nat) : Nat := 16 * 2 ^ size

/-- KIND, SIZE and the 32-bit VALUE of a payload. -/
def payKind (p : Nat) : Nat := p / 2 ^ 62
def paySize (p : Nat) : Nat := p / 2 ^ 60 % 4
def payValue (p : Nat) : Nat := p % 2 ^ 32

def finite32 (v : Nat) : Bool := fisFinite f32 v

/-- R359 for one node slot. -/
def nodeOk (n : Nat) : Bool :=
  if nodeUsed n then n / 2 ^ 28 % 4 == 0 && decide (1 ≤ n % 65536) && decide (n % 65536 ≤ 0xFFFE) else n == 0

/-- R363 for the payload of a valid entry. -/
def payOk (p : Nat) : Bool :=
  p / 2 ^ 32 % 2 ^ 28 == 0 &&
  (match payKind p with
   | 0 => decide (paySize p ≤ 2) && decide (payValue p < 2 ^ 18)
   | 1 => paySize p == 0 && finite32 (payValue p)
   | _ => false)

/-! A pad (R357, R362, R365) -/

/-- The entries of the pad at `base`. -/
def padEnts (get : Nat → Ent) (size base : Nat) : List Ent := (List.range (padEntries size)).map (fun k => get (base + k))

/-- Care bits of an entry, bit 63 aside. -/
def careBits (e : Ent) : Nat := e.mask % 2 ^ 63

/-- A valid entry cares about at most 6 used nodes of its pad. -/
def entryFits (pad : List Ent) (e : Ent) : Bool :=
  e.mask.testBit 63 && decide (popCount 63 (careBits e) ≤ 6) &&
  (setBits 63 (careBits e)).all (fun k => match pad[k]? with
    | some x => nodeUsed x.node && decide (k + 1 < pad.length)
    | none => false) && payOk e.payload

/-- Two valid entries disagree on a node that both care about. -/
def entriesApart (a b : Ent) : Bool := (careBits a &&& careBits b) &&& (a.value ^^^ b.value) != 0

def pairsApart : List Ent → Bool
  | [] => true
  | e :: es => es.all (entriesApart e) && pairsApart es

/-- A pad within the model's local space obeys R357, R362 and R363, and partitions its decision space (R365). -/
def padOk (entries : Nat) (get : Nat → Ent) (size base : Nat) : Bool :=
  let b := padEntries size
  let pad := padEnts get size base
  let valid := pad.filter entValid
  decide (size ≤ 2) && base % b == 0 && decide (base + b ≤ entries) &&
  (match pad.getLast? with
   | some x => x.node == 0
   | none => false) &&
  pad.all (fun e => entValid e || (e.value == 0 && e.mask == 2 ^ 63 && e.payload == 0)) &&
  valid.all (entryFits pad) && pairsApart valid && sumOf (valid.map (fun e => 2 ^ (6 - popCount 63 (careBits e)))) == 64

/-- The pads that the pad's valid entries name. -/
def padNexts (get : Nat → Ent) (size base : Nat) : List (Nat × Nat) :=
  ((padEnts get size base).filter (fun e => entValid e && payKind e.payload == 0)).map (fun e => (paySize e.payload, payValue e.payload % 2 ^ 18))

/-- The pads of a subtree with its depth in pads, at most `fuel` deep; none where a pad breaks its rules or lies deeper. -/
def treePads (entries : Nat) (get : Nat → Ent) : Nat → Nat → Nat → Option (List (Nat × Nat) × Nat)
  | 0, _, _ => none
  | f + 1, size, base =>
    if !padOk entries get size base then none
    else
      let subs := (padNexts get size base).map (fun p => treePads entries get f p.1 p.2)
      if subs.all (·.isSome) then
        let l := subs.filterMap id
        some ((size, base) :: (l.map (·.1)).flatten, 1 + (l.map (·.2)).foldl max 0)
      else none

/-- Every entry index the pads cover. -/
def padCover (ps : List (Nat × Nat)) : List Nat := (ps.map (fun p => (List.range (padEntries p.1)).map (· + p.2))).flatten

def strictlyUp : List Nat → Bool
  | a :: b :: r => decide (a < b) && strictlyUp (b :: r)
  | _ => true

/-! The checks (R401), each code where it fails -/

def headOk (h : Head) (b : Bytes) : Bool :=
  let o := bunHeadOff b
  let outsOk := if h.head = 3 then decide (2 ≤ h.outs ∧ h.outs ≤ 16) else decide (1 ≤ h.outs ∧ h.outs ≤ 16)
  decide (1 ≤ h.head ∧ h.head ≤ 5) && outsOk && decide (1 ≤ h.trees ∧ h.trees ≤ 4096) && leAt b (o + 2) 2 == 0 && leAt b (o + 6) 2 == 0 &&
  leAt b (o + 12) 4 == 0 &&
  (if h.head = 4 then finite32 h.cnorm && flt f32 0 h.cnorm else h.cnorm == 0) &&
  (h.base.take h.outs).all finite32 && (h.base.drop h.outs).all (· == 0) &&
  (if h.head = 5 then h.bias.all finite32 && h.w.all finite32 else h.bias.all (· == 0) && h.w.all (· == 0))

def treeRecOk (h : Head) (b : Bytes) (t : Nat) : Bool :=
  let o := bunTreeOff b + 16 * t
  let root := leAt b o 4
  root / 2 ^ 30 == 0 && root / 2 ^ 18 % 2 ^ 10 == 0 && decide (root / 2 ^ 28 % 4 ≤ 2) && decide (byteAt b (o + 4) < h.outs) && byteAt b (o + 5) == 0 &&
  leAt b (o + 6) 2 == 0 && finite32 (leAt b (o + 8) 4) && leAt b (o + 12) 4 == 0

/-- The header's own rules and the order of the parts (R396); `cam` the instance's associative memory. -/
def bunLayoutOk (cam : Nat) (b : Bytes) : Bool :=
  let n := bunEntries b
  let fo := bunFeatOff b
  let tro := bunTreeOff b
  let ho := bunHeadOff b
  let eo := bunEntOff b
  let fe := fo + 8 * bunFeats b
  let te := tro + 16 * bunTrees b
  let he := ho + 1168
  let ee := eo + 32 * n
  let tr := b.length - trailerLen
  let gap (a z : Nat) : Bool := allZero (sliceOf b a (z - a))
  byteAt b 7 == 0 && leAt b 8 4 != 0 && leAt b 8 4 != 0xFFFFFFFF && decide (1 ≤ bunFeats b ∧ bunFeats b ≤ 4096) &&
  n % 64 == 0 && decide (64 ≤ n) && decide (n ≤ cam) && leAt b 0x1C 4 == 0 && leAt b 0x3C 4 == 0 && b.length % 16 == 0 &&
  fo % 16 == 0 && tro % 16 == 0 && ho % 16 == 0 && eo % 16 == 0 && decide (64 ≤ fo) && decide (fe ≤ tro) && decide (te ≤ ho) && decide (he ≤ eo) &&
  decide (ee ≤ tr) && gap 64 fo && gap fe tro && gap te ho && gap he eo && gap ee tr

/-- The feature table is in strictly ascending INDEX, with its zero bytes (R397). -/
def bunTableOk (b : Bytes) : Bool :=
  let l := List.range (bunFeats b)
  strictlyUp (l.map (fun i => (bunFeat b i).1)) && l.all (fun i => leAt b (bunFeatOff b + 8 * i + 2) 2 == 0)

/-- FEATURE (R397). -/
def bunFeatureOk (fs : FeatureSec) (b : Bytes) : Bool :=
  let tab := (List.range (bunFeats b)).map (bunFeat b)
  let cls := byteAt b 6
  (List.range (bunEntries b)).all (fun i =>
    let n := (bunEnt b i).node
    !nodeUsed n || tab.any (fun e => e.1 == nodeFeat n)) &&
  tab.all (fun e => match fs.feats[e.1]? with
    | some f => f.hash == e.2 && f.cls == cls
    | none => false)

/-- The feature table and the entries lie within the bundle, so that R397 can be judged (DEDUCED, log entry 127). -/
def bunReadable (b : Bytes) : Bool :=
  decide (bunFeatOff b + 8 * bunFeats b + trailerLen ≤ b.length) && decide (bunEntOff b + 32 * bunEntries b + trailerLen ≤ b.length)

/-- STRUCTURE (R365, R387, R396, R398). -/
def bunStructureOk (cam : Nat) (b : Bytes) : Bool :=
  let n := bunEntries b
  let h := bunHead b
  let ts := (List.range (bunTrees b)).map (bunTree b)
  let pads := ts.map (fun t => treePads n (bunEnt b) 5 t.size t.base)
  let cover := padCover ((pads.filterMap id).map (·.1)).flatten
  bunLayoutOk cam b && bunTableOk b && headOk h b && h.trees == bunTrees b && (List.range (bunTrees b)).all (treeRecOk h b) &&
  (List.range n).all (fun i => nodeOk (bunEnt b i).node && leAt b (bunEntOff b + 32 * i + 28) 4 == 0) &&
  ((List.range n).filter (fun i => nodeUsed (bunEnt b i).node)).length == leAt b 0x18 4 &&
  pads.all (·.isSome) && cover.length == cover.eraseDups.length &&
  (List.range n).all (fun i => cover.contains i || !entValid (bunEnt b i))

/-- Bytes of the bundle store (R402). -/
def storeBytes (g : Integ) : Nat := Config.byClass g 1572864 12582912

/-- MAGIC, FORMAT, LENGTH and HDR_CRC over the header, `len` the descriptor's LENGTH. -/
def bunHeaderBad (g : Integ) (len : Nat) (b : Bytes) : Option Nat :=
  if leAt b 0 4 ≠ 0x4C444F4D then some 0x04
  else if byteAt b 5 ≠ 2 ∨ 3 < byteAt b 4 then some 0x05
  else if leAt b 0x30 4 ≠ len ∨ storeBytes g < len then some 0x06
  else if crc32c (b.take 0x38) ≠ leAt b 0x38 4 then some 0x07
  else none

/-- Every check of R401 on a fetched bundle, in its order; none where it passes. `cls` is the class the slot asks for. -/
def bundleBad (g : Integ) (anchor : Nat) (fs : FeatureSec) (cls : Option Nat) (id len : Nat) (b : Bytes) : Option Nat :=
  bunHeaderBad g len b <|>
  (if !trailerOk anchor b then some 0x08
   else if crc32c (sliceOf b 0x40 (b.length - trailerLen - 0x40)) ≠ leAt b 0x34 4 then some 0x09
   else if !(byteAt b 6 == 1 || byteAt b 6 == 2 || byteAt b 6 == 3) || (match cls with
     | some c => byteAt b 6 != c
     | none => false) then some 0x0A
   else if bunReadable b && !bunFeatureOk fs b then some 0x0B
   else if !bunStructureOk g.cam b || leAt b 8 4 != id then some 0x0C
   else none)

/-- The trees' pads with their depths in pads (R422). -/
def bunWalks (b : Bytes) : List (List (Nat × Nat) × Nat) :=
  (List.range (bunTrees b)).map (fun t => (treePads (bunEntries b) (bunEnt b) 5 (bunTree b t).size (bunTree b t).base).getD ([], 0))

/-- The tree depths in pads (R422). -/
def bunDepths (b : Bytes) : List Nat := (bunWalks b).map (·.2)

/-- Each tree's pads, size and base. -/
def bunPads (b : Bytes) : List (List (Nat × Nat)) := (bunWalks b).map (·.1)

/-- An entry as INSTALL writes it at origin `o` (R409). -/
def relocate (o : Nat) (e : Ent) : Ent :=
  if entValid e && payKind e.payload == 0 then { e with payload := e.payload + o } else e

end Sys2Proof.Machine
end

