-- ==== Sys2Proof/Machine/FeatBuf.lean ====
section
/-!
DEFINITION. The feature buffer's slots and their release (R346, R347).
-/
namespace Sys2Proof.Machine

/-- Every reader of the slot has finished (R347). -/
def slotFree (f : FSlot) : Bool := f.jobs.isEmpty && !f.red && !f.vrd

/-- Slots whose readers have all finished are released. -/
def sweepSlots (s : State) : State := { s with feat := { s.feat with slots := s.feat.slots.filter (fun f => !slotFree f) } }

def modSlots (s : State) (f : FSlot → FSlot) : State := sweepSlots { s with feat := { s.feat with slots := s.feat.slots.map f } }

/-- A Leap job has finished with its slot. -/
def readerJob (s : State) (jid : Nat) : State := modSlots s (fun f => { f with jobs := f.jobs.filter (· != jid) })

/-- RED has finished with the epoch sample of `x`. -/
def readerRed (s : State) (x : Nat) : State :=
  modSlots s (fun f => if f.vec.cls = 1 ∧ f.vec.epoch = x then { f with red := false } else f)

/-- VRD has finished with the epoch sample of `x`. -/
def readerVrd (s : State) (x : Nat) : State :=
  modSlots s (fun f => if f.vec.cls = 1 ∧ f.vec.epoch = x then { f with vrd := false } else f)

/-- The slots held by epoch samples; the others are held by event samples and host-issued jobs (R346). -/
def epochSlotsHeld (s : State) : Nat := (s.feat.slots.filter (fun f => f.vec.cls == 1)).length
def eventSlotsHeld (s : State) : Nat := (s.feat.slots.filter (fun f => f.vec.cls != 1)).length

/-- Event slots of the instance (R346). -/
def eventSlots (s : State) : Nat := Config.byClass s.integ 56 248

/-- BUF_USED, with the slot of the vector in formation. -/
def bufUsed (s : State) : Nat := s.feat.slots.length + (if s.feat.cur.isSome then 1 else 0)

/-- FEAT_BUF_HWM follows BUF_USED. -/
def bufMark (s : State) : State := rcMax s .featBufHwm (bufUsed s)

/-- The vector of the epoch sample of `x`, while a slot holds it. -/
def epochVec (s : State) (x : Nat) : Option Vec :=
  (s.feat.slots.find? (fun f => f.vec.cls == 1 && f.vec.epoch == x)).map (·.vec)

/-- A code of a vector, MISSING where it has none. -/
def codeOf (v : Vec) (i : Nat) : Nat := v.codes.getD i 0xFFFF

end Sys2Proof.Machine
end

