-- ==== Sys2Proof/Machine/Leap.lean ====
section
/-!
DEFINITION. The Leap engine: jobs and strands (R366, R367), the leap (R360, R368 to R374), failed checks (R375 to R380), scrub (R381),
accumulation and heads (R382 to R387), results (R388 to R390), lanes (R391) and dispatch (R421 to R423).
-/
namespace Sys2Proof.Machine

def modLeap (s : State) (f : LeapU → LeapU) : State := { s with leap := f s.leap }

/-! Copies and entries -/

def copyNone : Copy := ⟨0, 0, 0, 0, 0, 0, 0, 0, false, false, false, false, [], [], [], ⟨0, 0, 0, 0, [], [], []⟩⟩

def copyAt (s : State) (cid : Nat) : Copy := (s.leap.copies.find? (fun c => c.cid == cid)).getD copyNone

def modCopy (s : State) (cid : Nat) (f : Copy → Copy) : State :=
  modLeap s (fun l => { l with copies := l.copies.map (fun c => if c.cid == cid then f c else c) })

def modelNone : Model := ⟨0, 0, false, none, none, 0, none, false, false, 0⟩

def modelAt (s : State) (n : Nat) : Model := lookupD s.leap.models n modelNone

def modModel (s : State) (n : Nat) (f : Model → Model) : State := modLeap s (fun l => { l with models := modKey l.models n modelNone f })

/-- The entry at index `i` of the associative memory. -/
def entAt (s : State) (i : Nat) : Ent := lookupD s.leap.ents i entNone

/-- An entry set; an unused one is not listed. -/
def setEnt (s : State) (i : Nat) (e : Ent) : State :=
  modLeap s (fun l => { l with ents := if e = entNone then dropKey l.ents i else setKey l.ents i e })

/-- Trees of strand `j` (R366). -/
def strandTrees (c : Copy) (j : Nat) : List Nat := (List.range c.trees.length).filter (fun t => t % 8 == j)

/-- A strand's worst leaps (R422), as INSTALL computes them. -/
def worstLeaps (c : Copy) (j : Nat) : Nat := sumOf ((strandTrees c j).map (fun t => c.depths.getD t 0))

/-! Lanes -/

/-- The lane is in service. -/
def laneIn (s : State) (n : Nat) : Bool := decide (n < s.integ.lanes) && s.leap.laneEn.testBit n

/-- The next lane in service after `n`, ascending and wrapping; `n` itself when it alone is. -/
def nextLane (s : State) (n : Nat) : Option Nat :=
  ((List.range s.integ.lanes).map (fun k => (n + 1 + k) % s.integ.lanes)).find? (laneIn s)

def lanesIn (s : State) : Nat := ((List.range s.integ.lanes).filter (laneIn s)).length

/-! Jobs -/

def strandNone : Strand := ⟨0, 0, 0, 0, none, [], 1, none, 0, 0, 0, 0, 0, false⟩

def jobAt (s : State) (jid : Nat) : Option Job := s.leap.jobs.find? (fun j => j.jid == jid)

def modJob (s : State) (jid : Nat) (f : Job → Job) : State :=
  modLeap s (fun l => { l with jobs := l.jobs.map (fun j => if j.jid == jid then f j else j) })

def modStrand (s : State) (jid k : Nat) (f : Strand → Strand) : State :=
  modJob s jid (fun j => { j with strands := j.strands.modify k f })

/-- The fresh strands of a job on a copy; a strand without trees is complete. -/
def freshStrands (c : Copy) : List Strand :=
  (List.range 8).map (fun j => { strandNone with
    st := if (strandTrees c j).isEmpty then 2 else 0, tree := j, parts := List.replicate c.head.outs 0 })

/-- A job that has not ended. -/
def jobLive (j : Job) : Bool := j.status.isNone

/-- A model's 8 most recent EPOCH samples (R390), those of its jobs still in flight among them. -/
def recentSamples (s : State) (model : Nat) : List Nat :=
  let flying := (s.leap.jobs.filter (fun j => jobLive j && !j.host && j.model == model && j.vec.cls == 1)).map (·.vec.epoch)
  let done := (s.leap.scores.filter (fun x => x.model == model)).map (·.epoch)
  ((sortBy id (flying ++ done).eraseDups).reverse).take 8

/-- The result of an epoch-table job is kept while its sample is one of its model's 8 most recent (R390). -/
def keepScore (s : State) (r : Score) : State :=
  let s1 := modLeap s (fun l => { l with scores := r :: l.scores.filter (fun x => !(x.model == r.model && x.epoch == r.epoch)) })
  let kept := recentSamples s1 r.model
  modLeap s1 (fun l => { l with scores := l.scores.filter (fun x => x.model != r.model || kept.contains x.epoch) })

/-! Accounts (R423) -/

def acctAdd (s : State) (sel n : Nat) : State :=
  let s1 := modLeap s (fun l => { l with acct := modKey l.acct sel 0 (fun v => satAdd 64 v n) })
  let views := s.host.views.map (fun p => if p.1 = sel ∧ 1 ≤ sel then (p.1, { p.2 with acct := satAdd 64 p.2.acct n }) else p)
  { s1 with host := { s1.host with views := views } }

/-- The account of a job's leaps: its tier's, or its view's. -/
def jobAcct (j : Job) : Nat := if j.tier = 0 then 0x1F0 else if j.tier = 1 then 0x1F1 else j.view

/-- The account of failed and interrupted attempts. -/
def retryAcct : Nat := 0x1F2

def shareOf (s : State) (v : Nat) : Nat := max 1 (rwEff s (.leapShare v))

/-- A tenant strand of worst leaps `w` ends after a final attempt of `a` leaps: its view's charge is corrected (R422). -/
def chargeBack (s : State) (j : Job) (w a : Nat) : State :=
  if j.tier = 2 then modLeap s (fun l => { l with vt := modKey l.vt j.view 0 (fun v => v - (w - a) * 65536 / shareOf s j.view) }) else s

/-- A strand ends with its job before it has completed: the leaps of the attempt in progress go to the job's account, and a tenant strand's
charge is corrected. -/
def closeStrand (s : State) (j : Job) (k : Nat) (t : Strand) : State :=
  let s1 := if t.st = 1 then acctAdd s (jobAcct j) t.leaps else s
  if t.st = 1 ∨ t.st = 3 then chargeBack s1 j (worstLeaps (copyAt s j.cid) k) t.leaps else s1

/-- H_LEAP of the recorder (R519): an epoch sample's job counts from END of its epoch, an event sample's from its formation. -/
def leapTime (s : State) (j : Job) : Nat := if j.vec.cls = 1 then sinceEnd s j.vec.epoch else tb0Ns s - j.vec.formed

/-- A job ends with a STATUS (R388, R389). A host-issued job stays until its result has been taken. -/
def endJob (s : State) (jid status : Nat) (y : List Nat) : State :=
  match jobAt s jid with
  | none => s
  | some j =>
    if !jobLive j then s
    else
      let s0 := j.strands.zipIdx.foldl (fun a p => closeStrand a j p.2 p.1) s
      let s1 := if status = 1 then rcInc s0 .leapFailed else if status = 0 then s0 else rcInc s0 .leapDiscard
      let s2 := if j.host then modJob s1 jid (fun x => { x with status := some status, y := y })
        else
          let t := modLeap s1 (fun l => { l with jobs := l.jobs.filter (fun x => x.jid != jid) })
          let t1 := if j.vec.cls = 1 then keepScore t ⟨j.model, j.vec.epoch, status, y⟩ else t
          modTally t1 (fun a => { a with leap := histoAdd a.leap (leapTime s j) })
      readerJob s2 jid

/-- Every live job that a test accepts ends with a discard status. -/
def discardJobs (s : State) (status : Nat) (p : Job → Bool) : State :=
  (s.leap.jobs.filter (fun j => jobLive j && p j)).foldl (fun a j => endJob a j.jid status []) s

/-! Dispatch (R421, R422) -/

def undispatched (j : Job) : Option Nat := if jobLive j && j.cid != 0 then findIdx (fun t => t.st == 0) j.strands else none

/-- The oldest job of a tier with an undispatched strand. -/
def tierJob (s : State) (tier : Nat) : Option (Job × Nat) :=
  (s.leap.jobs.filter (fun j => j.tier == tier)).findSome? (fun j => (undispatched j).map (fun k => (j, k)))

/-- Views that hold undispatched strands. -/
def viewsWaiting (s : State) : List Nat :=
  sortBy id ((s.leap.jobs.filter (fun j => j.tier == 2 && (undispatched j).isSome)).map (·.view)).eraseDups

def vtOf (s : State) (v : Nat) : Nat := lookupD s.leap.vt v 0

/-- The view with the smallest vt, the lowest number on a tie. -/
def pickView (s : State) : Option Nat :=
  (viewsWaiting s).foldl (fun (a : Option Nat) v => match a with
    | some w => if vtOf s v < vtOf s w then some v else some w
    | none => some v) none

/-- A view with no undispatched strand is about to gain one: its vt rises to the smallest among the views that hold some (R422). -/
def vtJoin (s : State) (v : Nat) : State :=
  match (viewsWaiting s).contains v, (viewsWaiting s).map (vtOf s) with
  | false, x :: xs => modLeap s (fun l => { l with vt := setKey l.vt v (max (vtOf s v) (xs.foldl min x)) })
  | _, _ => s

/-- A strand runs in the context. -/
def contextBusy (s : State) (lane ctx : Nat) : Bool :=
  s.leap.jobs.any (fun j => jobLive j && j.strands.any (fun t => t.st == 1 && t.lane == lane && t.ctx == ctx))

/-- The parity bit of a code. -/
def codeParity (c : Nat) : Bool := ((List.range 16).filter c.testBit).length % 2 == 1

/-- The two vectors come from one feature-buffer slot. -/
def sameSlot (x v : Vec) : Bool := x.cls == v.cls && x.key == v.key && x.epoch == v.epoch

/-- The copies that running contexts of the lane hold. -/
def codeHeld (s : State) (lane : Nat) : List (Nat × CodeCopy) := (lookupD s.leap.code lane []).filter (fun p => contextBusy s lane p.1)

/-- The copy that the context reads. -/
def codeOfCtx (s : State) (lane ctx : Nat) (v : Vec) : CodeCopy := lookupD (lookupD s.leap.code lane []) ctx ⟨v, v.codes.map codeParity⟩

/-- A core cycle's place in a lane's S1. -/
def pipeOf (s : State) (lane : Nat) : LanePipe := lookupD s.leap.pipe lane ⟨0, 0, []⟩

def setPipe (s : State) (lane : Nat) (p : LanePipe) : State := modLeap s (fun l => { l with pipe := setKey l.pipe lane p })

/-- The feature count of the active image. -/
def featureCount (s : State) : Nat := (s.img.active.map (·.feature.feats.length)).getD 0

/-- A context takes up a strand on the sample (R367): it shares a copy that a running context of the lane holds, or the lane copies the slot
anew, for all that hold it where `reload` (R375), which takes ceil(F / 32) + 4 cycles. -/
def codeCopy (s : State) (lane ctx : Nat) (v : Vec) (reload : Bool) : State :=
  let held := codeHeld s lane
  let fresh : CodeCopy := ⟨v, v.codes.map codeParity⟩
  let mine := if reload then none else (held.find? (fun p => sameSlot p.2.vec v)).map (·.2)
  let rest := if reload then held.map (fun p => if sameSlot p.2.vec v then (p.1, fresh) else p) else held
  let s1 := modLeap s (fun l => { l with code := setKey l.code lane (setKey rest ctx (mine.getD fresh)) })
  let p := pipeOf s lane
  setPipe s1 lane { p with ready := setKey p.ready ctx (coreCycle s + (if mine.isSome then 0 else ceilDiv (featureCount s) 32 + 4)) }

/-- The trees of a strand that are retired add FALLBACK without a leap (R378, R382); a strand past its last tree is complete. -/
def skipRetired (c : Copy) : Nat → Strand → Strand
  | 0, t => t
  | f + 1, t =>
    match c.trees[t.tree]? with
    | none => { t with st := 2, pad := none }
    | some r =>
      if r.retired && t.pad.isNone then
        skipRetired c f { t with tree := t.tree + 8, fb := t.fb + 1, parts := t.parts.modify r.out (fun v => fadd f32 v r.fallback) }
      else t

/-- A completed strand's final attempt is accounted, and a tenant strand's charge corrected (R422, R423). -/
def settleStrand (s : State) (j : Job) (k : Nat) : State :=
  match (jobAt s j.jid).bind (fun x => x.strands[k]?) with
  | none => s
  | some t =>
    chargeBack (acctAdd s (jobAcct j) t.leaps) j (worstLeaps (copyAt s j.cid) k) t.leaps

/-- An attempt begins from the strand's first tree in a context (R375). -/
def beginAttempt (c : Copy) (k lane ctx : Nat) (t : Strand) : Strand :=
  skipRetired c 513 { t with st := 1, lane := lane, ctx := ctx, tree := k, pad := none, parts := List.replicate c.head.outs 0, leaps := 0, fb := 0 }

/-- A strand enters a context (R421). -/
def placeStrand (s : State) (j : Job) (k lane ctx : Nat) (reload : Bool) : State :=
  let c := copyAt s j.cid
  let s0 := if j.started then s
    else modModel (modLeap s (fun l => { l with useSeq := l.useSeq + 1 })) j.model (fun m => { m with used := s.leap.useSeq + 1 })
  let s1 := codeCopy s0 lane ctx j.vec reload
  let s2 := modJob s1 j.jid (fun x => { x with started := true, strands := x.strands.modify k (beginAttempt c k lane ctx) })
  if ((jobAt s2 j.jid).bind (fun x => x.strands[k]?)).any (fun t => t.st == 2) then settleStrand s2 j k else s2

/-- A strand that must restart on the lane. -/
def restartOn (s : State) (lane : Nat) : Option (Job × Nat) :=
  s.leap.jobs.findSome? (fun j => if jobLive j then (findIdx (fun t => t.st == 3 && t.lane == lane) j.strands).map (fun k => (j, k)) else none)

/-- A free context of a lane in service is filled (R421). -/
def dispatch (s0 : State) (lane ctx : Nat) : State :=
  let s := touch s0 3
  if !laneIn s lane || decide (8 ≤ ctx) || contextBusy s lane ctx || quiet s then s
  else match restartOn s lane with
    | some (j, k) => placeStrand s j k lane ctx true
    | none =>
      match (tierJob s 0).orElse (fun _ => tierJob s 1) with
      | some (j, k) => placeStrand s j k lane ctx false
      | none =>
        if ctx < rwEff s .leapSchedCfg then s
        else match pickView s with
          | none => s
          | some v =>
            (match (s.leap.jobs.filter (fun j => j.tier == 2 && j.view == v)).findSome? (fun j => (undispatched j).map (fun k => (j, k))) with
             | some (j, k) =>
               let w := worstLeaps (copyAt s j.cid) k
               placeStrand (modLeap s (fun l => { l with vt := modKey l.vt v 0 (· + w * 65536 / shareOf s v) })) j k lane ctx false
             | none => s)

/-! The leap (R360, R361, R368 to R374) -/

/-- The decision vector of a pad (R360). -/
def decisionVector (pad : List Ent) (v : Vec) : Nat :=
  sumOf ((List.range (pad.length - 1)).map (fun k => match pad[k]? with
    | some e =>
      let c := codeOf v (nodeFeat e.node)
      let right := if c = 0xFFFF ∨ v.poison.contains (nodeFeat e.node) then e.node.testBit 30 else decide (e.node % 65536 ≤ c)
      if nodeUsed e.node && right then 2 ^ k else 0
    | none => 0))

/-- The entry matches the key (R361). -/
def entryMatches (key : Nat) (e : Ent) : Bool := (key ^^^ e.value) &&& e.mask == 0

/-- The local indices of the pad's entries that match. -/
def matchesOf (pad : List Ent) (d : Nat) : List Nat :=
  (List.range pad.length).filter (fun k => match pad[k]? with
    | some e => entryMatches (2 ^ 63 + d) e
    | none => false)

/-- What an upset operand says: the kind that fails (R372), and a detail: for NOMATCH and MULTI whether the
decision vectors of the failing and the passing lane differ, for READBACK one more than the lowest node at which D differs from D′
(R380, 0 where it does not), for MULTI also (from 2^8 on) the local index of the other entry that matched. -/
def upsetKind (u : Nat) : Nat := u % 8
def upsetDetail (u : Nat) : Nat := u / 8 % 256
def upsetOther (u : Nat) : Nat := u / 2048

/-- A node of the pad read a code with its poison bit (R388). -/
def readsPoison (pad : List Ent) (v : Vec) : Bool := pad.any (fun e => nodeUsed e.node && v.poison.contains (nodeFeat e.node))

/-- A used node's code fails its parity (R372). -/
def parityFails (pad : List Ent) (c : CodeCopy) : Bool :=
  pad.any (fun e => nodeUsed e.node && decide (nodeFeat e.node < c.vec.codes.length) &&
    codeParity (codeOf c.vec (nodeFeat e.node)) != c.parity.getD (nodeFeat e.node) false)

/-- The failures that S3 detects (R372): NODE_ECC and CODE_PARITY, by an upset, injected, or by a code's parity. -/
def earlyFails (up inj : Nat) (parity : Bool) : Nat :=
  if up = 4 ∨ up = 5 then up else if inj = 4 ∨ inj = 5 then inj else if parity then 5 else 0

/-- Those that S4 detects: NOMATCH and MULTI, by an upset, injected, or as the search itself shows. -/
def searchFails (ms : List Nat) (up inj : Nat) : Nat :=
  if up = 1 ∨ up = 2 then up else if inj = 1 ∨ inj = 2 then inj else if ms.isEmpty then 1 else if 1 < ms.length then 2 else 0

/-- Those that S5 detects: READBACK and PAYLOAD_ECC. -/
def lateFails (up inj : Nat) : Nat := if up = 3 ∨ up = 6 then up else if inj = 3 ∨ inj = 6 then inj else 0

/-- The kind of the failed check, if any: that of the first stage that detects one. -/
def leapFails (ms : List Nat) (up inj : Nat) (parity : Bool) : Nat :=
  if earlyFails up inj parity ≠ 0 then earlyFails up inj parity
  else if searchFails ms up inj ≠ 0 then searchFails ms up inj else lateFails up inj

/-- Segment and macro of an entry index (R380). -/
def entSegment (s : State) (i : Nat) : Nat := i / Config.segEntries s.integ
def entMacro (s : State) (i : Nat) : Nat := i % Config.segEntries s.integ / (Config.segEntries s.integ / 32)

/-- Location of a lane fault (R377, R380). -/
def laneFaultLoc (s : State) (lane kind detail : Nat) : Nat :=
  let cl (n : Nat) : Nat := locWord s 2 3 lane n 0
  match kind with
  | 1 | 2 => if detail = 0 then cl 17 else locWord s 3 3 lane 0 0
  | 3 => if detail = 0 then locWord s 3 3 lane 0 0 else cl ((detail - 1) / 4)
  | 4 => cl 16
  | 5 => cl 23
  | _ => cl 18

/-- The leaps of the attempts that a lane's leaving service interrupts (R423; DESIGN CHOICE, log 128). -/
def brokenLeaps (s : State) (lane : Nat) : Nat :=
  sumOf ((s.leap.jobs.filter jobLive).map (fun j => sumOf ((j.strands.filter (fun t => t.st == 1 && t.lane == lane)).map (·.leaps))))

/-- The lane leaves service; strands in progress on it restart on a lane in service, or every job ends (R377, R391). -/
def dropLane (s : State) (lane : Nat) : State :=
  let s0 := modLeap s (fun l => { l with laneEn := if l.laneEn.testBit lane then l.laneEn - 2 ^ lane else l.laneEn })
  let s1 := if (nextLane s0 lane).isSome then acctAdd s0 retryAcct (brokenLeaps s lane) else s0
  match nextLane s1 lane with
  | none => discardJobs s1 3 (fun _ => true)
  | some n => modLeap s1 (fun l => { l with jobs := l.jobs.map (fun j => if jobLive j then
      { j with strands := j.strands.map (fun t => if (t.st == 1 || t.st == 3) && t.lane == lane then { t with st := 3, lane := n } else t) } else j) })

/-- VALID clears in an entry (R378). -/
def clearValid (s : State) (i : Nat) : State :=
  let e := entAt s i
  if entValid e then setEnt s i { e with value := e.value - 2 ^ 63 } else s

/-- A memory fault (R378, R413): `clear` the entries that lose VALID, `at0` the failing entry, `base` its pad's block, `lane` for the log. -/
def memoryFault (s : State) (cid tree kind lane base at0 : Nat) (clear : List Nat) : State :=
  let c := copyAt s cid
  let s1 := clear.foldl clearValid s
  let s2 := modCopy s1 cid (fun x => { x with trees := x.trees.modify tree (fun t => { t with retired := true }) })
  let s3 := modModel s2 c.model (fun m => { m with st := if m.st = 4 ∧ m.serving = some cid then 5 else m.st })
  let s4 := rcInc (modLeap s3 (fun l => { l with
    badValid := true, badlog := if l.badValid then l.badlog else some ⟨kind, lane, c.model, base, tree⟩,
    quar := if l.quar.contains (at0 / 1024) then l.quar else l.quar ++ [at0 / 1024] })) .leapPermanent
  raiseFault s4 5 (if lanesIn s4 = 1 then locWord s4 4 3 0 0 0 else locWord s4 2 3 (16 + entSegment s4 at0) (entMacro s4 at0) 0)

/-- The failing entry of a leap: the one that matched, else the block's first. -/
def failEntry (base : Nat) (ms : List Nat) : Nat := base + ms.headD 0

/-- The entries that lose VALID at a memory fault (R378). -/
def failClears (kind size base up : Nat) (ms : List Nat) : List Nat :=
  match kind with
  | 3 | 6 => [failEntry base ms]
  | 2 => ((if upsetKind up = 2 then ms ++ [upsetOther up] else ms).eraseDups.filter (fun k => decide (k < padEntries size))).map (· + base)
  | _ => (List.range (padEntries size)).map (· + base)

/-- The job's strand restarts for its next attempt (R375). -/
def retryStrand (s : State) (j : Job) (k lane : Nat) (t : Strand) : State :=
  acctAdd (modJob s j.jid (fun x => { x with retried := true, strands := x.strands.set k { t with st := 3, lane := lane, attempt := t.attempt + 1 } }))
    retryAcct t.leaps

/-- A strand's last attempt has failed, and its job with it (R376, R379): its leaps go to the RETRY account (R423). -/
def failStrand (s : State) (j : Job) (k : Nat) (t : Strand) : State :=
  endJob (acctAdd (modJob s j.jid (fun x => { x with strands := x.strands.set k { t with st := 3 } })) retryAcct t.leaps) j.jid 1 []

/-- A leap has failed its checks (R375, R376, R379). -/
def leapFailed (s : State) (j : Job) (k kind size base up : Nat) (ms : List Nat) (t : Strand) : State :=
  let f := (kind, base, t.tree)
  let n := if t.chain = some f then t.chainN + 1 else 1
  let t1 : Strand := { t with chain := some f, chainN := n, chainLn := if n = 1 then t.lane else t.chainLn,
                              detail := if n = 1 then upsetDetail up else t.detail }
  if n = 3 then
    if kind = 5 then failStrand s j k t1
    else
      let s1 := memoryFault s j.cid t.tree kind t.lane base (failEntry base ms) (failClears kind size base up ms)
      if 4 ≤ t.attempt then failStrand s1 j k t1
      else retryStrand s1 j k t.lane { t1 with chain := none, chainN := 0 }
  else if 4 ≤ t.attempt then failStrand s j k t1
  else retryStrand s j k (if n = 2 then (nextLane s t.lane).getD t.lane else t.lane) t1

/-- A strand has completed: a transient fault, or a lane fault, is established where its attempt was not the first (R376, R377, R382). -/
def strandDone (s : State) (j : Job) (k : Nat) (t : Strand) : State :=
  let s1 := settleStrand s j k
  if t.chainN = 0 then s1
  else if t.chainN = 2 ∧ t.lane ≠ t.chainLn then
    let kind := (t.chain.getD (0, 0, 0)).1
    let loc := laneFaultLoc s1 t.chainLn kind t.detail
    raiseFault (rcInc (dropLane s1 t.chainLn) .leapLaneFault) 4 loc
  else rcInc s1 .leapTransient

/-- A leap has passed: NEXT goes on to the next pad, LEAF adds its value (R368, R382). -/
def leapPassed (s : State) (j : Job) (k : Nat) (e : Ent) (t : Strand) : State :=
  let c := copyAt s j.cid
  let t1 : Strand := if payKind e.payload = 0 then { t with pad := some (paySize e.payload, payValue e.payload % 2 ^ 18) }
    else
      let o := ((c.trees[t.tree]?).map (·.out)).getD 0
      skipRetired c 513 { t with pad := none, tree := t.tree + 8, parts := t.parts.modify o (fun v => fadd f32 v (payValue e.payload)) }
  let s1 := modJob s j.jid (fun x => { x with strands := x.strands.set k t1 })
  if t1.st = 2 then strandDone s1 j k t1 else s1

/-- The strand that runs in a context. -/
def strandIn (s : State) (lane ctx : Nat) : Option (Job × Nat × Strand) :=
  s.leap.jobs.findSome? (fun j => if jobLive j then
    (findIdx (fun t => t.st == 1 && t.lane == lane && t.ctx == ctx) j.strands).bind (fun k => (j.strands[k]?).map (fun t => (j, k, t))) else none)

/-- The pad a strand leaps to next: the tree's root, or the pad that the previous leap named. -/
def padOf (c : Copy) (t : Strand) : Nat × Nat :=
  match t.pad with
  | some p => p
  | none => match c.trees[t.tree]? with
    | some r => (r.size, r.base)
    | none => (0, 0)

/-- The words in which a leap finds a single-bit error are used corrected, counted, and wait for their rewrite (R374). -/
def leapFixes (s : State) (size base : Nat) (fixed : List Nat) : State :=
  let l := (fixed.filter (fun k => decide (k < padEntries size))).map (· + base)
  modLeap (rcAdd s .leapScrubCe l.length) (fun u => { u with fixes := u.fixes.filter (fun i => !l.contains i) ++ l.eraseDups })

/-- The context's strand reaches S1: the retired trees that it has come to add FALLBACK, and a strand with none left is complete (R378, R382). -/
def reachTree (s : State) (j : Job) (k : Nat) (t : Strand) : State × Strand :=
  let t1 := skipRetired (copyAt s j.cid) 513 t
  if t1 = t then (s, t)
  else
    let s1 := modJob s j.jid (fun x => { x with strands := x.strands.set k t1 })
    (if t1.st = 2 then strandDone s1 j k t1 else s1, t1)

/-- One leap of a context (R368): one that segment arbitration grants, or that S3 squashes before it. -/
def leapOne (s0 : State) (ctx : Nat) (x : LeapIssue) : State :=
  match strandIn s0 x.lane ctx with
  | none => s0
  | some (j, k, t0) =>
    let (s, tr) := reachTree s0 j k t0
    if tr.st = 2 then s
    else
      let p := padOf (copyAt s j.cid) tr
      let pad := padEnts (entAt s) p.1 p.2
      let code := codeOfCtx s x.lane ctx j.vec
      let d := decisionVector pad code.vec
      let ms := matchesOf pad d
      let inj := lookupD s.leap.inj x.lane 0
      let kind := leapFails ms (upsetKind x.upset) inj (parityFails pad code)
      let t : Strand := { tr with leaps := tr.leaps + 1, poison := tr.poison || readsPoison pad code.vec }
      let s1 := modJob (modLeap s (fun l => { l with inj := dropKey l.inj x.lane })) j.jid (fun y => { y with leaps := y.leaps + 1, strands := y.strands.set k t })
      let s2 := leapFixes s1 p.1 p.2 x.fixed
      if kind = 0 then leapPassed s2 j k (pad.getD (ms.headD 0) entNone) t else leapFailed s2 j k kind p.1 p.2 x.upset ms t

/-! S1 (R368, R369): which context a lane issues, and when -/

/-- The contexts of a lane that a strand runs in. -/
def laneCtxs (s : State) (lane : Nat) : List Nat := (List.range 8).filter (contextBusy s lane)

/-- The core cycle from which a context is ready. -/
def ctxReady (s : State) (lane ctx : Nat) : Nat := lookupD (pipeOf s lane).ready ctx 0

/-- The first core cycle in which the lane can issue a leap; none where no strand runs in it. -/
def laneFrom (s : State) (lane : Nat) : Option Nat :=
  match laneCtxs s lane with
  | [] => none
  | c :: cs => some (max (pipeOf s lane).free (cs.foldl (fun a x => min a (ctxReady s lane x)) (ctxReady s lane c)))

/-- The context S1 selects in core cycle `n`: the next ready one in round-robin order. -/
def pickCtx (s : State) (lane n : Nat) : Option Nat :=
  ((List.range 8).map (fun k => ((pipeOf s lane).ptr + k) % 8)).find? (fun c => contextBusy s lane c && decide (ctxReady s lane c ≤ n))

/-- S1 has issued a leap of the context in cycle `n`: the context is ready again when it has retired, or at once where it was cancelled in S4. -/
def pipeIssue (n ctx : Nat) (cancelled : Bool) (p : LanePipe) : LanePipe :=
  ⟨(ctx + 1) % 8, n + 1, setKey p.ready ctx (n + if cancelled then 4 else 8)⟩

/-- A leap on its way: its operand, its context, and the segment it searches in S4; none where it never searches. -/
structure Flight where
  op  : LeapIssue
  ctx : Nat
  seg : Option Nat

/-- The segment that a context's leap searches in S4; none for one that S3 squashes, or whose strand completes without a leap. -/
def searchSegment (s : State) (ctx : Nat) (x : LeapIssue) : Option Nat :=
  (strandIn s x.lane ctx).bind (fun r =>
    let c := copyAt s r.1.cid
    let t := skipRetired c 513 r.2.2
    let p := padOf c t
    let up := upsetKind x.upset
    if t.st = 2 ∨ earlyFails up (lookupD s.leap.inj x.lane 0) (parityFails (padEnts (entAt s) p.1 p.2) (codeOfCtx s x.lane ctx r.1.vec)) ≠ 0 then none
    else some (entSegment s p.2))

/-- Segment arbitration (R370): the leap granted among those that reach one segment. -/
def grantOf (lanes ptr : Nat) (l : List Flight) : Option Flight :=
  (sortBy (fun x => (x.op.lane + lanes - ptr % max 1 lanes) % max 1 lanes) l).head?

/-- The leaps that go on: those that search no segment, and of each segment's the one granted. -/
def winners (s : State) (l : List Flight) : List Flight :=
  l.filter (fun f => match f.seg with
    | none => true
    | some g => (grantOf s.integ.lanes (lookupD s.leap.segPtr g 0) (l.filter (fun y => y.seg == some g))).any (fun w => w.op.lane == f.op.lane))

/-- After a conflict the segment's pointer moves to the lane after the winner (R370). -/
def movePointers (s : State) (l : List Flight) : State :=
  let clash := (l.filterMap (·.seg)).eraseDups.filter (fun g => 1 < (l.filter (fun y => y.seg == some g)).length)
  modLeap s (fun u => { u with segPtr := clash.foldl (fun t g =>
    setKey t g (((grantOf s.integ.lanes (lookupD t g 0) (l.filter (fun y => y.seg == some g))).map (fun w => (w.op.lane + 1) % s.integ.lanes)).getD 0)) u.segPtr })

/-- The core cycle of the leaps: the present one, or the first in which every lane named has a context ready (DESIGN CHOICE, log 129). -/
def issueCycle (s : State) (xs : List LeapIssue) : Nat := (xs.filterMap (fun x => laneFrom s x.lane)).foldl max (coreCycle s)

/-- One issue for each lane in service that a strand runs in. -/
def issuing (s : State) (xs : List LeapIssue) : List LeapIssue :=
  (xs.filter (fun x => laneIn s x.lane && !(laneCtxs s x.lane).isEmpty)).foldl
    (fun (a : List LeapIssue) x => if a.any (fun y => y.lane == x.lane) then a else a ++ [x]) []

/-- The leaps of one core cycle, at most one for each lane in service (R369, R370). -/
def leapCycle (s0 : State) (xs : List LeapIssue) : State :=
  let s := touch s0 3
  let live := issuing s xs
  if quiet s || live.isEmpty then s
  else
    let n := issueCycle s live
    let s1 := advanceCore s n
    let l := live.filterMap (fun x => (pickCtx s1 x.lane n).map (fun c => Flight.mk x c (searchSegment s1 c x)))
    let won := winners s1 l
    let lost (f : Flight) : Bool := !won.any (fun w => w.op.lane == f.op.lane)
    let s2 := l.foldl (fun a f => setPipe a f.op.lane (pipeIssue n f.ctx (lost f) (pipeOf a f.op.lane))) (movePointers s1 l)
    won.foldl (fun a f => leapOne a f.ctx f.op) (rcAdd s2 .leapSegConflict (l.length - won.length))

/-! Heads (R383 to R386) -/

/-- Σ of the strands in the order of R382. -/
def accumulate (c : Copy) (j : Job) : List Nat :=
  (List.range c.head.outs).map (fun o => j.strands.foldl (fun a t => fadd f32 a (t.parts.getD o 0)) (c.head.base.getD o 0))

/-- The head's outputs. -/
def headOut (c : Copy) (acc : List Nat) : List Nat :=
  let h := c.head
  match h.head with
  | 2 => acc.map fsigmoid
  | 3 => fsoftmax acc
  | 4 => (List.range h.outs).map (fun o =>
      fpow2neg (fdiv f32 (acc.getD o 0) (fofNat f32 (c.trees.filter (fun t => t.out == o)).length)) h.cnorm)
  | 5 => (List.range h.outs).map (fun o => (List.range h.outs).foldl (fun y i =>
      fadd f32 y (fmul f32 (h.w.getD (16 * o + i) 0) (acc.getD i 0))) (h.bias.getD o 0))
  | _ => acc

/-- A job whose 8 strands are complete ends DONE with its outputs (R382, R388). -/
def completeJob (s0 : State) (jid : Nat) : State :=
  let s := touch s0 3
  match jobAt s jid with
  | none => s
  | some j =>
    if jobLive j && j.cid != 0 && j.strands.all (fun t => t.st == 2) && !quiet s then
      endJob s jid 0 (headOut (copyAt s j.cid) (accumulate (copyAt s j.cid) j))
    else s

/-- The result's 96 bytes (R388). -/
def resultBytes (j : Job) (status : Nat) (y : List Nat) : Bytes :=
  let fb := sumOf (j.strands.map (·.fb))
  let out := if status = 0 then y ++ List.replicate (16 - y.length) 0 else List.replicate 16 0
  let bad := y.any (fun v => !fisFinite f32 v)
  toLe 1 j.model ++ toLe 1 status ++
  toLe 2 (flag (fb != 0) + 2 * flag (status == 0 && bad) + 4 * flag (j.strands.any (·.poison)) + 8 * flag j.retried) ++ toLe 2 fb ++ toLe 1 j.cls ++
  zeros 1 ++ toLe 8 (j.vec.epoch + (if j.cls = 1 then 0 else j.vec.key * 2 ^ 48)) ++ toLe 4 j.leaps ++ toLe 4 j.tag ++ zeros 8 ++ (out.map (toLe 4)).flatten

/-- y[output] of the job on the epoch's sample, widened to binary64; none where it is empty, a NaN among them (R383, R390). -/
def scoreOf (s : State) (model out x : Nat) : Option Nat :=
  match s.leap.scores.find? (fun r => r.model == model && r.epoch == x) with
  | some r => if r.status = 0 ∧ (recentSamples s model).contains x then ((r.y[out]?).filter (fun y => !fisNan f32 y)).map f32to64 else none
  | none => none

/-- The job on the epoch's sample has not completed (R390). -/
def scorePending (s : State) (model x : Nat) : Bool :=
  s.leap.jobs.any (fun j => jobLive j && !j.host && j.model == model && j.vec.cls == 1 && j.vec.epoch == x)

/-- A SCORE source is read (R390). -/
def readScore (s : State) (model out x : Nat) : State × Option Nat :=
  (if scorePending s model x then rcInc s .leapScoreLate else s, scoreOf s model out x)

/-! Lanes and injection (R391, R394) -/

/-- A write of LEAP_LANE_EN. -/
def laneEnable (s : State) (v : Nat) : State :=
  let m := v % 2 ^ s.integ.lanes
  let off := (List.range s.integ.lanes).filter (fun n => s.leap.laneEn.testBit n && !m.testBit n)
  let s1 := modLeap s (fun l => { l with laneEn := m })
  if m = 0 then discardJobs s1 3 (fun _ => true) else off.foldl dropLane s1

/-- A write of LEAP_INJ: a kind of R372 for a lane that the instance has. -/
def leapInjectOp (s : State) (lane kind : Nat) : State :=
  if 1 ≤ kind ∧ kind ≤ 6 ∧ lane < s.integ.lanes then modLeap s (fun l => { l with inj := setKey l.inj lane kind }) else s

/-! Scrub (R374, R381) -/

/-- The tree of a copy whose pads cover an entry, with the pad's size and block. -/
def ownerTree (c : Copy) (i : Nat) : Option (Nat × Nat × Nat) :=
  (List.range c.pads.length).findSome? (fun n =>
    ((c.pads.getD n []).find? (fun p => decide (p.2 ≤ i) && decide (i < p.2 + padEntries p.1))).map (fun p => (n, p.1, p.2)))

/-- An entry with its node slot and payload is read: `upset` 1 a corrected error, 2 an uncorrectable one in the entry or its payload, 3 one in the
node slot, for which the whole block loses VALID (R378, R381). -/
def scrubEntry (s0 : State) (i upset : Nat) : State :=
  let s := touch s0 3
  if s.integ.cam ≤ i || quiet s then s
  else
    let last := decide (s.integ.cam ≤ s.leap.scrubN + 1)
    let isOver := decide (s.leap.scrubAt + rwGet s .leapScrubPeriod * 1000000 < tb2Ns s)
    let s1 := modLeap s (fun l => { l with scrubN := if last then 0 else l.scrubN + 1, scrubAt := if last then tb2Ns s else l.scrubAt,
                                           scrubLate := l.scrubLate || isOver })
    match upset with
    | 1 => modLeap (rcInc s1 .leapScrubCe) (fun l => { l with fixes := l.fixes.filter (· != i) ++ [i] })
    | 2 | 3 =>
      (match s1.leap.copies.findSome? (fun c => (ownerTree c i).map (fun o => (c.cid, o))) with
       | some (cid, tree, size, base) => memoryFault s1 cid tree 7 0xF base i (if upset = 3 then failClears 4 size base 0 [] else [i])
       | none => s1)
    | _ => s1

/-- A corrected word is rewritten (R374). -/
def scrubEntryBack (s : State) (i : Nat) : State := modLeap s (fun l => { l with fixes := l.fixes.filter (· != i) })

end Sys2Proof.Machine
end

