-- ==== Sys2Proof/Machine/Store.lean ====
section
/-!
DEFINITION. The boot store's regions (R647), its settings copies (R651, R652), and the directory of a bundle pack (R650).
-/
namespace Sys2Proof.Machine

/-- A region of the boot store. `sel` is the slot of a kind. -/
inductive Region where
  | settings (copy : Nat)
  | bb (bank : Nat)
  | fw (sel : Nat)
  | img (sel : Nat)
  | pack (sel : Nat)
  | reserved
deriving DecidableEq, Repr

/-- The regions in ascending order: each with its offset and size in bytes (R647). -/
def regions (g : Integ) : List (Region × Nat × Nat) :=
  let k := 1024
  [(.settings 0, 0, 4 * k), (.settings 1, 0x1000, 4 * k), (.reserved, 0x2000, 56 * k), (.bb 0, 0x10000, 256 * k), (.bb 1, 0x50000, 256 * k)] ++
  (if Config.isSpireL g then
    [(.reserved, 0x90000, 448 * k), (.fw 0, 0x100000, 1024 * k), (.fw 1, 0x200000, 1024 * k), (.img 0, 0x300000, 8192 * k),
     (.img 1, 0xB00000, 8192 * k), (.pack 0, 0x1300000, 12288 * k), (.pack 1, 0x1F00000, 12288 * k)]
   else
    [(.fw 0, 0x90000, 512 * k), (.fw 1, 0x110000, 512 * k), (.img 0, 0x190000, 1024 * k), (.img 1, 0x290000, 1024 * k),
     (.pack 0, 0x390000, 2048 * k), (.pack 1, 0x590000, 2048 * k)])

/-- Offset and size of a region. -/
def regionAt (g : Integ) (r : Region) : Nat × Nat := (((regions g).find? (fun x => x.1 == r)).map (·.2)).getD (0, 0)

/-- The region in which a whole range lies. -/
def regionOf (g : Integ) (a n : Nat) : Option Region :=
  ((regions g).find? (fun x => decide (x.2.1 ≤ a) && decide (a + n ≤ x.2.1 + x.2.2))).map (·.1)

/-- The regions that a range touches. -/
def regionsHit (g : Integ) (a n : Nat) : List Region :=
  ((regions g).filter (fun x => decide (a < x.2.1 + x.2.2) && decide (x.2.1 < a + n))).map (·.1)

/-- `n` bytes of the boot store. -/
def storeRead (s : State) (a n : Nat) : Bytes := memRead 0xFF s.boot.store a n

/-- Bytes programmed: a NOR flash clears bits only. -/
def flashProgram (m : List Host.Cell) (a : Nat) (d : Bytes) : List Host.Cell :=
  memWrite 0xFF m a ((d.zip (memRead 0xFF m a d.length)).map (fun p => p.1 &&& p.2))

/-! Settings -/

/-- A settings record's 256 bytes (R651). -/
def settingsBytes (x : Settings) : Bytes :=
  let b := toLe 4 0x53544753 ++ toLe 2 3 ++ zeros 2 ++ toLe 4 x.sseq ++ toLe 1 x.fwSlot ++ toLe 1 x.imgSlot ++ toLe 1 x.packSlot ++ toLe 1 x.trial ++
    toLe 1 x.bbBank ++ zeros 3 ++ toLe 4 x.flash ++ toLe 4 x.fallbacks ++ zeros 224
  b ++ toLe 4 (crc32c b)

/-- The record of a copy, where MAGIC and SCRC hold (R652), with its SSCHEMA. -/
def settingsAt (s : State) (copy : Nat) : Option (Nat × Settings) :=
  let b := storeRead s (0x1000 * copy) 256
  if leAt b 0 4 = 0x53544753 ∧ leAt b 0xFC 4 = crc32c (b.take 0xFC) then
    some (leAt b 4 2, ⟨leAt b 8 4, byteAt b 0x0C % 2, byteAt b 0x0D % 2, byteAt b 0x0E % 2, byteAt b 0x0F % 4, byteAt b 0x10 % 2, leAt b 0x14 4, leAt b 0x18 4⟩)
  else none

/-- The copy in force: the valid one whose SSEQ is newer (R652). -/
def settingsCopy (s : State) : Option (Nat × Nat × Settings) :=
  match settingsAt s 0, settingsAt s 1 with
  | some a, some b => if newer 32 b.2.sseq a.2.sseq then some (1, b) else some (0, a)
  | some a, none => some (0, a)
  | none, some b => some (1, b)
  | none, none => none

/-! Bundle packs (R650) -/

/-- The pack's region. -/
def packAt (s : State) : Nat := (regionAt s.integ (.pack s.boot.cur.packSlot)).1

/-- HCRC and MAGIC of the pack at `a` hold. -/
def packOk (s : State) (a : Nat) : Bool :=
  let h := storeRead s a 16
  let n := leAt h 4 2
  leAt h 0 4 == 0x4B435042 && decide (n ≤ 255) && leAt h 12 4 == crc32c (h.take 12 ++ storeRead s (a + 16) (16 * n))

/-- The directory's entries of the pack at `a`: BUNDLE_ID, address in the boot store, LENGTH; none in a pack that fails. -/
def packDir (s : State) (a : Nat) : List (Nat × Nat × Nat) :=
  if packOk s a then
    (List.range (leAt (storeRead s (a + 4) 2) 0 2)).map (fun i =>
      let e := storeRead s (a + 16 + 16 * i) 16
      (leAt e 0 4, a + leAt e 4 4, leAt e 8 4))
  else []

end Sys2Proof.Machine
end

