-- ==== Sys2Proof/Machine/Load.lean ====
section
/-!
DEFINITION. Resident models: loads (R399 to R402), the hot set (R403 to R407), install and switching (R409 to R415), the epoch table's
bundles (R412, R414), slot jobs (R418, R419), host-issued jobs' models (R407) and OVERCOMMIT (R424).
-/
namespace Sys2Proof.Machine

/-! The epoch table -/

def tableOf (im : Option Image) : List SlotEnt :=
  match im with
  | some x => (match x.epochtab with
    | some t => t.slots
    | none => [])
  | none => []

/-- The active table's slots. -/
def slotsNow (s : State) : List SlotEnt := tableOf s.img.active

/-- The active table's slot of a model number. -/
def slotFor (s : State) (n : Nat) : Option SlotEnt := (slotsNow s).find? (fun x => x.model == n)

/-- Table-pinned (R403). -/
def tablePinned (s : State) (n : Nat) : Bool := (slotFor s n).isSome

/-! Entry regions (R405) and the bundle store (R402) -/

/-- Units that the copies of models outside `gone` hold, and the quarantined ones. -/
def unitsTaken (s : State) (gone : List Nat) : List Nat :=
  s.leap.quar ++ ((s.leap.copies.filter (fun c => !gone.contains c.model)).map (fun c => (List.range c.units).map (· + c.origin / 1024))).flatten

/-- The lowest run of `n` free units, by the index of its first. -/
def freeRun (s : State) (gone : List Nat) (n : Nat) : Option Nat :=
  let taken := unitsTaken s gone
  (List.range (s.integ.cam / 1024)).find? (fun u => decide (u + n ≤ s.integ.cam / 1024) && (List.range n).all (fun k => !taken.contains (u + k)))

/-- Bytes of the bundle store in use, the shadows of models in `gone` apart; a load past its search for space holds its share. -/
def storeUsed (s : State) (gone : List Nat) : Nat :=
  sumOf ((s.leap.shadows.filter (fun x => match x.model with
    | some n => !gone.contains n
    | none => true)).map (fun x => roundUp x.data.length 4096)) +
  sumOf ((s.leap.loads.filter (fun x => x.phase == .body || x.phase == .fetched || x.phase == .verify)).map (fun x => roundUp x.len 4096))

def storeFits (s : State) (gone : List Nat) (len : Nat) : Bool := decide (storeUsed s gone + roundUp len 4096 ≤ storeBytes s.integ)

/-! Eviction (R404, R406) -/

def evictingNow (s : State) : List Nat := (s.leap.models.filter (fun m => m.2.st == 7)).map (·.1)

/-- Candidates for eviction, least recently used first (R404). -/
def evictable (s : State) : List Nat :=
  (sortBy (fun m => m.2.used) (s.leap.models.filter (fun m => (m.2.st == 4 || m.2.st == 5) && !m.2.hpin && !tablePinned s m.1))).map (·.1)

/-- Loads, repairs and installs for a model number are dropped with the copies they were making. -/
def dropLoads (s : State) (n : Nat) : State :=
  let gone := (s.leap.loads.filter (fun x => x.model == some n)).filterMap (·.copy)
  modLeap s (fun l => { l with loads := l.loads.filter (fun x => x.model != some n), copies := l.copies.filter (fun c => !gone.contains c.cid) })

/-- A model is evicted (R406): with `squash` its jobs that have not started end DISCARDED_MODEL. -/
def evictModel (s : State) (n : Nat) (squash : Bool) : State :=
  let m := modelAt s n
  if m.st = 0 ∨ m.st = 7 then s
  else
    let s1 := rcInc (modModel (dropLoads s n) n (fun x => { x with st := 7, next := none })) .leapHotEvict
    if squash then discardJobs s1 6 (fun j => !j.started && (if j.cid = 0 then j.bundle == m.bundle else j.model == n)) else s1

/-- Room under R404: as it is, or after evicting the shortest prefix of the candidates that meets the need; none where nothing does. -/
def makeSpace (s : State) (meets : List Nat → Bool) : Option State :=
  if meets (evictingNow s) then some s
  else
    let c := evictable s
    match (List.range (c.length + 1)).find? (fun k => meets (evictingNow s ++ c.take k)) with
    | some k => some ((c.take k).foldl (fun a n => evictModel a n true) s)
    | none => none

/-- The copy is still needed: a model's, its previous one's while samples of epochs before e_A may come, a load's, or a live job's. -/
def copyNeeded (s : State) (c : Copy) : Bool :=
  let m := modelAt s c.model
  (m.st != 7 && m.serving == some c.cid) || m.next == some c.cid || (s.img.featDue.contains 1 && m.prev == some c.cid) || s.leap.loads.any (fun x => x.copy == some c.cid) ||
  s.leap.jobs.any (fun j => jobLive j && j.cid == c.cid)

/-- The shadow is still needed (R402, R414). -/
def shadowNeeded (s : State) (x : Shadow) : Bool :=
  match x.model with
  | none =>
    (slotsNow s).any (fun t => t.fallback == x.bundle) || (tableOf s.img.staged).any (fun t => t.fallback == x.bundle) ||
    s.leap.copies.any (fun c => c.isFb && c.bundle == x.bundle)
  | some n =>
    let m := modelAt s n
    (m.st != 0 && m.bundle == x.bundle) || s.leap.loads.any (fun l => l.model == some n && l.bundle == x.bundle) ||
    s.leap.copies.any (fun c => c.model == n && c.bundle == x.bundle)

/-- The state code of a number that serves a copy (R403). -/
def servingSt (c : Copy) : Nat := if c.trees.any (·.retired) then 5 else 4

/-- The state code of a number that has no copy to serve while a load works for it (R403). -/
def loadingSt (p : LoadPh) : Nat :=
  match p with
  | .verify => 2
  | .region | .install => 3
  | _ => 1

/-- A load works for the number: it has got past the search for one. -/
def loadFor (s : State) (n : Nat) : Option Load := s.leap.loads.find? (fun x => x.model == some n && x.phase != .number)

/-- A number as its copies and loads leave it: REPAIRING only with a copy to come, EMPTY with neither a copy nor a load, and what a new image fetches
for a number it has emptied shows once the old copy is gone (R403, R412). -/
def restModel (s : State) (n : Nat) (m : Model) : Model :=
  let gone := !s.leap.copies.any (fun c => c.model == n && (m.next != some c.cid) && !s.leap.loads.any (fun x => x.copy == some c.cid))
  let inst := s.leap.loads.any (fun x => x.model == some n && x.phase == .install)
  let empty : Model := { modelNone with hpin := m.hpin, used := if m.st = 7 then 0 else m.used, fbWant := m.fbWant }
  if m.st = 7 then
    (if !gone then m
     else match m.next, loadFor s n with
       | some _, _ => { m with st := 3, serving := none }
       | none, some x => { m with st := loadingSt x.phase, bundle := x.bundle, serving := none }
       | none, none => empty)
  else match m.serving with
    | some c => if m.st = 6 ∧ m.next.isNone ∧ !inst then { m with st := servingSt (copyAt s c) } else m
    | none => if m.next.isNone ∧ (loadFor s n).isNone then empty else m

/-- Regions, shadows and numbers that nothing needs any more are freed (R402, R406, R411). -/
def sweepModels (s : State) : State :=
  let live := s.leap.copies.filter (copyNeeded s)
  let covered (i : Nat) : Bool := live.any (fun c => decide (c.origin ≤ i) && decide (i < c.origin + 1024 * c.units))
  let s1 := modLeap s (fun l => { l with copies := live, ents := l.ents.filter (fun e => covered e.1) })
  let s2 := modLeap s1 (fun l => { l with models := l.models.map (fun p => (p.1, restModel s1 p.1 p.2)) })
  modLeap s2 (fun l => { l with shadows := l.shadows.filter (shadowNeeded s2) })

/-! Loads -/

def loadAt (s : State) (lid : Nat) : Option Load := s.leap.loads.find? (fun x => x.lid == lid)

def modLoad (s : State) (lid : Nat) (f : Load → Load) : State :=
  modLeap s (fun l => { l with loads := l.loads.map (fun x => if x.lid == lid then f x else x) })

/-- The FEATURE section that governs a load (R397): the active image's, or the staged one's for the loads of R412. -/
def governing (s : State) (x : Load) : FeatureSec :=
  match if x.staged then s.img.staged.orElse (fun _ => s.img.active) else s.img.active with
  | some im => im.feature
  | none => ⟨[], []⟩

/-- The number serves, or is getting, this bundle as a fallback. -/
def onFallback (s : State) (n bundle : Nat) : Bool :=
  let m := modelAt s n
  let isIt (c : Option Nat) : Bool := (match c with
    | some k => (copyAt s k).isFb && (copyAt s k).bundle == bundle
    | none => false)
  (m.st != 7 && isIt m.serving) || isIt m.next || s.leap.loads.any (fun x => x.model == some n && x.isFb && x.bundle == bundle)

/-- A load that begins with its bytes at hand, in search of a region. -/
def shadowLoad (s : State) (x : Shadow) (n : Nat) (cls : Option Nat) (staged repair isFb : Bool) : State :=
  modLeap s (fun l => { l with loadSeq := l.loadSeq + 1, loads := l.loads ++
    [⟨l.loadSeq + 1, x.bundle, some n, cls, staged, repair, isFb, false, false, false, .region, 0, x.data.length, x.data, none⟩] })

/-- The fallback of a slot's bundle takes its model number by INSTALL from the standby shadow (R414), in the active table or the staged one; while the
standby is not yet verified, or another load works for the number, it waits. -/
def fallbackSwitch (s : State) (n : Nat) (staged : Bool) : State :=
  match (if staged then tableOf s.img.staged else slotsNow s).find? (fun x => x.model == n) with
  | none => s
  | some t =>
    if t.fallback = 0 ∨ onFallback s n t.fallback then modModel s n (fun m => { m with fbWant := 0 })
    else match s.leap.shadows.find? (fun x => x.model.isNone && x.bundle == t.fallback) with
      | some x =>
        if s.leap.loads.any (fun l => l.model == some n) then modModel s n (fun m => { m with fbWant := if staged then 2 else 1 })
        else shadowLoad (modModel s n (fun m => { m with fbWant := 0 })) x n (some t.cls) staged false true
      | none => modModel s n (fun m => { m with fbWant := if staged then 2 else 1 })

/-- Fallbacks that waited take their numbers (R414). -/
def standbyReady (s : State) : State :=
  (s.leap.models.filter (fun p => p.2.fbWant != 0)).foldl (fun a p => fallbackSwitch a p.1 (p.2.fbWant == 2)) s

/-- A load is refused (R401): the record, the jobs that waited for it (R407), and the slot's fallback (R414). -/
def refuseLoad (s : State) (x : Load) (code : Nat) : State :=
  let n := x.model.getD 0
  let keep := s.leap.copies.filter (fun c => x.copy != some c.cid)
  let rest := s.leap.loads.filter (fun y => y.lid != x.lid)
  let s1 := rcInc (modLeap s (fun l => { l with loads := rest, refCode := code, refModel := n, refBundle := x.bundle, copies := keep })) .leapLoadRefused
  let s2 := (match x.model with
    | some k => modModel s1 k (fun m => { m with next := if x.copy.isSome ∧ m.next = x.copy then none else m.next })
    | none => s1)
  let s3 := sweepModels (discardJobs s2 6 (fun j => j.cid == 0 && j.bundle == x.bundle))
  if x.isFb || x.model.isNone || code == 0x0E then s3 else fallbackSwitch s3 n x.staged

/-- Shadow space for a bundle is taken, waited for, or refused (R402, R404); then its LENGTH bytes are fetched. -/
def trySpace (s : State) (x : Load) : State :=
  if storeFits s [] x.len && x.flash then modLoad s x.lid (fun y => { y with phase := .fetched, data := storeRead s x.addr x.len })
  else if storeFits s [] x.len then
    mmReadJob (modLoad s x.lid (fun y => { y with phase := .body })) (.bundleBody x.lid) 2 255 x.addr x.len
  else match makeSpace s (fun gone => storeFits s gone x.len) with
    | some s1 => s1
    | none => refuseLoad s x 0x0D

/-- A model used (R404): a job on it starts, or a LOAD command names its bundle. -/
def useModel (s : State) (n : Nat) : State :=
  modModel (modLeap s (fun l => { l with useSeq := l.useSeq + 1 })) n (fun m => { m with used := s.leap.useSeq + 1 })

/-- A number for a load on demand (R404): the lowest EMPTY one that no slot names and no load has taken. -/
def emptyNumber (s : State) : Option Nat :=
  ((List.range (Config.models s.integ)).filter (fun n => !tablePinned s n)).find? (fun n =>
    (modelAt s n).st == 0 && !s.leap.loads.any (fun x => x.model == some n))

/-- The load has its number, which begins FETCHING. -/
def giveNumber (s : State) (x : Load) (n : Nat) : State :=
  let s1 := modModel (modLoad s x.lid (fun y => { y with model := some n, demand := false })) n (fun m =>
    if m.serving.isNone then { m with st := 1, bundle := x.bundle } else m)
  if x.byHost then useModel s1 n else s1

/-- The header of a bundle whose descriptor is known is read (R401): from the boot store (R650), then the load looks for its space, or over mm_. -/
def readHeader (s : State) (x : Load) : State :=
  if x.flash then
    (match bunHeaderBad s.integ x.len (storeRead s x.addr (min 64 x.len)) with
     | some c => refuseLoad s x c
     | none =>
       let y : Load := { x with phase := .space }
       trySpace (modLoad s x.lid (fun _ => y)) y)
  else mmReadJob (modLoad s x.lid (fun y => { y with phase := .head })) (.bundleHead x.lid) 2 255 x.addr (max 1 (min 64 x.len))

/-- The descriptor is found. A load on demand takes its number now: an EMPTY one, one that an eviction empties, or none, and it is refused (R404). -/
def found (s : State) (x : Load) (addr len : Nat) (flash : Bool) : State :=
  let y : Load := { x with addr := addr, len := len, flash := flash }
  let s1 := modLoad s x.lid (fun _ => y)
  if !x.demand then readHeader s1 y
  else match emptyNumber s1 with
    | some n => readHeader (giveNumber s1 y n) { y with model := some n, demand := false }
    | none =>
      match evictable s1 with
      | n :: _ => modLoad (evictModel s1 n true) x.lid (fun z => { z with model := some n, phase := .number })
      | [] => refuseLoad s1 y 0x0D

/-- A fetch from the active pack of the boot store while LEAP_BUNDLE_COUNT is 0 (R650). -/
def fetchPack (s : State) (x : Load) : State :=
  match (packDir s (packAt s)).find? (fun e => e.1 == x.bundle) with
  | none => refuseLoad s x 0x02
  | some e => found s x e.2.1 e.2.2 true

/-- A fetch begins: the bundle table is read (R399, R400, R650). The load is a request to LEAP: it waits while the unit is in RET or OFF (R48, R51). -/
def fetchTable (s0 : State) (x : Load) : State :=
  let s := touch s0 3
  if s.rst.keyState ≠ 1 then refuseLoad s x 0x01
  else if asleep s 3 then modLoad s x.lid (fun y => { y with phase := .table })
  else if rwGet s .leapBundleCount = 0 then fetchPack s x
  else mmReadJob (modLoad s x.lid (fun y => { y with phase := .table })) (.bundleTable x.lid) 2 255 (pairBase s .leapBundleBase)
    (16 * rwGet s .leapBundleCount)

/-- A load starts for a model number (or a standby). -/
def startLoad (s : State) (bundle : Nat) (model : Option Nat) (cls : Option Nat) (staged : Bool) : State :=
  let s1 := modLeap s (fun l => { l with loadSeq := l.loadSeq + 1 })
  let x : Load := ⟨s1.leap.loadSeq, bundle, model, cls, staged, false, false, false, false, false, .table, 0, 0, [], none⟩
  let s2 := modLeap s1 (fun l => { l with loads := l.loads ++ [x] })
  let s3 := (match model with
    | some n => if (modelAt s2 n).serving.isNone then modModel s2 n (fun m => { m with st := 1, bundle := bundle, fbWant := 0 }) else s2
    | none => s2)
  fetchTable s3 x

/-- A load on demand starts (R404, R407): with an EMPTY number where there is one. -/
def startDemand (s : State) (bundle : Nat) (byHost : Bool) : State :=
  let s1 := modLeap s (fun l => { l with loadSeq := l.loadSeq + 1 })
  let x : Load := ⟨s1.leap.loadSeq, bundle, none, none, false, false, false, false, true, byHost, .table, 0, 0, [], none⟩
  let n := emptyNumber s1
  let s2 := modLeap s1 (fun l => { l with loads := l.loads ++ [x] })
  match n with
  | some k => fetchTable (giveNumber s2 x k) { x with model := some k, demand := false }
  | none => fetchTable s2 x

/-- The copy that INSTALL begins to write at a region's origin. -/
def newCopy (s : State) (x : Load) (n unit : Nat) : Copy :=
  { cid := s.leap.copySeq + 1, model := n, bundle := x.bundle, cls := byteAt x.data 6, origin := 1024 * unit, units := ceilDiv (bunEntries x.data) 1024,
    entries := bunEntries x.data, nodes := leAt x.data 0x18 4, isFb := x.isFb, done := false, staged := x.staged, repair := x.repair, trees := [],
    pads := [], depths := [], head := bunHead x.data }

/-- INSTALL begins in a free region (R405, R409), waits for one (R404), or is refused; a repair that finds none switches to the fallback (R414). -/
def tryInstall (s : State) (x : Load) : State :=
  match x.model with
  | none => s
  | some n =>
    let units := ceilDiv (bunEntries x.data) 1024
    match freeRun s [] units with
    | some u =>
      let c := newCopy s x n u
      let s1 := modLeap s (fun l => { l with copySeq := l.copySeq + 1, copies := l.copies ++ [c] })
      let s2 := modLoad s1 x.lid (fun y => { y with phase := .install, copy := some c.cid })
      modModel s2 n (fun m =>
        if m.st = 7 then { m with next := some c.cid }
        else if m.serving.isNone then { m with st := 3, bundle := x.bundle, next := if m.atEdge then some c.cid else m.next }
        else { m with st := 6, next := some c.cid })
    | none =>
      match makeSpace s (fun gone => (freeRun s gone units).isSome) with
      | some s1 => s1
      | none =>
        if x.repair then
          fallbackSwitch (sweepModels (modLeap s (fun l => { l with loads := l.loads.filter (fun y => y.lid != x.lid) }))) n false
        else refuseLoad s x 0x0D

/-- A load that waits tries again. -/
def stepLoad (s : State) (lid : Nat) : State :=
  match loadAt s lid with
  | none => s
  | some x =>
    match x.phase with
    | .number =>
      let n := x.model.getD 0
      if (modelAt s n).st = 0 then readHeader (giveNumber s x n) { x with demand := false } else s
    | .table => if (mmJobOf s (.bundleTable x.lid)).isNone && !asleep s 3 then fetchTable s x else s
    | .space => trySpace s x
    | .region => tryInstall s x
    | _ => s

/-- Loads that wait for a number, for space or for a region move on. -/
def loadPump (s : State) : State :=
  let s1 := sweepModels s
  mmPump ((s1.leap.loads.map (·.lid)).foldl stepLoad s1)

/-- The bundle table has arrived (R399). -/
def tableDone (s : State) (lid : Nat) (d : Bytes) (err : Nat) : State :=
  match loadAt s lid with
  | none => s
  | some x =>
    if err ≠ 0 then refuseLoad s x 0x03
    else match (List.range (d.length / 16)).find? (fun i => leAt d (16 * i + 12) 4 == x.bundle) with
      | none => refuseLoad s x 0x02
      | some i => mmPump (found s x (leAt d (16 * i) 8 % 2 ^ 52) (leAt d (16 * i + 8) 4) false)

/-- The header has arrived (R401). -/
def headDone (s : State) (lid : Nat) (d : Bytes) (err : Nat) : State :=
  match loadAt s lid with
  | none => s
  | some x =>
    if err ≠ 0 then refuseLoad s x 0x03
    else match bunHeaderBad s.integ x.len d with
      | some c => refuseLoad s x c
      | none => loadPump (modLoad s lid (fun y => { y with phase := .space }))

/-- The last bytes have arrived. -/
def bodyDone (s : State) (lid : Nat) (d : Bytes) (err : Nat) : State :=
  match loadAt s lid with
  | none => s
  | some x => if err ≠ 0 then refuseLoad s x 0x03 else modLoad s lid (fun y => { y with phase := .fetched, data := d })

/-- FETCH is complete; VERIFY begins (R403). -/
def fetchDone (s : State) : State :=
  match s.leap.loads.find? (fun x => x.phase == .fetched) with
  | none => s
  | some x =>
    let s1 := modLoad s x.lid (fun y => { y with phase := .verify })
    match x.model with
    | some n => modModel s1 n (fun m => { m with st := if m.st = 1 then 2 else m.st })
    | none => s1

/-- VERIFY is complete (R401, R402): a refusal, or a shadow and INSTALL. -/
def verifyDone (s : State) : State :=
  match s.leap.loads.find? (fun x => x.phase == .verify) with
  | none => s
  | some x =>
    match bundleBad s.integ s.rst.key (governing s x) x.cls x.bundle x.len x.data with
    | some c => loadPump (refuseLoad s x c)
    | none =>
      let s1 := modLeap s (fun l => { l with shadows := l.shadows ++ [⟨x.bundle, x.model, x.data⟩] })
      match x.model with
      | none => loadPump (standbyReady (modLeap s1 (fun l => { l with loads := l.loads.filter (fun y => y.lid != x.lid) })))
      | some _ => loadPump (modLoad s1 x.lid (fun y => { y with phase := .region }))

/-- OVERCOMMIT (R424) of the table in force, or of the staged image's with the copies made for it. -/
def overcommitNow (s : State) (staged : Bool) : Bool :=
  let im := if staged then s.img.staged else s.img.active
  let slots := (tableOf im).filter (fun t => t.cls == 1 && decide (t.tier ≤ 1))
  let copyFor (t : SlotEnt) : Option Copy :=
    if staged then s.leap.copies.find? (fun c => c.model == t.model && c.bundle == t.bundle && c.done)
    else
      let m := modelAt s t.model
      (((m.next.map (copyAt s)).filter (fun c => c.done && !c.staged)).orElse (fun _ => m.serving.map (copyAt s)))
  let work (t : SlotEnt) : Nat := (match copyFor t with
    | some c => sumOf ((List.range 8).map (worstLeaps c))
    | none => 0)
  let n := (match im with
    | some i => epochTicks i.node.e * s.integ.coreMHz / 1024000
    | none => 0)
  let reserve := if staged then ((im.bind (·.epochtab)).map (·.reserve)).getD 0 else rwEff s .leapSchedCfg
  (List.range 256).any (fun p => decide (lanesIn s * reserve * n / 8 <
    sumOf ((slots.filter (fun t => p % 2 ^ t.period == t.phase)).map work)))

/-- Host-issued jobs that waited for the bundle get their model (R407); their views gain strands (R422). -/
def wakeJobs (s : State) (n cid bundle cls : Nat) : State :=
  (s.leap.jobs.filter (fun j => jobLive j && j.cid == 0 && j.bundle == bundle)).foldl (fun a j =>
    modJob (vtJoin a j.view) j.jid (fun k => { k with cid := cid, model := n, cls := cls, strands := freshStrands (copyAt s cid) })) s

/-- The entries, tree records and head block of a copy are written (R409). -/
def writeCopy (s : State) (c : Copy) (b : Bytes) : State :=
  let ents := (List.range c.entries).filterMap (fun i =>
    let e := bunEnt b i
    if e = entNone then none else some (c.origin + i, relocate c.origin e))
  let clear := s.leap.ents.filter (fun e => !(decide (c.origin ≤ e.1) && decide (e.1 < c.origin + c.entries)))
  modCopy (modLeap s (fun l => { l with ents := ents.foldl (fun t p => setKey t p.1 p.2) clear })) c.cid (fun x => { x with
    done := true, depths := bunDepths b, pads := (bunPads b).map (fun l => l.map (fun p => (p.1, p.2 + c.origin))),
    trees := (List.range (bunTrees b)).map (fun t => let r := bunTree b t; { r with base := r.base + c.origin, retired := false }) })

/-- INSTALL is complete (R409 to R411), or a word has read back wrong and INSTALL starts again elsewhere. -/
def installDone (s : State) (bad : Option Nat) : State :=
  match s.leap.loads.find? (fun x => x.phase == .install) with
  | none => s
  | some x =>
    let c := copyAt s (x.copy.getD 0)
    match bad with
    | some i =>
      let u := (c.origin + i) / 1024
      let s1 := rcInc (modLeap s (fun l => { l with quar := if l.quar.contains u then l.quar else l.quar ++ [u], copies := l.copies.filter (fun y => y.cid != c.cid) })) .leapInstallBad
      loadPump (modLoad (modModel s1 c.model (fun m => { m with next := if m.next = some c.cid then none else m.next })) x.lid
        (fun y => { y with phase := .region, copy := none }))
    | none =>
      let s1 := writeCopy s c x.data
      let s2 := modLeap s1 (fun l => { l with loads := l.loads.filter (fun y => y.lid != x.lid) })
      let first := (modelAt s2 c.model).serving.isNone && !x.staged && !(modelAt s2 c.model).atEdge && (modelAt s2 c.model).st != 7
      let s3 := if first then wakeJobs (modModel s2 c.model (fun m => { m with
          st := servingSt (copyAt s2 c.cid), serving := some c.cid, bundle := c.bundle })) c.model c.cid c.bundle c.cls
        else modModel s2 c.model (fun m => { m with next := some c.cid })
      let top := (if x.staged then tableOf s3.img.staged else slotsNow s3).any (fun t => t.model == c.model && decide (t.tier ≤ 1))
      loadPump (if top && overcommitNow s3 x.staged then modLeap s3 (fun l => { l with overcommit := true }) else s3)

/-! Switching (R411, R412) -/

/-- Installed copies take effect at an epoch edge. -/
def switchCopies (s : State) : State :=
  loadPump ((s.leap.models.map (·.1)).foldl (fun a n =>
    match (modelAt a n).next with
    | none => a
    | some cid =>
      let c := copyAt a cid
      if c.done && !c.staged && (modelAt a n).st != 7 then
        let a1 := modModel a n (fun m => { m with st := servingSt c, serving := some cid, next := none, bundle := c.bundle, atEdge := false })
        let a2 := wakeJobs a1 n cid c.bundle c.cls
        if c.repair then rcInc a2 .leapRepair else a2
      else a) s)

/-- A model number holds, or is getting, a bundle. -/
def holdsBundle (s : State) (n bundle : Nat) : Bool :=
  let m := modelAt s n
  (m.st != 0 && m.st != 7 && m.bundle == bundle) || s.leap.loads.any (fun x => x.model == some n && x.bundle == bundle) ||
  s.leap.copies.any (fun c => c.model == n && c.bundle == bundle && m.next == some c.cid)

/-- The bundles of a table are fetched, each for its number, and the fallbacks as standbys (R412, R414). A slot that is on its fallback stays there. -/
def loadTable (s : State) (slots : List SlotEnt) (staged : Bool) : State :=
  slots.foldl (fun a t =>
    let a1 := if holdsBundle a t.model t.bundle || (!staged && t.fallback != 0 && onFallback a t.model t.fallback) then a
      else startLoad a t.bundle (some t.model) (some t.cls) staged
    if t.fallback = 0 || a1.leap.shadows.any (fun x => x.model.isNone && x.bundle == t.fallback) ||
      a1.leap.loads.any (fun x => x.model.isNone && !x.demand && x.bundle == t.fallback) then a1
    else startLoad a1 t.fallback none (some t.cls) staged) s

/-- The staged image's bundles are fetched and installed before e_A (R412). -/
def stageModels (s : State) : State := mmPump (loadTable s (tableOf s.img.staged) true)

/-- Host-issued jobs whose load went with a discarded image have their bundle loaded on demand (R407). -/
def reloadWaiting (s : State) : State :=
  (s.leap.jobs.filter (fun j => jobLive j && j.cid == 0)).foldl (fun a j =>
    if a.leap.loads.any (fun x => x.bundle == j.bundle && (x.model.isSome || x.demand)) || a.leap.models.any (fun p => p.2.bundle == j.bundle && p.2.st != 0) then a
    else startDemand a j.bundle false) s

/-- The loads of a staged image that is discarded end. -/
def unstageModels (s : State) : State :=
  let gone := (s.leap.loads.filter (·.staged)).filterMap (·.copy) ++ (s.leap.copies.filter (·.staged)).map (·.cid)
  let freed := s.leap.models.map (fun p => (p.1, { p.2 with
    next := if (p.2.next.map gone.contains).getD false then none else p.2.next, fbWant := if p.2.fbWant = 2 then 0 else p.2.fbWant }))
  let rest := s.leap.loads.filter (fun x => !x.staged)
  mmPump (reloadWaiting (sweepModels (modLeap s (fun l => { l with loads := rest, copies := l.copies.filter (fun c => !gone.contains c.cid), models := freed }))))

/-- A resident model that the new FEATURE section contradicts is evicted; what was fetched or installed for the new image stays (R412). -/
def outdate (s : State) (n : Nat) : State :=
  rcInc (modModel s n (fun m => { m with st := 7, atEdge := true, next := (m.next.filter (fun c => (copyAt s c).staged)) })) .leapHotEvict

/-- The bytes of the shadow of what a number serves: its own, or the standby's of its fallback. -/
def shadowOf (s : State) (n : Nat) (m : Model) : Option Shadow :=
  let fb := (match m.serving with
    | some c => (copyAt s c).isFb
    | none => false)
  s.leap.shadows.find? (fun x => x.bundle == m.bundle && (x.model == some n || (fb && x.model.isNone)))

/-- The activation instant (R412): loads and models that the new FEATURE section contradicts end ABORTED or evicted, copies made for the image may serve,
and what its table still lacks is fetched. The copies that served until now are kept for samples of earlier epochs (R133). -/
def activateModels (s : State) : State :=
  let fs := (match s.img.active with
    | some im => im.feature
    | none => ⟨[], []⟩)
  let kept := modLeap s (fun l => { l with models := l.models.map (fun p => (p.1, { p.2 with prev := if p.2.st = 7 then none else p.2.serving })) })
  let a := (kept.leap.loads.filter (fun x => !x.staged && (x.phase == .region || x.phase == .install) && !bunFeatureOk fs x.data)).foldl (fun t x => refuseLoad t x 0x0E) kept
  let bad := (a.leap.models.filter (fun p => p.2.st != 7 && p.2.serving.isSome && ((shadowOf a p.1 p.2).map (fun x => !bunFeatureOk fs x.data)).getD false)).map (·.1)
  let s1 := bad.foldl outdate a
  let s2 := modLeap s1 (fun l => { l with
    shadows := l.shadows.filter (fun x => x.model.isSome || bunFeatureOk fs x.data),
    models := l.models.map (fun p => (p.1, { p.2 with fbWant := if p.2.fbWant = 2 then 1 else 0 })),
    loads := l.loads.map (fun x => { x with staged := false }), copies := l.copies.map (fun c => { c with staged := false }) })
  mmPump (standbyReady (loadTable (switchCopies s2) (slotsNow s) false))

/-! Repair (R413, R415) -/

/-- A repair from the shadow of what the number serves; with another load under way for it, it waits. -/
def startRepair (s : State) (n : Nat) : State :=
  let m := modelAt s n
  if s.leap.loads.any (fun l => l.model == some n) then modModel s n (fun k => { k with repairDue := true })
  else
    let s1 := modModel s n (fun k => { k with repairDue := false })
    let fb := (match m.serving with
      | some c => (copyAt s c).isFb
      | none => false)
    match shadowOf s n m with
    | none => fallbackSwitch s1 n false
    | some x => loadPump (shadowLoad s1 x n none false true fb)

/-- Repairs that waited for another load start. -/
def dueRepairs (s : State) : State :=
  (s.leap.models.filter (fun p => p.2.repairDue && p.2.st == 5 && !s.leap.loads.any (fun l => l.model == some p.1))).foldl (fun a p => startRepair a p.1) s

/-- Models that have just become DEGRADED are repaired where REPAIR is 1, and repairs that waited start (R413). -/
def autoRepair (old s : State) : State :=
  if rwGet s .leapHotCfg % 2 = 0 then dueRepairs s
  else dueRepairs (((s.leap.models.filter (fun p => p.2.st == 5 && (modelAt old p.1).st != 5)).map (·.1)).foldl startRepair s)

/-! Host commands (R403, R406, R407, R415) -/

/-- The number under which a bundle is resident or being loaded. -/
def bundleNumber (s : State) (bundle : Nat) : Option Nat :=
  ((s.leap.models.find? (fun p => p.2.bundle == bundle && p.2.st != 0 && p.2.st != 7)).map (·.1)).orElse
    (fun _ => (s.leap.loads.find? (fun x => x.bundle == bundle && x.model.isSome)).bind (·.model))

/-- A load on demand of the bundle is under way and has no number yet. -/
def demanded (s : State) (bundle : Nat) : Bool := s.leap.loads.any (fun x => x.bundle == bundle && x.demand)

/-- LOAD. -/
def loadCmd (s : State) (bundle : Nat) : State :=
  match bundleNumber s bundle with
  | some n => useModel s n
  | none =>
    if demanded s bundle then modLeap s (fun l => { l with loads := l.loads.map (fun x => if x.bundle == bundle && x.demand then { x with byHost := true } else x) })
    else mmPump (startDemand s bundle true)

/-- EVICT. -/
def evictCmd (s : State) (n : Nat) : State :=
  if tablePinned s n then modLeap s (fun l => { l with cmdRefused := true }) else loadPump (evictModel s n true)

/-- PIN and UNPIN; a number that the instance lacks takes neither. -/
def pinCmd (s : State) (n : Nat) (on : Bool) : State :=
  if n < Config.models s.integ then modModel s n (fun m => { m with hpin := on }) else s

/-- REPAIR. -/
def repairCmd (s : State) (n : Nat) : State :=
  if (modelAt s n).st = 5 then startRepair s n else modLeap s (fun l => { l with cmdRefused := true })

/-! Jobs (R407, R418, R419, R629) -/

/-- A job joins its tier's queue; with no lane in service it ends at once (R391). -/
def addJob (s : State) (j : Job) : State :=
  let s0 := if j.tier = 2 && j.cid != 0 then vtJoin s j.view else s
  let s1 := modLeap s0 (fun l => { l with jobSeq := j.jid, jobs := l.jobs ++ [j] })
  let s2 := { s1 with feat := { s1.feat with slots := s1.feat.slots.map (fun f =>
    if f.vec.cls = j.vec.cls ∧ f.vec.epoch = j.vec.epoch ∧ f.vec.key = j.vec.key then { f with jobs := f.jobs ++ [j.jid] } else f) } }
  if lanesIn s2 = 0 then endJob s2 j.jid 3 [] else s2

/-- The jobs of the epoch table on a completed sample, in ascending slot index (R418, R419). -/
def slotJobs (s : State) (v : Vec) : State :=
  ((tableOf (imageAtVec s v)).filter (fun t => t.cls == v.cls && (v.cls != 1 || v.epoch % 2 ^ t.period == t.phase))).foldl (fun a t =>
    let m := modelAt a t.model
    match (if isOld s v then m.prev else if m.st = 4 ∨ m.st = 5 ∨ m.st = 6 then m.serving else none) with
    | some c =>
      addJob a ⟨a.leap.jobSeq + 1, c, (copyAt a c).bundle, t.model, t.cls, t.tier, t.view, 0, false, false, false, 0, v, freshStrands (copyAt a c), none, []⟩
    | none => rcInc a .leapSlotSkip) s
where
  /-- The sample is of an epoch before e_A, whose jobs the old image rules (R133). -/
  isOld (s : State) (v : Vec) : Bool := s.img.hasAct && decide (v.epoch < s.img.eA) && s.img.old.isSome
  /-- The image in force for the sample's epoch (R133). -/
  imageAtVec (s : State) (v : Vec) : Option Image := if isOld s v then s.img.old else s.img.active

/-- A host-issued job (R407, R629) on the codes of `v`. -/
def hostJob (s : State) (view bundle tag : Nat) (v : Vec) : State :=
  let ready := s.leap.models.find? (fun p => p.2.bundle == bundle && (p.2.st == 4 || p.2.st == 5 || p.2.st == 6) && p.2.serving.isSome)
  let jid := s.leap.jobSeq + 1
  match ready with
  | some (n, m) =>
    let c := copyAt s (m.serving.getD 0)
    addJob s ⟨jid, c.cid, bundle, n, c.cls, 2, view, tag, true, false, false, 0, v, freshStrands c, none, []⟩
  | none =>
    let s1 := addJob s ⟨jid, 0, bundle, 0, 1, 2, view, tag, true, false, false, 0, v, [], none, []⟩
    if (bundleNumber s bundle).isSome || demanded s bundle then s1 else mmPump (startDemand (rcInc s1 .leapHotMiss) bundle false)

/-- A fault instant ends every load (R577): ABORTED. -/
def abortLoads (s : State) : State := s.leap.loads.foldl (fun a x => refuseLoad a x 0x0E) s

/-- A fault instant ends loads and jobs (R577): each load ABORTED, each job DISCARDED_RESET. -/
def abortLeap (s : State) : State := discardJobs (abortLoads s) 4 (fun _ => true)

/-- LEAP_HOT_STAT (R425). -/
def hotStatWord (s : State) (n : Nat) : Nat :=
  let m := modelAt s n
  let c := (match m.serving with
    | some c => copyAt s c
    | none => copyNone)
  m.st * 2 ^ 29 + flag (tablePinned s n) * 2 ^ 28 + flag m.hpin * 2 ^ 27 + flag c.isFb * 2 ^ 26 + (c.trees.filter (·.retired)).length

/-- A command that may have ended jobs or degraded models settles the hot set. -/
def leapSettle (old s : State) : State := loadPump (autoRepair old s)

end Sys2Proof.Machine
end

