-- ==== Sys2Proof/Machine/Loader.lean ====
section
/-!
DEFINITION. The loader's structural checks (R117 codes 0x01 to 0x0F but for SIGNATURE, R689's order) and the reading of each
section's body. A section's check is a list of (byte offset, the field is as stated); the failing field at the lowest offset is
reported, and a rule about the whole body after every field, at offset 0.
-/
namespace Sys2Proof.Machine

/-- The first failing field of a section: the lowest offset whose check does not hold. -/
def firstBad (c : List (Nat × Bool)) : Option Nat :=
  (c.filter (fun p => !p.2)).foldl (fun a p => match a with
    | none => some p.1
    | some m => some (min m p.1)) none

/-- The check of a field of `n` zero bytes, reported at its offset (R689). -/
def zeroAt (b : Bytes) (off n : Nat) : List (Nat × Bool) :=
  [(off, (List.range n).all (fun i => byteAt b (off + i) == 0))]

/-- A rule on the field at `off`. -/
def chk (off : Nat) (ok : Bool) : Nat × Bool := (off, ok)

/-- The failing part of a section of type `ty`: its fields, then a rule on the whole body, at offset 0 (R689). -/
def sectionBad (ty : Nat) (fields : List (Nat × Bool)) (whole : Bool) : Option (Nat × Nat × Nat) :=
  match firstBad fields with
  | some o => some (12, ty, o)
  | none => if whole then none else some (12, ty, 0)

/-- Ascending without repeats. -/
def ascending : List Nat → Bool
  | a :: b :: r => decide (a < b) && ascending (b :: r)
  | _ => true

/-! NODE (R116) -/

def readNode (b : Bytes) : NodeSec :=
  { nodeId := leAt b 0 3, h := byteAt b 4, hmax := byteAt b 5, e := signed 8 (byteAt b 6), lPeer := byteAt b 7,
    wH := leAt b 8 4, parentPri := leAt b 12 3, parentAlt := leAt b 16 3, portPri := byteAt b 20, portAlt := byteAt b 21 }

/-- Bits [31:24] of the word that holds NODE_ID are taken to be zero bytes (log entry 132). -/
def checkNode (role hdrNode : Nat) (b : Bytes) : List (Nat × Bool) :=
  let n := readNode b
  [chk 0 (n.nodeId == hdrNode && byteAt b 3 == 0 &&
      (if role = 1 then decide (n.nodeId ≤ 0xFFFFF) else decide (0x100000 ≤ n.nodeId ∧ n.nodeId ≤ 0xFFFFFE))),
   chk 4 (if role = 1 then n.h == 0 else if role = 2 then decide (1 ≤ n.h ∧ n.h ≤ 14) else n.h == n.hmax),
   chk 5 (decide (1 ≤ n.hmax ∧ n.hmax ≤ 15) && (role == 3 || decide (n.h < n.hmax))),
   chk 6 (decide (-10 ≤ n.e ∧ n.e ≤ 10)),
   chk 7 (decide (1 ≤ n.lPeer ∧ n.lPeer ≤ 8)),
   chk 8 (if role = 1 then n.wH == 0 else decide (1000 ≤ n.wH ∧ n.wH ≤ 1000000)),
   chk 12 (if role = 3 then n.parentPri == 0xFFFFFF else true),
   chk 16 (if role = 3 then n.parentAlt == 0xFFFFFF else n.parentAlt != n.parentPri && n.parentAlt != n.nodeId),
   chk 20 (if role = 1 then n.portPri == 0 else if role = 2 then decide (n.portPri ≤ 175) else n.portPri == 0xFF),
   chk 21 (if role = 1 then n.portAlt == 1
      else if role = 2 then decide (n.portAlt ≤ 175) && n.portAlt != n.portPri else n.portAlt == 0xFF)]
   ++ zeroAt b 22 10

/-! CAPTURE (R225 to R227) -/

def readLane (w : Nat) : LaneEnt :=
  { lane := w % 4096, mode := (w / 4096) % 4, vis := (w / 16384) % 4, owner := (w / 65536) % 64 }

def capLanes (b : Bytes) : Nat := leAt b 0 4

/-- Offset L of R225. -/
def capRingOff (b : Bytes) : Nat := roundUp (0x1A0 + 4 * capLanes b) 16

def readCapture (rings : Nat) (b : Bytes) : CaptureSec :=
  let fl := leAt b 4 4
  let ringEn := fl.testBit 2
  { lanes := (List.range (capLanes b)).map (fun i => readLane (leAt b (0x1A0 + 4 * i) 4)),
    engEn := fl.testBit 0, optabEn := fl.testBit 1, ringEn := ringEn, healthEn := fl.testBit 3, stepEn := fl.testBit 4,
    profKinds := (fl / 256) % 64, obsCap := leAt b 8 4, stale := leAt b 12 2,
    engines := setBits 512 (leAt b 0x10 64), sensors := setBits 256 (leAt b 0x50 32), links := setBits 256 (leAt b 0x70 32),
    traces := setBits 64 (leAt b 0x90 8),
    memStacks := ((List.range 64).map (fun i => (i, byteAt b (0xA0 + 4 * i)))).filter (fun p => p.2 != 0),
    rings := if ringEn then
        ((List.range rings).map (fun i => (i, leAt b (capRingOff b + 2 * i) 2))).filter (fun p => p.2 != 0xFFFF)
      else [] }

def checkCapture (g : Integ) (role : Nat) (b : Bytes) : List (Nat × Bool) :=
  let newt := role == 1
  let c := readCapture g.rings b
  let fl := leAt b 4 4
  let n := capLanes b
  [chk 0 (decide (n ≤ g.counters) && (newt || n == 0)),
   chk 4 (fl &&& 0xFFFFC0E0 == 0 && (!c.optabEn || c.engEn) && (newt || fl &&& 0x17 == 0)),
   chk 8 (decide (1 ≤ c.obsCap ∧ c.obsCap ≤ 30)),
   chk 12 (leAt b 14 2 == 0),
   chk 0x10 ((c.engEn || leAt b 0x10 64 == 0) && (newt || leAt b 0x10 64 == 0) && c.engines.all (fun e => decide (e < g.engines))),
   chk 0x90 (c.traces.all (fun t => decide (t < g.traces)))]
  ++ zeroAt b 0x98 8
  ++ (List.range 64).map (fun i => chk (0xA0 + 4 * i)
      (leAt b (0xA1 + 4 * i) 3 == 0 && decide (byteAt b (0xA0 + 4 * i) ≤ 128) &&
        (byteAt b (0xA0 + 4 * i) == 0 || decide (i < Config.memStacks g))))
  ++ (List.range (min n g.counters)).map (fun i =>
      let w := leAt b (0x1A0 + 4 * i) 4
      let l := readLane w
      chk (0x1A0 + 4 * i) (decide (w < 2 ^ 22) && decide (l.vis ≤ 2) && decide (l.mode ≤ 2) && decide (l.lane < g.counters) &&
        (if l.vis = 1 then decide (1 ≤ l.owner ∧ l.owner ≤ g.views) else l.owner == 0) &&
        (i == 0 || decide ((readLane (leAt b (0x1A0 + 4 * (i - 1)) 4)).lane < l.lane))))
  ++ zeroAt b (0x1A0 + 4 * n) (capRingOff b - (0x1A0 + 4 * n))
  ++ (if c.ringEn then (List.range g.rings).map (fun i =>
      chk (capRingOff b + 2 * i) (decide (leAt b (capRingOff b + 2 * i) 2 < 1024) || leAt b (capRingOff b + 2 * i) 2 == 0xFFFF)) else [])

/-- The bytes of a CAPTURE body (R225). -/
def captureLen (g : Integ) (b : Bytes) : Nat :=
  if (readCapture g.rings b).ringEn then roundUp (capRingOff b + 2 * g.rings) 16 else capRingOff b

/-! FEATURE (R351 to R354) -/

def readFeat (b : Bytes) (i : Nat) : FeatDesc :=
  let o := 0x20 + 48 * i
  { hash := leAt b o 4, cls := byteAt b (o + 4), pre := byteAt b (o + 5) % 16, k := byteAt b (o + 5) / 16,
    xform := byteAt b (o + 6), selfHealth := (byteAt b (o + 7)).testBit 0, srcA := leAt b (o + 8) 4, srcB := leAt b (o + 12) 4,
    srcC := leAt b (o + 16) 4, p0 := leAt b (o + 0x18) 8, p1 := leAt b (o + 0x20) 8 }

def tabOff (b : Bytes) : Nat := leAt b 4 4

def readTab (b : Bytes) (i : Nat) : BinTab :=
  let o := tabOff b + 16 * i
  { ty := byteAt b o, vals := (List.range (leAt b (o + 2) 2)).map (fun k => leAt b (tabOff b + leAt b (o + 4) 4 + 8 * k) 8) }

def readFeature (b : Bytes) : FeatureSec :=
  { feats := (List.range (leAt b 0 2)).map (readFeat b), tabs := (List.range (leAt b 2 2)).map (readTab b) }

def srcKind (s : Nat) : Nat := s / 2 ^ 28
def srcPart (s : Nat) : Nat := (s / 2 ^ 20) % 16
def srcItem (s : Nat) : Nat := (s / 16) % 65536
def srcSub (s : Nat) : Nat := s % 16
def fieldSub (s : Nat) : Nat := (s / 2 ^ 24) % 16

/-- A SAMPLE source names a part, item and sub-item that the capture map produces (R283, R688). -/
def sampleOk (cap : Option CaptureSec) (s : Nat) : Bool :=
  match cap with
  | none => false
  | some c =>
    let it := srcItem s
    let sb := srcSub s
    (s / 2 ^ 24) % 16 == 0 &&
    match srcPart s with
    | 1 => (match c.lanes[it]? with
        | some l => decide (sb ≤ 3) && !(sb == 0 && l.mode == 1) && !(sb == 1 && l.mode == 0)
        | none => false)
    | 2 => c.engEn && decide (it < c.engines.length) && decide (sb ≤ 3)
    | 3 => c.engEn && decide (it < 16) && sb == 0
    | 4 => c.ringEn && decide (it < (groupsInUse c).length) && decide (sb ≤ 3)
    | 5 => c.healthEn && decide (it < c.memStacks.length) && decide (sb ≤ 5)
    | 6 => c.healthEn && decide (it < c.sensors.length) && decide (sb ≤ 5)
    | 7 => c.healthEn && decide (it < c.links.length) && decide (sb ≤ 1)
    | 8 => c.stepEn && decide (it < 4) && decide (sb ≤ 3)
    | _ => false

/-- The value of a SAMPLE source is twos complement (R284, R326). -/
def sampleSigned (s : Nat) : Bool := srcPart s == 6 && decide (1 ≤ srcSub s ∧ srcSub s ≤ 4)

/-- Domains of R326: 0 U64, 1 S64, 2 F64. A FIELD source's follows the field's TYPE. -/
def srcDomain (sch : List FieldDesc) (s : Nat) : Nat :=
  if srcKind s = 1 then (if sampleSigned s then 1 else 0)
  else if srcKind s = 5 then
    (if fieldSub s = 2 ∨ fieldSub s = 3 then 2
     else if fieldSub s = 0 ∨ fieldSub s = 5 then (match sch[s % 65536]? with
        | some f => if f.op = 4 then 0 else if f.ty = 1 then 2 else 0
        | none => 0)
     else 0)
  else 0

/-- Domain after the pre-operation (R329). -/
def preDomain (sch : List FieldDesc) (f : FeatDesc) : Nat :=
  if f.pre = 0 then srcDomain sch f.srcA
  else if f.pre = 1 then (if srcDomain sch f.srcA = 2 then 2 else 1) else 2

/-- A source word is allowed for a feature of this class in this role, as far as FEATURE and CAPTURE say (R328). -/
def featSrcOk (g : Integ) (role : Nat) (cap : Option CaptureSec) (feats : List FeatDesc) (idx cls s : Nat) : Bool :=
  match srcKind s with
  | 1 => cls == 1 && sampleOk cap s && (role == 1 || (decide (5 ≤ srcPart s ∧ srcPart s ≤ 7)))
  | 2 => decide (s % 2 ^ 28 < 65536) && decide (s % 65536 < idx) && (match feats[s % 65536]? with
      | some f => f.cls == cls
      | none => false)
  | 5 => cls == 1 && role != 1 && (s / 65536) % 256 == 0 && decide (g.lanes ≥ 0)
  | 6 => s % 2 ^ 28 < 16 && ((cls == 2 && decide (srcSub s ≤ 4)) || (cls == 3 && decide (8 ≤ srcSub s ∧ srcSub s ≤ 10)))
  | _ => false

def fstrict (ty a b : Nat) : Bool :=
  if ty = 0 then decide (a < b) else if ty = 1 then decide (signed 64 a < signed 64 b) else flt f64 a b

/-- Strictly ascending finite values (R337). -/
def tabAscends (ty : Nat) : List Nat → Bool
  | a :: b :: r => fstrict ty a b && tabAscends ty (b :: r)
  | _ => true

/-- Bytes from TAB_OFF to the end of the last table (R351). -/
def tabBytes (b : Bytes) : Nat :=
  (List.range (leAt b 2 2)).foldl (fun m i => max m (leAt b (tabOff b + 16 * i + 4) 4 + 8 * leAt b (tabOff b + 16 * i + 2) 2)) (16 * leAt b 2 2)

/-- A feature whose domain depends on a FIELD source, and so on the SCHEMA (R326, R689). -/
def schemaDomain (f : FeatDesc) : Bool := decide (f.pre ≤ 1) && srcKind f.srcA == 5

/-- XFORM and the BINS table suit the feature's domain (R336, R337, R354). -/
def domainOk (sch : List FieldDesc) (tabs : List BinTab) (f : FeatDesc) : Bool × Bool :=
  let dom := preDomain sch f
  (!(f.xform == 3 || f.xform == 5) || decide (dom ≤ 1), f.xform != 1 || (match tabs[f.p0 % 65536]? with
    | some t => t.ty == dom
    | none => false))

def checkFeature (g : Integ) (role : Nat) (cap : Option CaptureSec) (b : Bytes) : List (Nat × Bool) :=
  let s := readFeature b
  let nf := leAt b 0 2
  let nt := leAt b 2 2
  let tb := leAt b 8 4
  let maxF := Config.byClass g 2048 4096
  let feats := s.feats
  [chk 0 (decide (1 ≤ nf ∧ nf ≤ maxF)), chk 2 (decide (nt ≤ 1024)),
   chk 4 (tabOff b == roundUp (0x20 + 48 * nf) 16),
   chk 8 (decide (tb ≤ Config.byClass g 524288 4194304) && tb == tabBytes b)]
  ++ zeroAt b 12 20
  ++ ((List.range (min nf maxF)).map (fun i =>
      let o := 0x20 + 48 * i
      let f := readFeat b i
      let two := f.pre == 5 || f.pre == 6 || f.pre == 7
      let cross := f.xform == 4
      let dom := if schemaDomain f then (true, true) else domainOk [] s.tabs f
      [chk o (f.hash != 0 && !((feats.take i).any (fun x => x.hash == f.hash))),
       chk (o + 4) (decide (1 ≤ f.cls ∧ f.cls ≤ 3)),
       chk (o + 5) (decide (f.pre ≤ 7) && (if f.pre = 4 then decide (1 ≤ f.k) else f.k == 0) &&
         (!(f.pre == 2 || f.pre == 3) || f.cls == 1) && (!cross || f.pre == 0)),
       chk (o + 6) (decide (1 ≤ f.xform ∧ f.xform ≤ 5) && (!(f.xform == 3 || f.xform == 5) || decide (f.pre < 2)) && dom.1),
       chk (o + 7) (decide (byteAt b (o + 7) ≤ 1) && (!f.selfHealth || (role != 1 && f.cls == 1))),
       chk (o + 8) (featSrcOk g role cap feats i f.cls f.srcA && (!cross || srcKind f.srcA == 2)),
       chk (o + 12) (if two then featSrcOk g role cap feats i f.cls f.srcB
         else if cross then srcKind f.srcB == 2 && featSrcOk g role cap feats i f.cls f.srcB else f.srcB == 0),
       chk (o + 16) (if cross then f.srcC == 0 || (srcKind f.srcC == 2 && featSrcOk g role cap feats i f.cls f.srcC) else f.srcC == 0)]
      ++ zeroAt b (o + 0x14) 4
      ++ [chk (o + 0x18) (if f.xform = 1 then decide (f.p0 < 65536) && decide (f.p0 < nt) && dom.2
           else if f.xform = 2 then fisFinite f64 f.p0
           else if cross then decide (f.p0 < 2 ^ 48) && decide (2 ≤ f.p0 / 2 ^ 32) else f.p0 == 0),
         chk (o + 0x20) (if f.xform = 2 then fisFinite f64 f.p1 && flt f64 0 f.p1 else f.p1 == 0)]
      ++ zeroAt b (o + 0x28) 8)).flatten
  ++ ((List.range (min nt 1024)).map (fun i =>
      let o := tabOff b + 16 * i
      let t := readTab b i
      let n := leAt b (o + 2) 2
      let off := leAt b (o + 4) 4
      [chk o (decide (t.ty ≤ 2)), chk (o + 1) (byteAt b (o + 1) == 0), chk (o + 2) (decide (1 ≤ n ∧ n ≤ 65534)),
       chk (o + 4) (off % 8 == 0 && decide (16 * nt ≤ off) && decide (off + 8 * n ≤ tb) &&
         (List.range i).all (fun j =>
           let p := leAt b (tabOff b + 16 * j + 4) 4
           let m := leAt b (tabOff b + 16 * j + 2) 2
           decide (off + 8 * n ≤ p ∨ p + 8 * m ≤ off)))]
      ++ zeroAt b (o + 8) 8
      ++ [chk (tabOff b + off) (tabAscends t.ty t.vals && (t.ty != 2 || t.vals.all (fisFinite f64)))])).flatten

/-- The work of a class in cycles (R344). -/
def classCycles (s : FeatureSec) (cls : Nat) : Nat :=
  let occ (f : FeatDesc) : Nat :=
    if f.xform = 1 then (match s.tabs[f.p0 % 65536]? with
      | some t => Nat.log2 (2 * (t.vals.length + 1) - 1)
      | none => 1) else 1
  let srcs (f : FeatDesc) : List Nat := ([f.srcA, f.srcB, f.srcC].filter (fun w => srcKind w == 2)).map (· % 65536)
  let idx := (List.range s.feats.length).filter (fun i => match s.feats[i]? with
    | some f => f.cls == cls
    | none => false)
  let r := idx.foldl (fun (a : Nat × List Nat × List (Nat × Nat)) i =>
    match s.feats[i]? with
    | none => a
    | some f =>
      let (j, free, ready) := a
      let sl := j % 4
      let start := (srcs f).foldl (fun m g => max m (lookupD ready g 0)) (free.getD sl 0)
      (j + 1, free.set sl (start + occ f), setKey ready i (start + occ f + 6))) (0, [0, 0, 0, 0], [])
  r.2.2.foldl (fun m p => max m p.2) 0

/-- R344: the classes fit 1,200 ns at the instance's core clock. -/
def featTimeOk (g : Integ) (s : FeatureSec) : Bool :=
  decide ((classCycles s 1 + max (classCycles s 2) (classCycles s 3) + 16) * 1000 ≤ 1200 * g.coreMHz)

/-! SCHEMA and REDUCE (R282 to R287) -/

def readField (b : Bytes) (i : Nat) : FieldDesc :=
  let o := 32 + 32 * i
  { op := byteAt b o / 16, ty := byteAt b o % 16, jobbound := (byteAt b (o + 1)).testBit 0, dir := (byteAt b (o + 1)).testBit 1,
    param := byteAt b (o + 2), jobsel := byteAt b (o + 3), src := leAt b (o + 4) 4, thresh := leAt b (o + 8) 8,
    hash := leAt b (o + 16) 4, owner := leAt b (o + 20) 2 }

def schemaMapOff (b : Bytes) : Nat := 32 + 32 * leAt b 4 2
def schemaDownOff (b : Bytes) : Nat := roundUp (schemaMapOff b + (if leAt b 2 2 = 0xFFFF then 0 else 2 * leAt b 4 2)) 16
def schemaPairOff (b : Bytes) : Nat := schemaDownOff b + 16 * leAt b 6 2

def readDown (b : Bytes) (i : Nat) : DownDesc :=
  let o := schemaDownOff b + 16 * i
  { hash := leAt b o 4, momf := leAt b (o + 4) 2, histf := leAt b (o + 6) 2,
    q := [leAt b (o + 8) 2, leAt b (o + 10) 2, leAt b (o + 12) 2, leAt b (o + 14) 2] }

def readSchema (b : Bytes) : SchemaSec :=
  let n := leAt b 4 2
  { schema := leAt b 0 2, prev := leAt b 2 2, srcGroup := leAt b 10 2, summaryAt := byteAt b 12, prevFields := leAt b 14 2,
    fields := (List.range n).map (readField b),
    map := if leAt b 2 2 = 0xFFFF then [] else (List.range n).map (fun i => leAt b (schemaMapOff b + 2 * i) 2),
    downs := (List.range (leAt b 6 2)).map (readDown b),
    pairs := (List.range (leAt b 8 2)).map (fun i => (leAt b (schemaPairOff b + 4 * i) 2, leAt b (schemaPairOff b + 4 * i + 2) 2)) }

/-- OP and TYPE combine under R284. -/
def opTypeOk (f : FieldDesc) : Bool :=
  match f.op with
  | 1 => f.ty == 0
  | 2 | 3 | 4 | 7 | 9 | 11 => decide (f.ty ≤ 2)
  | 5 | 6 => f.ty == 3
  | 8 => f.ty == 0 || f.ty == 2
  | 10 => f.ty == 0
  | _ => false

/-- PARAM under R284. -/
def paramOk (f : FieldDesc) : Bool :=
  if f.op = 8 then (if f.ty = 0 then decide (3 ≤ f.param ∧ f.param ≤ 56) else decide (3 ≤ f.param ∧ f.param ≤ 8))
  else if f.op = 9 then decide (1 ≤ f.param ∧ f.param ≤ 16) else f.param == 0

/-- The source of a Newt's field under R284, R287 and R688. -/
def fieldSrcOk (cap : Option CaptureSec) (feats pairs : Nat) (f : FieldDesc) : Bool :=
  match srcKind f.src with
  | 1 => sampleOk cap f.src && !sampleSigned f.src &&
      (match f.op with
       | 1 | 8 => f.ty == 0
       | 2 | 3 | 4 | 7 | 9 | 11 => f.ty == 0
       | 5 | 6 => srcPart f.src == 1
       | _ => false) &&
      (srcPart f.src != 8 || (f.jobbound && srcItem f.src == f.jobsel))
  | 2 => decide (f.src % 2 ^ 28 < 65536) && decide (f.src % 65536 < feats) && f.ty == 2 && f.op != 1 && f.op != 10
  | 3 => f.src % 2 ^ 28 < 1024 && f.ty == 1 &&
      (f.op == 2 || f.op == 3 || f.op == 4 || f.op == 7 || f.op == 9 || f.op == 11)
  | 4 => f.op == 10 && (f.src / 2 ^ 24) % 16 == 0 && decide (1 ≤ f.src % 4096 ∧ f.src % 4096 ≤ 64) &&
      decide ((f.src / 4096) % 4096 + f.src % 4096 ≤ pairs)
  | _ => false

def checkSchema (role hdrSchema : Nat) (cap : Option CaptureSec) (feat : FeatureSec) (b : Bytes) : List (Nat × Bool) :=
  let s := readSchema b
  let n := leAt b 4 2
  let newt := role == 1
  [chk 0 (s.schema == hdrSchema), chk 2 (if newt then s.prev == 0xFFFF else s.prev != s.schema), chk 4 (decide (1 ≤ n ∧ n ≤ 1024)),
   chk 6 (decide (leAt b 6 2 ≤ 256)), chk 8 (decide (leAt b 8 2 ≤ 4096) && (newt || leAt b 8 2 == 0)),
   chk 10 (newt || s.srcGroup == 0), chk 12 (decide (1 ≤ s.summaryAt ∧ s.summaryAt ≤ 8)), chk 13 (byteAt b 13 == 0),
   chk 14 (if s.prev = 0xFFFF then s.prevFields == 0 else decide (1 ≤ s.prevFields ∧ s.prevFields ≤ 1024))]
  ++ zeroAt b 16 16
  ++ ((List.range (min n 1024)).map (fun i =>
      let o := 32 + 32 * i
      let f := readField b i
      [chk o (opTypeOk f), chk (o + 1) (decide (byteAt b (o + 1) ≤ 3) && (!f.dir || f.op == 9)), chk (o + 2) (paramOk f),
       chk (o + 3) (if f.jobbound then decide (f.jobsel ≤ 3) else f.jobsel == 0),
       chk (o + 4) (if newt then fieldSrcOk cap feat.feats.length s.pairs.length f else f.src == 0),
       chk (o + 8) (if f.op = 4 then f.ty != 2 || decide (f.thresh < 65536) else f.thresh == 0),
       chk (o + 16) (if newt && srcKind f.src == 2 then (match feat.feats[f.src % 65536]? with
          | some x => x.hash == f.hash
          | none => false) else f.hash == 0)] ++ zeroAt b (o + 22) 10)).flatten
  ++ (if s.prev = 0xFFFF then [] else (List.range (min n 1024)).map (fun i =>
      let m := leAt b (schemaMapOff b + 2 * i) 2
      chk (schemaMapOff b + 2 * i) (m == 0xFFFF || decide (m < s.prevFields))))
  ++ (let e := schemaMapOff b + (if s.prev = 0xFFFF then 0 else 2 * n)
      zeroAt b e (schemaDownOff b - e))
  ++ ((List.range (min (leAt b 6 2) 256)).map (fun i =>
      let o := schemaDownOff b + 16 * i
      let d := readDown b i
      let isOp (x op : Nat) : Bool := (match s.fields[x]? with
        | some f => f.op == op
        | none => false)
      [chk o (d.hash != 0), chk (o + 4) ((d.momf == 0xFFFF || isOp d.momf 7) && (d.momf != 0xFFFF || d.histf != 0xFFFF)),
       chk (o + 6) (d.histf == 0xFFFF || isOp d.histf 8)])).flatten
  ++ (List.range (min (leAt b 8 2) 4096)).map (fun i =>
      chk (schemaPairOff b + 4 * i) (match cap with
        | some c => c.lanes.any (fun l => l.lane == leAt b (schemaPairOff b + 4 * i) 2)
        | none => false))
  ++ (let e := schemaPairOff b + 4 * leAt b 8 2
      zeroAt b e (roundUp e 16 - e))

/-- The bytes of a SCHEMA body (R282). -/
def schemaLen (b : Bytes) : Nat := roundUp (schemaPairOff b + 4 * leAt b 8 2) 16

def readReduce (b : Bytes) : List Nat := (List.range (leAt b 0 2)).map (fun i => leAt b (16 + 4 * i) 4)

def checkReduce (n : Nat) (b : Bytes) : List (Nat × Bool) :=
  [chk 0 (leAt b 0 2 == n)] ++ zeroAt b 2 14
  ++ (List.range n).map (fun i => chk (16 + 4 * i) (leAt b (16 + 4 * i) 4 == 1 || leAt b (16 + 4 * i) 4 == 2))
  ++ zeroAt b (16 + 4 * n) (b.length - (16 + 4 * n))

/-- Seal-time work of R271 in cycles. -/
def sealWork (children : Nat) (s : SchemaSec) : Nat :=
  let m := (s.fields.filter (fun f => f.op == 7)).length
  let p := (s.fields.filter (fun f => f.op == 10)).length
  ceilDiv (children * m) 4 + 512 * p + 128

/-! TOPOLOGY (R498 to R501) -/

def readPort (b : Bytes) (i : Nat) : PortEnt :=
  let o := 32 + 32 * i
  { port := byteAt b o, kind := byteAt b (o + 1), mtu := leAt b (o + 2) 2, peer := leAt b (o + 4) 3, pidx := byteAt b (o + 7),
    rate := leAt b (o + 8) 8, ovh := leAt b (o + 16) 2, cap := leAt b (o + 18) 2, rxcells := leAt b (o + 20) 4 }

def childOff (b : Bytes) : Nat := 32 + 32 * leAt b 0 2

def readChild (b : Bytes) (i : Nat) : ChildEnt :=
  let o := childOff b + 16 * i
  { node := leAt b o 3, port := byteAt b (o + 4), standby := (byteAt b (o + 5)).testBit 0, leaves := leAt b (o + 8) 4 % 2 ^ 21,
    primary := leAt b (o + 12) 4 }

def readTopo (b : Bytes) : TopoSec :=
  { ports := (List.range (leAt b 0 2)).map (readPort b), children := (List.range (leAt b 2 2)).map (readChild b),
    revert := leAt b 4 2, due := leAt b 8 4 }

def checkTopo (g : Integ) (role : Nat) (n : NodeSec) (b : Bytes) : List (Nat × Bool) :=
  let t := readTopo b
  let np := leAt b 0 2
  let nc := leAt b 2 2
  let newt := role == 1
  [chk 0 (decide (1 ≤ np ∧ np ≤ 176)), chk 2 (decide (nc ≤ 255) && (!newt || nc == 0)), chk 6 (leAt b 6 2 == 0),
   chk 8 (if newt then t.due == 0 else decide (4000 ≤ t.due))]
  ++ zeroAt b 12 20
  ++ ((List.range (min np 176)).map (fun i =>
      let o := 32 + 32 * i
      let p := readPort b i
      [chk o (decide (p.port < Config.ports g) && !((t.ports.take i).any (fun x => x.port == p.port)) &&
          (p.kind != 1 || p.port == n.portPri) && (p.kind != 2 || p.port == n.portAlt)),
       chk (o + 1) (if newt then p.kind == 1 || p.kind == 2
          else if p.kind = 5 then role == 3 && decide (128 ≤ p.port)
          else if p.kind = 1 ∨ p.kind = 2 then role == 2 else p.kind == 3 || p.kind == 4),
       chk (o + 2) (decide (512 ≤ p.mtu ∧ p.mtu ≤ 9216) && p.mtu % 4 == 0 &&
          decide ((p.mtu + p.ovh) * 8 * 1000000000 ≤ 1000 * p.rate)),
       chk (o + 4) (p.kind != 5 || p.peer == 0xFFFFFF),
       chk (o + 8) (decide (10 ^ 9 ≤ p.rate ∧ p.rate ≤ 8 * 10 ^ 11)), chk (o + 16) (decide (p.ovh ≤ 128)),
       chk (o + 18) (decide (50 ≤ p.cap ∧ p.cap ≤ 500)), chk (o + 20) (decide (16 ≤ p.rxcells ∧ p.rxcells ≤ 65536))]
      ++ zeroAt b (o + 24) 8)).flatten
  ++ ((List.range (min nc 255)).map (fun i =>
      let o := childOff b + 16 * i
      let c := readChild b i
      [chk o (byteAt b (o + 3) == 0 && !((t.children.take i).any (fun x => x.node == c.node && x.standby != c.standby))),
       chk (o + 4) ((t.ports.any (fun p => p.kind == 3 && p.port == c.port)) && !((t.children.take i).any (fun x => x.port == c.port))),
       chk (o + 5) (decide (byteAt b (o + 5) ≤ 1)), chk (o + 6) (leAt b (o + 6) 2 == 0), chk (o + 8) (decide (leAt b (o + 8) 4 < 2 ^ 21)),
       chk (o + 12) (if c.standby then decide (c.primary < 2 ^ 24) else c.primary == 0xFFFFFFFF)])).flatten
  ++ (let e := childOff b + 16 * nc
      zeroAt b e (b.length - e))

/-- The rules on a whole TOPOLOGY body (R498, R501): its length, both uplinks where the role has them, at most 176 child indices and 7 buddies, and the
receive cells that the instance reserves. -/
def topoWhole (g : Integ) (role : Nat) (n : NodeSec) (b : Bytes) : Bool :=
  let t := readTopo b
  let uplink (k p : Nat) : Bool := t.ports.any (fun x => x.kind == k && x.port == p)
  b.length == roundUp (childOff b + 16 * leAt b 2 2) 16 && (role == 3 || (uplink 1 n.portPri && uplink 2 n.portAlt)) &&
  decide ((childrenOf t).length ≤ 176) && decide ((buddyPorts t).length ≤ 7) &&
  decide (64 * sumOf (t.ports.map (·.rxcells)) ≤ Config.byClass g 262144 8388608)

/-! GATES (R480) -/

/-- The lists of a GATES body from offset `o` on, with their offsets. -/
def readGateLists (b : Bytes) : Nat → Nat → List (Nat × GateList)
  | 0, _ => []
  | n + 1, o =>
    let k := byteAt b (o + 1)
    let word (i : Nat) : Nat := leAt b (o + 16 + 4 * i) 4
    let g : GateList := ⟨byteAt b o, leAt b (o + 4) 4, leAt b (o + 8) 4,
      (List.range k).map (fun i => ((word i).testBit 31, word i % 2 ^ 31))⟩
    (o, g) :: readGateLists b n (roundUp (o + 16 + 4 * k) 16)

def readGates (b : Bytes) : List GateList := (readGateLists b (byteAt b 0) 16).map (·.2)

def checkGates (t : TopoSec) (b : Bytes) : List (Nat × Bool) :=
  let ls := readGateLists b (byteAt b 0) 16
  [chk 0 (decide (1 ≤ byteAt b 0 ∧ byteAt b 0 ≤ 48))] ++ zeroAt b 1 15
  ++ ((List.range ls.length).map (fun i => match ls[i]? with
      | none => []
      | some (o, g) =>
        [chk o (decide (128 ≤ g.port ∧ g.port ≤ 175) && (portEnt t g.port).isSome && !((ls.take i).any (fun x => x.2.port == g.port))),
         chk (o + 1) (decide (1 ≤ byteAt b (o + 1) ∧ byteAt b (o + 1) ≤ 32)), chk (o + 2) (leAt b (o + 2) 2 == 0),
         chk (o + 4) (sumOf (g.entries.map (·.2)) == g.cycle), chk (o + 8) (decide (g.phase < g.cycle)), chk (o + 12) (leAt b (o + 12) 4 == 0)]
        ++ (List.range g.entries.length).map (fun j => chk (o + 16 + 4 * j) (match g.entries[j]? with
            | some e => decide (1000 ≤ e.2)
            | none => true))
        ++ (let e := o + 16 + 4 * g.entries.length
            zeroAt b e (roundUp e 16 - e)))).flatten

/-- The bytes of a GATES body (R480). -/
def gatesLen (b : Bytes) : Nat :=
  match (readGateLists b (byteAt b 0) 16).getLast? with
  | some (o, g) => roundUp (o + 16 + 4 * g.entries.length) 16
  | none => 16

/-! DETECT (R453 to R455) -/

def readDet (b : Bytes) (i : Nat) : DetEnt :=
  let o := 32 + 48 * i
  { kind := byteAt b o, cls := byteAt b (o + 1), side := byteAt b (o + 2), kb := byteAt b (o + 3), src := leAt b (o + 4) 4,
    h := leAt b (o + 8) 8, k := leAt b (o + 16) 8, m := byteAt b (o + 24), n := byteAt b (o + 25), lambda := byteAt b (o + 26),
    qidx := byteAt b (o + 27), margin := leAt b (o + 28) 2, holdoff := leAt b (o + 30) 2, hash := leAt b (o + 32) 4 }

def readDetect (b : Bytes) : DetectSec :=
  { vcap := byteAt b 2, quorum := byteAt b 3 == 1, warmup := leAt b 4 2, peerGap := byteAt b 6, spCap := byteAt b 7,
    spRefill := leAt b 8 4, domeRate := leAt b 12 2, domeCap := leAt b 14 2, fleetLeaves := leAt b 16 4, voteWait := leAt b 20 4,
    dets := (List.range (leAt b 0 2)).map (readDet b) }

/-- A threshold H is one that R454 allows for the kind. -/
def detHOk (kind h : Nat) : Bool :=
  if kind = 4 then h == 0 else if kind = 5 then fisFinite f64 h else fisFinite f64 h && flt f64 0 h

def checkDet (role : Nat) (feat : FeatureSec) (sch : SchemaSec) (cap : Option CaptureSec) (b : Bytes) (i : Nat) : List (Nat × Bool) :=
  let o := 32 + 48 * i
  let d := readDet b i
  let code := d.kind == 1 || d.kind == 2 || d.kind == 3
  let base := d.kind == 1 || d.kind == 2
  [chk o (decide (1 ≤ d.kind ∧ d.kind ≤ 5)), chk (o + 1) (decide (1 ≤ d.cls ∧ d.cls ≤ 5) && (d.cls != 5 || role == 1 || d.kind == 4)),
   chk (o + 2) (decide (1 ≤ d.side ∧ d.side ≤ 3) && (d.kind != 4 || d.side == 1)),
   chk (o + 3) (if base then decide (1 ≤ d.kb ∧ d.kb ≤ 15) else d.kb == 0),
   chk (o + 4) (if code then srcKind d.src == 2 && decide (d.src % 2 ^ 28 < 65536) && (match feat.feats[d.src % 65536]? with
        | some f => f.cls == 1
        | none => false)
      else if d.kind = 5 then srcKind d.src == 3 && decide (d.src % 2 ^ 28 < 1024)
      else if role = 1 then srcKind d.src == 1 && srcPart d.src == 8 && srcSub d.src == 0 && sampleOk cap d.src
      else srcKind d.src == 5 && fieldSub d.src == 0 && decide (d.src % 2 ^ 24 < 65536) && (match sch.fields[d.src % 65536]? with
        | some f => f.op == 9 && f.jobbound
        | none => false)),
   chk (o + 8) (detHOk d.kind d.h),
   chk (o + 16) (if d.kind = 1 then fisFinite f64 d.k && !flt f64 d.k 0 else d.k == 0),
   chk (o + 24) (if base then d.m == 1 else decide (1 ≤ d.m ∧ d.m ≤ d.n)), chk (o + 25) (if base then d.n == 1 else decide (1 ≤ d.n ∧ d.n ≤ 32)),
   chk (o + 26) (if d.kind = 2 then decide (1 ≤ d.lambda ∧ d.lambda ≤ 15) else d.lambda == 0),
   chk (o + 27) (if d.kind = 4 then decide (d.qidx ≤ 3) else d.qidx == 0), chk (o + 28) (d.kind == 4 || d.margin == 0),
   chk (o + 32) (if d.kind = 4 then d.hash != 0 && (role != 3 || sch.downs.any (fun x => x.hash == d.hash)) else d.hash == 0)]
  ++ zeroAt b (o + 36) 12

def checkDetect (g : Integ) (role : Nat) (feat : FeatureSec) (sch : SchemaSec) (cap : Option CaptureSec) (b : Bytes) : List (Nat × Bool) :=
  let n := leAt b 0 2
  let d := readDetect b
  let spire := role == 2
  let dome := role == 3
  [chk 0 (decide (n ≤ Config.byClass g 128 256)), chk 2 (decide (d.vcap ≤ 16)),
   chk 3 (byteAt b 3 == 0 || (byteAt b 3 == 1 && spire)), chk 6 (decide (1 ≤ d.peerGap)),
   chk 7 (if spire then decide (1 ≤ d.spCap ∧ d.spCap ≤ 16) else d.spCap == 0),
   chk 8 (if spire then decide (1 ≤ d.spRefill ∧ d.spRefill ≤ 86400) else d.spRefill == 0),
   chk 12 (if dome then decide (1 ≤ d.domeRate ∧ d.domeRate ≤ 10000) else d.domeRate == 0),
   chk 14 (if dome then decide (1 ≤ d.domeCap ∧ d.domeCap ≤ 512) else d.domeCap == 0),
   chk 16 (if dome then decide (1 ≤ d.fleetLeaves ∧ d.fleetLeaves ≤ 1048576) else d.fleetLeaves == 0),
   chk 20 (if d.quorum then decide (100 ≤ d.voteWait ∧ d.voteWait ≤ 5000) else d.voteWait == 0)]
  ++ zeroAt b 24 8
  ++ ((List.range (min n 256)).map (checkDet role feat sch cap b)).flatten
  ++ (let e := 32 + 48 * n
      zeroAt b e (b.length - e))

/-- R455: the worst-case EXPEL count fits the reserve of R439. -/
def expelOk (g : Integ) (role : Nat) (d : DetectSec) : Bool :=
  let n := if role = 2 then d.spCap + d.vcap else if role = 3 then d.domeCap else (d.dets.filter (fun x => x.cls == 5)).length
  decide (n ≤ Config.byClass g 8 512)

/-! EPOCHTAB (R416, R417) -/

def readSlot (b : Bytes) (i : Nat) : SlotEnt :=
  let o := 16 + 32 * i
  { bundle := leAt b o 4, fallback := leAt b (o + 4) 4, model := byteAt b (o + 8), cls := byteAt b (o + 9), tier := byteAt b (o + 10),
    period := byteAt b (o + 11), phase := byteAt b (o + 12), view := leAt b (o + 14) 2 }

def readEpochtab (b : Bytes) : EpochSec :=
  let n := byteAt b 0
  { reserve := byteAt b 1, slots := (List.range n).map (readSlot b),
    shares := (List.range (leAt b 4 2)).map (fun i => let w := leAt b (16 + 32 * n + 4 * i) 4; (w % 512, (w / 65536) % 256)) }

def checkEpochtab (g : Integ) (b : Bytes) : List (Nat × Bool) :=
  let t := readEpochtab b
  let n := byteAt b 0
  let m := leAt b 4 2
  let sh := 16 + 32 * n
  [chk 0 (decide (1 ≤ n ∧ n ≤ 64)), chk 1 (decide (t.reserve ≤ 8)), chk 2 (leAt b 2 2 == 0), chk 4 (decide (m ≤ g.views + 1))]
  ++ zeroAt b 6 10
  ++ ((List.range (min n 64)).map (fun i =>
      let o := 16 + 32 * i
      let s := readSlot b i
      let same (f : SlotEnt → Nat) : Bool := (t.slots.take i).all (fun x => x.model != s.model || f x == f s)
      [chk o (same (·.bundle)), chk (o + 4) (same (·.fallback)), chk (o + 9) (decide (1 ≤ s.cls ∧ s.cls ≤ 3)), chk (o + 10) (decide (s.tier ≤ 2)),
       chk (o + 11) (decide (s.period ≤ 8) && (s.cls == 1 || s.period == 0)), chk (o + 12) (decide (s.phase < 2 ^ s.period)),
       chk (o + 13) (byteAt b (o + 13) == 0), chk (o + 14) (if s.tier = 2 then decide (s.view ≤ g.views) else s.view == 0)]
      ++ zeroAt b (o + 16) 16)).flatten
  ++ (List.range m).map (fun i =>
      let w := leAt b (sh + 4 * i) 4
      chk (sh + 4 * i) ((w / 512) % 128 == 0 && decide (w < 2 ^ 24) && decide (1 ≤ (w / 65536) % 256) && decide (w % 512 ≤ g.views) &&
        (i == 0 || decide (leAt b (sh + 4 * (i - 1)) 4 % 512 < w % 512))))
  ++ (let e := sh + 4 * m
      zeroAt b e (b.length - e))

/-! VIEWS (R633), PANEL (R601) and TIMEBASE (R184, R185) -/

def readViewEnt (b : Bytes) (o : Nat) : ViewEnt :=
  let f := leAt b (o + 2) 2
  { view := leAt b o 2, dma := f.testBit 0, tb3 := f.testBit 1, deliver := f.testBit 2, sramKib := leAt b (o + 4) 4,
    hbase := leAt b (o + 8) 8, hsize := leAt b (o + 16) 8, bundleLo := leAt b (o + 24) 4, bundleHi := leAt b (o + 28) 4 }

def readViews (b : Bytes) : ViewsSec :=
  { poolKib := leAt b 4 4, ents := (List.range (leAt b 0 2)).map (fun i => readViewEnt b (16 + 32 * i)) }

/-- The stated values of one view entry, at its offset (R633). -/
def checkViewEnt (views : Nat) (b : Bytes) (o : Nat) : List (Nat × Bool) :=
  let v := readViewEnt b o
  [chk o (decide (1 ≤ v.view ∧ v.view ≤ views)), chk (o + 2) (decide (leAt b (o + 2) 2 ≤ 7)), chk (o + 4) (v.sramKib % 64 == 0),
   chk (o + 8) (decide (v.hbase < 2 ^ 52) && v.hbase % 4096 == 0), chk (o + 16) (v.hsize % 4096 == 0 && decide (4096 ≤ v.hsize)),
   chk (o + 28) (decide (v.bundleLo ≤ v.bundleHi))]

def checkViews (g : Integ) (b : Bytes) : List (Nat × Bool) :=
  let s := readViews b
  let n := leAt b 0 2
  [chk 2 (leAt b 2 2 == 0),
   chk 4 (s.poolKib % 64 == 0 && decide (s.poolKib ≤ Config.byClass g 2048 16384))] ++ zeroAt b 8 8
  ++ ((List.range (min n 256)).map (fun i => checkViewEnt g.views b (16 + 32 * i) ++
      [chk (16 + 32 * i) (!((s.ents.take i).any (fun x => x.view == leAt b (16 + 32 * i) 2)))])).flatten

/-- The whole-body rules of VIEWS; a Newt has 16 channels and a Spire 32, four of them the units' (R623). -/
def viewsBodyOk (cmdChannels : Nat) (s : ViewsSec) : Bool :=
  decide (sumOf (s.ents.map (·.sramKib)) ≤ s.poolKib) && decide ((s.ents.filter (·.dma)).length ≤ cmdChannels - 1)

def readPanel (b : Bytes) : PanelSec :=
  { drainLead := leAt b 0 2, plug := (List.range 16).map (fun i => let w := leAt b (0x10 + 4 * i) 4; (w / 2 ^ 30, w % 256)),
    led := (List.range 8).map (fun i => let w := leAt b (0x50 + 4 * i) 4; (w % 16, (w / 256) % 256)) }

def checkPanel (t : TopoSec) (b : Bytes) : List (Nat × Bool) :=
  let p := readPanel b
  [chk 0 (decide (2 ≤ p.drainLead ∧ p.drainLead ≤ 1024))] ++ zeroAt b 2 14
  ++ (List.range 16).map (fun i =>
      let w := leAt b (0x10 + 4 * i) 4
      chk (0x10 + 4 * i) ((w % 2 ^ 30) / 256 == 0 && (match w / 2 ^ 30 with
        | 0 => true
        | 1 => decide (w % 256 < (childrenOf t).length)
        | 2 => decide (128 ≤ w % 256 ∧ w % 256 ≤ 175) && (portEnt t (w % 256)).isSome
        | _ => false)))
  ++ (List.range 8).map (fun i =>
      let w := leAt b (0x50 + 4 * i) 4
      chk (0x50 + 4 * i) (decide (w % 16 ≤ 5) && (w / 16) % 16 == 0 && decide (w < 65536) &&
        (w % 16 != 4 || (portEnt t (w / 256)).isSome)))

def readTimebase (b : Bytes) : TimebaseSec :=
  { kind1 := byteAt b 0 % 4, kind2 := byteAt b 4 % 4, kind3 := byteAt b 8 % 4, view := (leAt b 8 4 / 256) % 512,
    anchorSec := leAt b 0x10 6, anchorNs := leAt b 0x18 4, anchorEpoch := leAt b 0x20 6,
    capMap := (List.range 32).map (fun i => byteAt b (0x30 + i)), portComp := (List.range 48).map (fun i => leAt b (0x50 + 4 * i) 4) }

def checkTimebase (g : Integ) (n : NodeSec) (b : Bytes) : List (Nat × Bool) :=
  let t := readTimebase b
  let newt := !Config.isSpireL g
  [chk 0 (leAt b 0 4 == t.kind1 && decide (t.kind1 ≤ 1) && (!newt || t.kind1 == 0)),
   chk 4 (leAt b 4 4 == t.kind2 && (t.kind2 == 0 || t.kind2 == 2) && (!newt || t.kind2 == 0)),
   chk 8 (leAt b 8 4 == t.kind3 + 256 * t.view && (t.kind3 == 0 || t.kind3 == 3) && (!newt || t.kind3 == 0) &&
      (if t.kind3 = 3 then decide (1 ≤ t.view ∧ t.view ≤ 256) else t.view == 0))]
  ++ zeroAt b 12 4
  ++ [chk 0x10 (leAt b 0x16 2 == 0 && decide (gridOrigin ≤ t.anchorSec) &&
        ((t.anchorSec - gridOrigin) * 1000000000 + t.anchorNs) * 1024 % epochTicks n.e == 0),
      chk 0x18 (decide (t.anchorNs < 1000000000))]
  ++ zeroAt b 0x1C 4 ++ [chk 0x20 (leAt b 0x26 2 == 0)] ++ zeroAt b 0x28 8
  ++ (List.range 32).map (fun i => chk (0x30 + i) (decide (byteAt b (0x30 + i) < 8) &&
      (!newt || (byteAt b (0x30 + i) % 4 == 0 && (decide (i < 8) || byteAt b (0x30 + i) == 0)))))
  ++ (List.range 48).map (fun i => chk (0x50 + 4 * i) (!newt || leAt b (0x50 + 4 * i) 4 == 0))

/-! The container (R110 to R115) -/

/-- The slot's bytes up to IMAGE_LEN. -/
def imageLen (b : Bytes) : Nat := leAt b 0x10 4

def dirEnt (b : Bytes) (i : Nat) : DirEnt :=
  let o := 0x40 + 16 * i
  { ty := byteAt b o, flags := byteAt b (o + 1), off := leAt b (o + 4) 4, len := leAt b (o + 8) 4, crc := leAt b (o + 12) 4 }

def sections (b : Bytes) : Nat := leAt b 0x0C 2

def directory (b : Bytes) : List DirEnt := (List.range (min 64 (sections b))).map (dirEnt b)

def bodyOf (b : Bytes) (d : DirEnt) : Bytes := sliceOf b d.off d.len

/-- The body of the section of a type. -/
def sectionBody (b : Bytes) (ty : Nat) : Option Bytes := ((directory b).find? (fun d => d.ty == ty)).map (bodyOf b)

/-- A rejection: code of R117, section TYPE and the 24-bit detail. -/
abbrev Reject := Nat × Nat × Nat

/-- DIRECTORY (R111, R112): the header's own fields, then the entries in order; a byte between bodies
that is not zero fails the entry behind it, one before the trailer the last entry (log entry 133). -/
def checkDirectory (b : Bytes) : Option Reject :=
  let n := sections b
  let trailer := imageLen b - 224
  let head := leAt b 0x14 4 == 0x40 && decide (1 ≤ n ∧ n ≤ 64) && leAt b 0x0E 2 == 0 && byteAt b 0x2B == 0 && allZero (sliceOf b 0x30 16) &&
    decide (0x40 + 16 * n ≤ trailer)
  if !head then some (9, 0, 0xFFFFFF)
  else
    let ds := directory b
    let bad := (List.range n).find? (fun i => match ds[i]? with
      | none => true
      | some d =>
        let from0 := if i = 0 then 0x40 + 16 * n else (match ds[i - 1]? with
          | some p => p.off + p.len
          | none => 0)
        let gapEnd := d.off
        let tailOk := i + 1 != n || allZero (sliceOf b (d.off + d.len) (trailer - (d.off + d.len)))
        !(decide (d.flags ≤ 1) && leAt b (0x40 + 16 * i + 2) 2 == 0 && d.off % 16 == 0 && d.len % 16 == 0 && decide (16 ≤ d.len) &&
          decide (from0 ≤ d.off) && decide (d.off + d.len ≤ trailer) && allZero (sliceOf b from0 (gapEnd - from0)) && tailOk))
    bad.map (fun i => (9, 0, i))

/-- SECTION_CRC in directory order; DETAIL's offset is the body's OFFSET in the image (log entry 134). -/
def checkSectionCrc (b : Bytes) : Option Reject :=
  ((directory b).find? (fun d => crc32c (bodyOf b d) != d.crc)).map (fun d => (10, d.ty, d.off % 2 ^ 24))

/-- Presence by role (R113): 2 required, 1 optional, 0 forbidden. -/
def presence (role ty : Nat) : Nat :=
  match ty with
  | 1 | 3 | 4 | 6 | 8 => 2
  | 2 => if role = 1 then 2 else 1
  | 5 => if role = 1 then 0 else 2
  | 7 | 9 | 10 | 12 => 1
  | 11 => if role = 2 then 1 else 0
  | _ => 1

/-- SECTIONS, in ascending TYPE (R113, R115). GATES is required when TOPOLOGY uses a serial port. -/
def checkSections (b : Bytes) (role : Nat) : Option Reject :=
  let ds := directory b
  let count (t : Nat) : Nat := (ds.filter (fun d => d.ty == t)).length
  let serial := (match sectionBody b 6 with
    | some t => (readTopo t).ports.any (fun p => decide (128 ≤ p.port))
    | none => false)
  ((List.range 256).find? (fun t =>
    let n := count t
    if t = 0 ∨ 12 < t then n != 0 && (decide (1 < n) || ds.any (fun d => d.ty == t && d.flags == 1))
    else decide (1 < n) || (presence role t == 2 && n == 0) || (presence role t == 0 && n != 0) || (t == 7 && serial && n == 0))).map
    (fun t => (11, t, 0))

/-- Everything an accepted container holds. -/
def readImage (g : Integ) (b : Bytes) : Image :=
  let sec (t : Nat) : Bytes := (sectionBody b t).getD []
  { role := byteAt b 6, gen := leAt b 8 2, schemaNo := leAt b 0x0A 2, len := imageLen b, build := leAt b 0x18 8, nodeId := leAt b 0x28 3,
    node := readNode (sec 1), capture := (sectionBody b 2).map (readCapture g.rings), feature := readFeature (sec 3),
    schema := readSchema (sec 4), reduce := readReduce (sec 5), topo := readTopo (sec 6),
    gates := (match sectionBody b 7 with
      | some x => readGates x
      | none => []),
    detect := readDetect (sec 8), epochtab := (sectionBody b 9).map readEpochtab, views := (sectionBody b 10).map readViews,
    panel := (sectionBody b 11).map readPanel, timebase := (sectionBody b 12).map readTimebase }

/-- Command channels of the DMA unit: all but the four of the block's own units (R623). -/
def cmdChannels (g : Integ) : Nat := Config.dmaChannels g - 4

/-- What of FEATURE the SCHEMA decides, at SCHEMA's turn (R689): a FIELD source that names no field of the own record (R328, R354), and the domain
that one gives. -/
def featFieldBad (im : Image) : Option Nat :=
  firstBad (((List.range im.feature.feats.length).map (fun i => match im.feature.feats[i]? with
    | none => []
    | some f =>
      let o := 0x20 + 48 * i
      let fieldOk (s : Nat) : Bool := srcKind s != 5 || (match fieldSub s with
        | 8 | 9 => s % 65536 == 0
        | sb => (match im.schema.fields[s % 65536]? with
          | none => false
          | some fd => (sb == 0 && decide (fd.op ≤ 6)) || ((sb == 1 || sb == 2 || sb == 3) && fd.op == 7) || sb == 4 ||
              (sb == 5 && fd.op == 9) || (sb == 6 && fd.op == 10)))
      let dom := if schemaDomain f then domainOk im.schema.fields im.feature.tabs f else (true, true)
      [chk (o + 6) dom.1, chk (o + 8) (fieldOk f.srcA), chk (o + 12) (fieldOk f.srcB), chk (o + 0x18) dom.2])).flatten)

/-- A section that may be absent. -/
def checkIf (b : Bytes) (ty : Nat) (check : Bytes → Option Reject) : Option Reject := (sectionBody b ty).bind check

/-- A SCORE detector names a model of an EPOCH-class slot (R454), at EPOCHTAB's turn (R689). -/
def detScores (im : Image) : List (Nat × Bool) :=
  ((List.range im.detect.dets.length).zip im.detect.dets).map (fun p => chk (32 + 48 * p.1 + 4) (p.2.kind != 5 || (match im.epochtab with
    | some t => t.slots.any (fun s => s.model == (p.2.src / 16) % 64 && s.cls == 1)
    | none => false)))

/-- A view with TB3 set is the one that TIMEBASE gives TB3 (R633), at TIMEBASE's turn. -/
def viewBases (im : Image) : List (Nat × Bool) :=
  match im.views with
  | some v => ((List.range v.ents.length).zip v.ents).map (fun p => chk (16 + 32 * p.1 + 2) (!p.2.tb3 || p.2.view == tb3View im))
  | none => []

/-- CONTENT, section by section in ascending TYPE, a rule over two sections at the turn of the higher, each section's whole-body rules after its
fields (R689). -/
def checkContent (g : Integ) (b : Bytes) : Option Reject :=
  let im := readImage g b
  let role := im.role
  let sec (t : Nat) : Bytes := (sectionBody b t).getD []
  let rule (ty : Nat) (ok : Bool) : Option Reject := sectionBad ty [] ok
  let worst := worstOf im
  let worstOk := decide (worst ≤ Config.byClass g 65536 1048576)
  sectionBad 1 (checkNode role im.nodeId (sec 1)) ((sec 1).length == 32)
  <|> checkIf b 2 (fun c => sectionBad 2 (checkCapture g role c) (c.length == captureLen g c))
  <|> sectionBad 3 (checkFeature g role im.capture (sec 3))
    ((sec 3).length == roundUp (tabOff (sec 3) + leAt (sec 3) 8 4) 16 && featTimeOk g im.feature)
  <|> sectionBad 4 (checkSchema role im.schemaNo im.capture im.feature (sec 4)) ((sec 4).length == schemaLen (sec 4))
  <|> (featFieldBad im).map (fun o => (12, 3, o))
  <|> (if role = 1 then rule 4 worstOk
      else sectionBad 5 (checkReduce im.schema.fields.length (sec 5)) ((sec 5).length == roundUp (16 + 4 * im.schema.fields.length) 16))
  <|> sectionBad 6 (checkTopo g role im.node (sec 6)) (topoWhole g role im.node (sec 6))
  <|> (if role = 1 then none else rule 6 worstOk)
  <|> rule 6 (im.topo.ports.all (fun p => decide (framesFor worst p.mtu ≤ 4096)))
  <|> (if role = 1 then none else rule 5 (decide (sealWork im.topo.children.length im.schema * 1000 ≤ 1500 * g.coreMHz)))
  <|> checkIf b 7 (fun x => sectionBad 7 (checkGates im.topo x) (x.length == gatesLen x))
  <|> sectionBad 8 (checkDetect g role im.feature im.schema im.capture (sec 8))
    ((sec 8).length == roundUp (32 + 48 * leAt (sec 8) 0 2) 16 && expelOk g role im.detect)
  <|> checkIf b 9 (fun x => sectionBad 9 (checkEpochtab g x) (x.length == roundUp (16 + 32 * byteAt x 0 + 4 * leAt x 4 2) 16))
  <|> sectionBad 8 (detScores im) true
  <|> checkIf b 10 (fun x => sectionBad 10 (checkViews g x) (x.length == roundUp (16 + 32 * leAt x 0 2) 16 && viewsBodyOk (cmdChannels g) (readViews x)))
  <|> checkIf b 11 (fun x => sectionBad 11 (checkPanel im.topo x) (x.length == 112))
  <|> checkIf b 12 (fun x => sectionBad 12 (checkTimebase g im.node x) (x.length == 272))
  <|> sectionBad 10 (viewBases im) true

/-- The image alone needs more of an item of R30 than the instance has (R31): the TYPE of the section that asks for it. -/
def aloneBad (g : Integ) (im : Image) : Option Nat :=
  let scores := im.role != 1 || im.schema.fields.all (fun f => srcKind f.src != 3 || decide ((f.src / 16) % 64 < Config.models g))
  let slots := (match im.epochtab with
    | some t => t.slots.all (fun s => decide (s.model < Config.models g))
    | none => true)
  let tenant := (match im.timebase with
    | some t => decide (t.view ≤ g.views)
    | none => true)
  if !scores || im.schema.fields.any (fun f => decide (g.views < f.owner)) then some 4
  else if !slots then some 9
  else if !tenant then some 12
  else none

/-- RESOURCE (R31, R118): the image alone, in ascending TYPE, then receive cells and view SRAM jointly (log entry 141). -/
def checkResource (g : Integ) (im : Image) (active : Option Image) : Option Reject :=
  let cells (i : Option Image) (p : Nat) : Nat := (match i with
    | some x => (match portEnt x.topo p with
      | some e => e.rxcells
      | none => 0)
    | none => 0)
  let joint := sumOf ((List.range 176).map (fun p => max (cells (some im) p) (cells active p)))
  let views (i : Option Image) : ViewsSec := (match i with
    | some x => x.views.getD ⟨0, []⟩
    | none => ⟨0, []⟩)
  let vs := views (some im)
  let va := views active
  let kib := max vs.poolKib va.poolKib + sumOf ((va.ents.filter (fun e => !vs.ents.any (fun x => x.view == e.view))).map (·.sramKib))
  ((aloneBad g im).map (fun ty => (13, ty, 0)))
  <|> (if 64 * joint ≤ Config.byClass g 262144 8388608 then none else some (13, 6, 0))
  <|> (if kib ≤ Config.byClass g 2048 16384 then none else some (13, 10, 0))

/-- BUDGET, port by port (R119, R121). -/
def checkBudget (im : Image) : Option Reject :=
  ((sortBy (·.port) im.topo.ports).find? (fun p => overBudget im p p.cap 6)).map (fun p => (14, 6, p.port))

/-- GATES, port by port (R123). -/
def checkGateTimes (im : Image) : Option Reject :=
  ((sortBy (·.port) im.gates).find? (fun l => match portEnt im.topo l.port with
    | some p => !gateOk im p l
    | none => true)).map (fun l => (15, 7, l.port))

end Sys2Proof.Machine
end

