-- ==== Sys2Proof/Machine/Feat.lean ====
section
/-!
DEFINITION. FEAT (R320 to R350): sources, pre-operations, transforms, the formation of code vectors and the feature buffer.
-/
namespace Sys2Proof.Machine

/-! Values (R326) -/

/-- A source's value in its domain. -/
inductive FNum where
  | u (n : Nat)
  | s (i : Int)
  | f (b : Nat)
deriving DecidableEq, Repr

/-- Conversion into F64. -/
def numF : FNum → Nat
  | .u n => fofNat f64 n
  | .s i => fofInt f64 i
  | .f b => b

/-- The 8 bytes of a stateful feature's state (R333). -/
def numRaw : FNum → Nat
  | .u n => n
  | .s i => unsigned 64 i
  | .f b => b

/-- The selectors in force at epoch `x` (R258). -/
def selsAt (s : State) (x : Nat) : List (Option (Nat × Nat)) :=
  ((s.red.selHist.filter (fun h => decide (h.epoch ≤ x))).getLast?.map (·.sels)).getD (List.replicate 4 none)

/-- The completion of the epoch's step table that a selector takes (R259). -/
def stepOf (smp : Sample) (sels : List (Option (Nat × Nat))) (n : Nat) : Option StepDone :=
  match sels.getD n none with
  | some p => smp.steps.find? (fun d => d.job == p.1 && d.gen == p.2)
  | none => none

/-- The value of a SAMPLE source (R688), none where R220 marks it MISSING or no completion is taken. -/
def sampleVal (smp : Sample) (sels : List (Option (Nat × Nat))) (src : Nat) : Option FNum :=
  let it := srcItem src
  let sb := srcSub src
  match srcPart src with
  | 1 => (smp.lanes[it]?).map (fun p => .u (match sb with
    | 0 => p.2.value
    | 1 => p.2.delta
    | 2 => flag p.2.clr
    | _ => flag (p.2.satV || p.2.satD)))
  | 2 => (smp.engines[it]?).map (fun p => .u (match sb with
    | 0 => p.2.idle
    | 1 => p.2.busy
    | 2 => p.2.stalled
    | _ => p.2.cmds))
  | 3 => some (.u (min 0xFFFFFFFF (sumOf (smp.engines.map (fun p => p.2.byReason.getD it 0)))))
  | 4 => (smp.groups[it]?).map (fun p => .u (match sb with
    | 0 => p.2.1
    | 1 => p.2.2.1
    | 2 => p.2.2.2.1
    | _ => p.2.2.2.2))
  | 5 => (smp.memStacks[it]?).map (fun p => .u (match sb with
    | 0 => p.2.ce
    | 1 => p.2.ue
    | 2 => p.2.scrub
    | 3 => p.2.repair
    | 4 => p.2.rep
    | _ => p.2.ueAddr))
  | 6 => (smp.sensors[it]?).bind (fun p => match sb with
    | 0 => some (.u p.2.count)
    | 5 => some (.u (min 1 p.2.quiet))
    | k => if p.2.count = 0 then none else some (.s (match k with
      | 1 => p.2.lo
      | 2 => p.2.hi
      | 3 => p.2.sum
      | _ => p.2.last)))
  | 7 => (smp.links[it]?).map (fun p => .u (if sb = 0 then p.2.1 else p.2.2))
  | 8 => (stepOf smp sels it).map (fun d => .u (match sb with
    | 0 => d.duration
    | 1 => d.step
    | 2 => d.job
    | _ => d.gen))
  | _ => none

/-- The value of a FIELD source on the node's own record (R326, R327). -/
def fieldVal (r : Record) (src : Nat) : Option FNum :=
  let sb := fieldSub src
  if sb = 8 then some (.u r.cov.leaves)
  else if sb = 9 then some (.u r.cov.expect)
  else match r.fields[src % 65536]? with
    | none => none
    | some f =>
      let typed (v : Nat) : FNum := if f.op != 4 && f.ty == 1 then .f v else .u v
      if sb = 4 then some (.u f.contrib)
      else if f.contrib = 0 || f.omitted then none
      else match sb, f.val with
        | 0, .num v => some (typed v)
        | 1, .mom n _ _ => some (.u n)
        | 2, .mom n m _ => if n = 0 then none else some (.f m)
        | 3, .mom n _ q => if n = 0 then none else some (.f (fdiv f64 q (fofNat f64 n)))
        | 5, .topk _ _ (e :: _) => some (typed e.val)
        | 6, .pairk e _ => some (.u e)
        | _, _ => none

/-- The value of an EVENT source (R326). -/
def eventVal (e : EvSample) (sb : Nat) : Option FNum :=
  match e with
  | .step d => some (.u (match sb with
    | 0 => d.duration
    | 1 => d.job
    | 2 => d.step
    | 3 => d.gen
    | _ => d.slot))
  | .ue st g c => some (.u (match sb with
    | 8 => st
    | 9 => g
    | _ => c))

/-! A sample in formation -/

/-- What a sample gives its features: class, epoch sample, selectors, own record, event, whether DELTA may subtract (R333) and whether RESTART
clears EWMA (R334); the epoch exponent; the poisoned sources and states of R342 and R343. -/
structure FeatCtx where
  cls     : Nat
  smp     : Option Sample
  sels    : List (Option (Nat × Nat))
  own     : Option Record
  ev      : Option EvSample
  chained : Bool
  restart : Bool
  e       : Int
  badSrc  : List Nat
  badMem  : List Nat
deriving DecidableEq, Repr

/-- One feature's outcome: its code, poison bit, the NaNs seen, saturated, and its new state (none: left alone). -/
structure FOut where
  code : Nat
  pois : Bool
  nans : Nat
  sat  : Bool
  mem  : Option (Option Nat)
deriving DecidableEq, Repr

/-- A source read: its value, MISSING where it has none, and the poison bit of a FEATURE source. -/
def readSrc (x : FeatCtx) (codes : List Nat) (pois : List Nat) (src : Nat) : Option FNum × Bool :=
  match srcKind src with
  | 1 =>
    (match x.smp with
     | some p =>
       (match sampleVal p x.sels src with
        | some (.u 0x7FFFFFFF) => if srcPart src = 5 ∧ srcSub src = 5 then (none, false) else (some (.u 0x7FFFFFFF), false)
        | v => (v, false))
     | none => (none, false))
  | 2 =>
    let c := codes.getD (src % 65536) 0xFFFF
    (if c = 0xFFFF then none else some (.u c), pois.contains (src % 65536))
  | 5 => ((x.own.bind (fun r => fieldVal r src)), false)
  | 6 => ((x.ev.bind (fun e => eventVal e (srcSub src))), false)
  | _ => (none, false)

/-- R323: a NaN is MISSING and is counted. -/
def dropNan (v : Option FNum) : Option FNum × Bool :=
  match v with
  | some (.f b) => if fisNan f64 b then (none, true) else (v, false)
  | _ => (v, false)

/-! Pre-operations (R329 to R334) -/

/-- A − state, with saturation at the S64 bounds. -/
def deltaOf (a : FNum) (old : Nat) : FNum × Bool :=
  let clip (i : Int) : FNum × Bool :=
    if i < -(2 ^ 63) then (.s (-(2 ^ 63)), true) else if 2 ^ 63 ≤ i then (.s (2 ^ 63 - 1), true) else (.s i, false)
  match a with
  | .u n => clip ((n : Int) - (old : Int))
  | .s i => clip (i - signed 64 old)
  | .f b => (.f (fsub f64 b old), false)

/-- SRC_A is a lane item whose sample carries CLR. -/
def laneCleared (x : FeatCtx) (src : Nat) : Bool :=
  srcKind src == 1 && srcPart src == 1 && (match x.smp with
    | some p => ((p.lanes[srcItem src]?).map (·.2.clr)).getD false
    | none => false)

/-- The value after DELTA, saturated, and the new state (R333). -/
def deltaStep (x : FeatCtx) (f : FeatDesc) (a : Option FNum) (old : Option Nat) : Option FNum × Bool × Option Nat :=
  match a with
  | none => (none, false, none)
  | some v =>
    match old with
    | some o =>
      if x.chained && !laneCleared x f.srcA then let d := deltaOf v o; (some d.1, d.2, some (numRaw v)) else (none, false, some (numRaw v))
    | none => (none, false, some (numRaw v))

/-- EWMA's output and new state (R334). -/
def ewmaStep (x : FeatCtx) (k : Nat) (a : Option FNum) (old0 : Option Nat) : Option FNum × Option Nat :=
  let old := if x.restart then none else old0
  match a with
  | none => (old.map .f, old)
  | some v =>
    let b := numF v
    let st := (match old with
      | none => b
      | some o => if fisInf f64 o || fisInf f64 b then b else fadd f64 o (fscale f64 (fsub f64 b o) k))
    (some (.f st), some st)

/-- The epoch length in microseconds as F64: 1,000 × 2^E (R160, R329). -/
def epochUs (e : Int) : Nat := if e < 0 then fscale f64 (fofNat f64 1000) (-e).toNat else fofNat f64 (1000 * 2 ^ e.toNat)

/-- RATIO (R331). -/
def ratioOf (a b : Nat) : Option FNum :=
  match fdec f64 b with
  | .fin _ 0 _ => if flt f64 0 a then some (.f (finf f64 false)) else if flt f64 a 0 then some (.f (finf f64 true)) else none
  | _ => some (.f (fdiv f64 a b))

/-- The stateless pre-operations. -/
def preStep (x : FeatCtx) (pre : Nat) (a b : Option FNum) : Option FNum :=
  match pre, a with
  | 0, v => v
  | 2, some v => (x.smp.map (fun p => .f (fdiv f64 (numF v) (fofNat f64 p.cycles))))
  | 3, some v => some (.f (fdiv f64 (numF v) (epochUs x.e)))
  | 5, some v => b.map (fun w => .f (fsub f64 (numF v) (numF w)))
  | 6, some v => b.bind (fun w => ratioOf (numF v) (numF w))
  | 7, some v => b.map (fun w => .f (fmul f64 (numF v) (numF w)))
  | _, _ => none

/-! Transforms (R336 to R341) -/

/-- An integer code within bounds (R322). -/
def clipCode (i : Int) : Nat × Bool := if i < 0 then (0, true) else if 0xFFFE < i then (0xFFFE, true) else (i.toNat, false)

/-- LOG of a positive value (R339). -/
def logCode (v : Nat) : Nat :=
  let m := topBit v
  1 + 512 * m + (if 9 ≤ m then v / 2 ^ (m - 9) else v * 2 ^ (9 - m)) % 512

/-- The boundary is at or below the value. -/
def boundLe (ty b : Nat) (v : FNum) : Bool :=
  match v with
  | .u n => decide (b ≤ n)
  | .s i => decide (signed 64 b ≤ i)
  | .f w => if ty = 2 then fle f64 b w else false

/-- A value's code under BINS, AFFINE, LOG or COPY, and whether it saturated; an infinity maps under R320. -/
def transform (fs : FeatureSec) (f : FeatDesc) (v : FNum) : Nat × Bool :=
  match v with
  | .f b =>
    if b = finf f64 true then (0, false)
    else if b = finf f64 false then (0xFFFE, false)
    else if f.xform = 1 then
      (match fs.tabs[f.p0 % 65536]? with
       | some t => ((t.vals.filter (fun w => boundLe t.ty w v)).length, false)
       | none => (0xFFFF, false))
    else affine b
  | _ =>
    if f.xform = 1 then
      (match fs.tabs[f.p0 % 65536]? with
       | some t => ((t.vals.filter (fun w => boundLe t.ty w v)).length, false)
       | none => (0xFFFF, false))
    else if f.xform = 3 then
      (match v with
       | .u n => (if n = 0 then 0 else logCode n, false)
       | .s i => if i < 0 then (0, true) else (if i = 0 then 0 else logCode i.toNat, false)
       | .f _ => (0xFFFF, false))
    else if f.xform = 5 then
      (match v with
       | .u n => clipCode n
       | .s i => clipCode i
       | .f _ => (0xFFFF, false))
    else affine (numF v)
where
  /-- AFFINE (R338). -/
  affine (b : Nat) : Nat × Bool :=
    let y := fmul f64 (fsub f64 b f.p0) f.p1
    if y = finf f64 true then (0, true) else if y = finf f64 false then (0xFFFE, true) else clipCode (froundInt f64 y)

/-- CROSS (R340). -/
def crossCode (p0 : Nat) (cs : List Nat) : Nat := crc32c (toBe 4 (p0 % 2 ^ 32) ++ (cs.map (toBe 2)).flatten) % max 1 (p0 / 2 ^ 32 % 65536)

/-! One feature -/

/-- The feature uses a damaged descriptor or table (R343). -/
def featDamaged (bad : List Nat) (f : FeatDesc) (i : Nat) : Bool := bad.contains i || (f.xform == 1 && bad.contains (4096 + f.p0 % 65536))

/-- Feature `i` of the sample's class, given the codes and poison bits before it and its state. -/
def featOne (fs : FeatureSec) (bad : List Nat) (x : FeatCtx) (codes pois : List Nat) (old : Option Nat) (i : Nat) (f : FeatDesc) : FOut :=
  if f.cls ≠ x.cls then ⟨0xFFFF, false, 0, false, none⟩
  else if featDamaged bad f i then ⟨0xFFFF, true, 0, false, none⟩
  else
    let two := f.pre == 5 || f.pre == 6 || f.pre == 7 || f.xform == 4
    let ra := readSrc x codes pois f.srcA
    let rb := if two then readSrc x codes pois f.srcB else (none, false)
    let rc := if f.srcC = 0 then (none, false) else readSrc x codes pois f.srcC
    let hit := x.badSrc.contains i
    let memHit := x.badMem.contains i
    let po := hit || memHit || ra.2 || rb.2 || rc.2
    let na := dropNan (if hit then none else ra.1)
    let nb := dropNan (if hit then none else rb.1)
    let prev := if memHit then none else old
    if f.xform = 4 then
      let cs := [na.1, nb.1] ++ (if f.srcC = 0 then [] else [rc.1])
      if cs.all (·.isSome) && !po then ⟨crossCode f.p0 ((cs.filterMap id).map numRaw), false, 0, false, none⟩ else ⟨0xFFFF, po, 0, false, none⟩
    else
      let r : Option FNum × Bool × Option (Option Nat) :=
        if f.pre = 1 then let d := deltaStep x f na.1 prev; (d.1, d.2.1, some d.2.2)
        else if f.pre = 4 then let d := ewmaStep x f.k na.1 prev; (d.1, false, some d.2)
        else (preStep x f.pre na.1 nb.1, false, none)
      let nv := dropNan r.1
      let nans := flag na.2 + flag nb.2 + flag nv.2
      match nv.1 with
      | some v => if po then ⟨0xFFFF, true, nans, false, r.2.2⟩ else let t := transform fs f v; ⟨t.1, false, nans, r.2.1 || t.2, r.2.2⟩
      | none => ⟨0xFFFF, po, nans, false, r.2.2⟩

def modFeat (s : State) (f : FeatU → FeatU) : State := { s with feat := f s.feat }

/-- The features one after another: state, codes and poison bits so far. -/
def featFold (fs : FeatureSec) (x : FeatCtx) : List FeatDesc → Nat → State × List Nat × List Nat → State × List Nat × List Nat
  | [], _, a => a
  | f :: r, i, (s, codes, pois) =>
    let o := featOne fs s.feat.badState x codes pois (lookup s.feat.state i) i f
    let s1 := if o.nans = 0 then s else rcAdd s .featNan o.nans
    let s2 := if o.sat then modFeat (rcInc s1 .featSat) (fun u => { u with lastSat := some i }) else s1
    let s3 := if o.pois then rcInc s2 .featPoison else s2
    let s4 := if x.badMem.contains i && f.cls == x.cls then rcInc s3 .featStateReset else s3
    let s5 := match o.mem with
      | some (some v) => modFeat s4 (fun u => { u with state := setKey u.state i v })
      | some none => modFeat s4 (fun u => { u with state := dropKey u.state i })
      | none => s4
    featFold fs x r (i + 1) (s5, codes ++ [o.code], if o.pois then pois ++ [i] else pois)

/-! Take-up (R325, R345 to R350) -/

/-- The slice that works on feature `i` of its class (R344). -/
def sliceOfFeat (fs : FeatureSec) (i : Nat) : Nat :=
  let c := ((fs.feats[i]?).map (·.cls)).getD 0
  ((fs.feats.take i).filter (fun f => f.cls == c)).length % 4

/-- A descriptor (n < 4096) or boundary table (from 4096 on) is found damaged (R343): a fault record at the slice concerned. -/
def noteDamage (fs : FeatureSec) (s : State) (n : Nat) : State :=
  if s.feat.badState.contains n then s
  else
    let i := if n < 4096 then n else fs.feats.findIdx (fun f => f.xform == 1 && f.p0 % 65536 == n - 4096)
    raiseFault (modFeat s (fun u => { u with badState := u.badState ++ [n] })) 7 (locWord s 3 2 (sliceOfFeat fs i) 0 0)

/-- What an uncorrectable read names in the `poisoned` operand: below 4096 a feature whose source is poisoned, from 4096 a feature whose state
is lost, from 8192 a damaged descriptor, from 12288 a damaged boundary table. -/
def poisonParts (l : List Nat) : List Nat × List Nat × List Nat :=
  (l.filter (fun n => decide (n < 4096)), (l.filter (fun n => decide (4096 ≤ n ∧ n < 8192))).map (· - 4096),
   (l.filter (fun n => decide (8192 ≤ n))).map (· - 8192))

/-- A sample of an epoch before e_A goes by the old image (R133). -/
def oldSample (s : State) (e : Nat) : Bool := s.img.hasAct && decide (e < s.img.eA) && s.img.old.isSome

/-- The old image's feature state in place of the active one's, and back. -/
def swapFeats (s : State) : State :=
  modFeat s (fun u => { u with state := u.prevState, badState := u.prevBad, prevState := u.state, prevBad := u.badState })

/-- A sample's code vector is formed in a slot, on the state of the image that rules it (R133). -/
def formVec (s : State) (im : Image) (x : FeatCtx) (damaged : List Nat) (v : Vec) : State :=
  let side (t : State) : State := if oldSample s v.epoch then swapFeats t else t
  let s0 := damaged.foldl (noteDamage im.feature) (side (touch s 2))
  let r := featFold im.feature x im.feature.feats 0 (s0, [], [])
  bufMark (modFeat (side r.1) (fun u => { u with cur := some { v with codes := r.2.1, poison := r.2.2 } }))

/-- The oldest epoch sample's slot is reclaimed (R349). -/
def reclaimSlot (s : State) : State :=
  match s.feat.slots.find? (fun f => f.vec.cls == 1) with
  | none => s
  | some f =>
    let s1 := discardJobs s 2 (fun j => f.jobs.contains j.jid)
    rcInc (modFeat s1 (fun u => { u with slots := u.slots.filter (fun g => !(g.vec.cls == 1 && g.vec.epoch == f.vec.epoch)) })) .featBufReclaim

/-- A DELTA or EWMA feature (R329). -/
def stateful (f : FeatDesc) : Bool := f.pre == 1 || f.pre == 4

/-- The old image's initialised state of the feature with this HASH: its descriptor and value. -/
def heldState (s : State) (old : FeatureSec) (hash : Nat) : Option (FeatDesc × Nat) :=
  (findIdx (fun g => g.hash == hash) old.feats).bind (fun j =>
    (old.feats[j]?).bind (fun g => (lookup s.feat.prevState j).map (fun v => (g, v))))

/-- The stateful features of a class take over from the old image (R335): one whose HASH and PRE agree keeps its state, one that held state under
another PRE restarts. -/
def carryClass (old new : FeatureSec) (s : State) (cls : Nat) : State :=
  let mine := ((List.range new.feats.length).zip new.feats).filter (fun p => p.2.cls == cls && stateful p.2)
  let held := mine.filterMap (fun p => (heldState s old p.2.hash).map (fun h => (p, h)))
  let keep := held.filter (fun q => q.2.1.pre == q.1.2.pre && q.2.1.k == q.1.2.k)
  rcAdd (modFeat s (fun u => { u with state := keep.foldl (fun t q => setKey t q.1.1 q.2.2) u.state })) .featStateReset (held.length - keep.length)

/-- The first sample of a class of an epoch from e_A on takes the class's state over. -/
def carryFeats (s : State) (cls e : Nat) : State :=
  match s.img.old, s.img.active with
  | some o, some im =>
    if s.img.featDue.contains cls && decide (s.img.eA ≤ e) then
      let s1 := carryClass o.feature im.feature s cls
      { s1 with img := { s1.img with featDue := s1.img.featDue.filter (· != cls) } }
    else s
  | _, _ => s

/-- Every class that has still to take over does so now. -/
def carryAll (s : State) : State := [1, 2, 3].foldl (fun t c => carryFeats t c t.img.eA) s

/-- A new image's features start: at once from the old one's state, or class by class while samples of epochs before e_A may come. -/
def switchFeats (s : State) (old : Option Image) (new : Image) (held : Bool) : State :=
  let s1 := modFeat s (fun u => { u with prevState := u.state, prevBad := u.badState, state := [], badState := [] })
  match old with
  | none => s1
  | some o =>
    if held then { s1 with img := { s1.img with featDue := [1, 2, 3] } }
    else [1, 2, 3].foldl (carryClass o.feature new.feature) s1

/-- The oldest epoch sample in the queue is taken up (R325). -/
def takeEpoch (s : State) (poisoned : List Nat) : State :=
  if s.feat.cur.isSome || quiet s then s
  else
    let next := s.feat.queue.findSome? (fun q => match q with
      | .epoch e => some e
      | .event _ _ _ => none)
    match next with
    | none => s
    | some e =>
      let q := s.feat.queue.filter (fun q => q != FeatIn.epoch e)
      let s0 := modFeat (carryFeats s 1 e) (fun u => { u with queue := q })
      (match imageAt s e, sampleOf s e with
       | some im, some smp =>
         let s1 := if 8 ≤ epochSlotsHeld s0 then reclaimSlot s0 else s0
         let p := poisonParts poisoned
         let prev := s.feat.lastEp
         let chained := (match prev with
           | some (l, r) => l + 1 == e && !r && !smp.restart
           | none => false)
         let x : FeatCtx := ⟨1, some smp, selsAt s e, s.red.own.find? (fun r => r.epoch == e), none, chained, smp.restart, im.node.e, p.1, p.2.1⟩
         formVec (modFeat s1 (fun u => { u with lastEp := some (e, smp.restart) })) im x p.2.2 ⟨1, 0, e, tb0Ns s, [], []⟩
       | _, _ => s0)

/-- The event sample at the head of the queue is taken up, when no epoch sample waits and an event slot is free (R325, R348). -/
def takeEvent (s : State) (poisoned : List Nat) : State :=
  let waits := s.feat.queue.any (fun q => match q with
    | .epoch _ => true
    | .event _ _ _ => false)
  if s.feat.cur.isSome || waits || decide (eventSlots s ≤ eventSlotsHeld s) || quiet s then s
  else match s.feat.queue with
    | .event e k v :: r =>
      let cls := (match v with
        | .step _ => 2
        | .ue _ _ _ => 3)
      let s0 := modFeat (carryFeats s cls e) (fun u => { u with queue := r })
      (match imageAt s e with
       | some im =>
         let p := poisonParts poisoned
         let x : FeatCtx := ⟨cls, none, [], none, some v, true, false, im.node.e, p.1, p.2.1⟩
         formVec s0 im x p.2.2 ⟨cls, k, e, tb0Ns s, [], []⟩
       | none => s0)
    | _ => s

/-- The vector in formation is complete (R345, R347): its slot, its readers, its jobs (R418) and, for an epoch sample, FEAT_CODE. -/
def vectorDone (s : State) : State :=
  match s.feat.cur with
  | none => s
  | some v =>
    let im := imageAt s v.epoch
    let role := (im.map (·.role)).getD 0
    let red := v.cls == 1 && role == 1 && (match im with
      | some i => i.schema.fields.any (fun f => srcKind f.src == 2)
      | none => false) && !(s.red.own.any (fun r => r.epoch == v.epoch))
    let vrd := v.cls == 1 && (match im with
      | some i => !i.detect.dets.isEmpty
      | none => false)
    let s1 := modFeat s (fun u => { u with cur := none, slots := u.slots ++ [⟨v, [], red, vrd⟩], latest := if v.cls = 1 then some v else u.latest })
    let s2 := slotJobs s1 v
    sweepSlots (bufMark s2)

/-- FEAT_STAT (R356). -/
def featStatWord (s : State) : Nat := ((s.img.active.map (·.feature.feats.length)).getD 0) * 65536 + bufUsed s

/-- FEAT_CODE of the selected feature (R356). -/
def featCodeWord (s : State) : Nat :=
  let i := rwGet s .featCodeSel
  let valid := (match s.img.active with
    | some im => (match im.feature.feats[i]? with
      | some f => f.cls == 1
      | none => false)
    | none => false)
  match s.feat.latest with
  | some v => flag valid * 2 ^ 31 + flag (v.poison.contains i) * 2 ^ 30 + (if valid then codeOf v i else 0xFFFF)
  | none => flag valid * 2 ^ 31 + 0xFFFF

end Sys2Proof.Machine
end

