-- ==== Sys2Proof/Machine/Frame.lean ====
section
/-!
DEFINITION. Itzil frames (R458 to R460), the epoch of a tag (R295), receive cells (R470, R471), time gates (R478, R479, R481), shapers (R482 to
R484) and the queueing of frames and records on a port (R464, R468).
-/
namespace Sys2Proof.Machine

/-! Frames -/

/-- A frame's header fields and payload (R458); `hop` byte 7 whole, as PCRC covers it, `seg` the SEG word. -/
structure Frame where
  ver     : Nat
  ty      : Nat
  tag     : Nat
  src     : Nat
  hop     : Nat
  ts      : Stamp
  gen     : Nat
  len     : Nat
  flags   : Nat
  seg     : Nat
  pcrc    : Nat
  payload : Bytes
deriving DecidableEq, Repr

/-- A frame read from its bytes; what lies beyond LEN × 4 is ignored (R460). -/
def frameAt (b : Bytes) : Frame :=
  { ver := byteAt b 0, ty := byteAt b 1, tag := beAt b 2 2, src := beAt b 4 3, hop := byteAt b 7, ts := stampAt b 8, gen := beAt b 0x12 2,
    len := beAt b 0x14 2, flags := beAt b 0x16 2, seg := beAt b 0x18 4, pcrc := beAt b 0x1C 4, payload := sliceOf b 32 (4 * beAt b 0x14 2 - 32) }

/-- The header bytes that PCRC covers, with the payload. -/
def pcrcOf (f : Frame) : Nat :=
  crc32c (toBe 1 f.ver ++ toBe 1 f.ty ++ toBe 2 f.tag ++ toBe 3 f.src ++ toBe 1 f.hop ++ toBe 2 f.gen ++ toBe 2 f.len ++ toBe 2 f.flags ++
    toBe 4 f.seg ++ f.payload)

/-- The bytes of a frame that departs. -/
def frameBytes (f : Frame) : Bytes :=
  toBe 1 f.ver ++ toBe 1 f.ty ++ toBe 2 f.tag ++ toBe 3 f.src ++ toBe 1 f.hop ++ stampBytes toBe f.ts ++ toBe 2 f.gen ++ toBe 2 f.len ++
  toBe 2 f.flags ++ toBe 4 f.seg ++ toBe 4 (pcrcOf f) ++ f.payload

/-- TYPE bytes (R459): subtype in the high half. -/
def tyRecord : Nat := 0x01
def tyDown : Nat := 0x02
def tyStart : Nat := 0x03
def tyAck : Nat := 0x04
def tyHeart : Nat := 0x05
def tyVerdict : Nat := 0x06
def tyActivate : Nat := 0x17
def tyPtp : Nat := 0x27
def tyResend : Nat := 0x37
def tyDepart : Nat := 0x47
def tyPropose : Nat := 0x18
def tyBallot : Nat := 0x28

/-- TYPE and subtype stand in the frame-type table (R459). -/
def tyKnown (t : Nat) : Bool :=
  [tyRecord, tyDown, tyStart, tyAck, tyHeart, tyVerdict, tyActivate, tyPtp, tyResend, tyDepart, tyPropose, tyBallot].contains t

/-! Ports -/

def portNone : IPort :=
  { linkUp := false, lstate := 0, loss := 0, pfail := false, pfailAt := none, hbRx := none, hbRef := 0, misses := 0, hbTx := 0, hbSeq := 0,
    hbDue := false, pfTx := false, peerUse := false, peerDepart := false, rejoin := false, freed := 0, used := 0, sent := 0, limit := 0, level := 0, levelAt := 0, upEpochs := 0,
    queue := [], recs := [], seqUp := 0, seqDown := 0, reUp := none, reDown := none, rxUp := [], rxDown := [], asked := [], lastTx := [] }

def portAt (s : State) (p : Nat) : IPort := lookupD s.ilk.ports p portNone

def modPort (s : State) (p : Nat) (f : IPort → IPort) : State := { s with ilk := { s.ilk with ports := modKey s.ilk.ports p portNone f } }

/-- TOPOLOGY of the active image. -/
def topoOf (s : State) : TopoSec := (s.img.active.map (·.topo)).getD ⟨[], [], 0, 0⟩

/-- The active image's entry of a port; while R136 holds the old image, its entry of a port that the new one leaves out (R133). -/
def entOfPort (s : State) (p : Nat) : Option PortEnt := (portEnt (topoOf s) p).orElse (fun _ => s.img.old.bind (fun o => portEnt o.topo p))

/-- The old image's neighbour on a port, whose records of epochs before e_A are still taken (R133). -/
def oldPeer (s : State) (p n : Nat) : Bool := (s.img.old.bind (fun o => portEnt o.topo p)).any (fun e => e.peer == n)

/-- KIND of a port, 0 where TOPOLOGY does not name it. -/
def kindOfPort (s : State) (p : Nat) : Nat := ((portEnt (topoOf s) p).map (·.kind)).getD 0

/-- The instance lacks the port: its inputs are ignored (R52, R53). -/
def portAbsent (s : State) (p : Nat) : Bool := decide (Config.ports s.integ ≤ p)

/-- The ports of the uplinks: primary and alternate; none in the Dome. -/
def uplinkPort (s : State) (k : Nat) : Option Nat := (portsOfKind (topoOf s) (k + 1)).head?

/-- The active uplink's port. -/
def activeUplink (s : State) : Option Nat := if s.ilk.active < 2 then uplinkPort s s.ilk.active else none

/-- The port on which a record of epoch `x` goes up: the active uplink's; for an epoch before e_A, while the old image is held, that of a parent which
the old image names (R133, log entry 143). -/
def uplinkFor (s : State) (x : Nat) : Option Nat :=
  match if s.img.hasAct && decide (x < s.img.eA) then s.img.old else none with
  | none => activeUplink s
  | some o =>
    let ups := portsOfKind o.topo 1 ++ portsOfKind o.topo 2
    ((activeUplink s).filter ups.contains).orElse (fun _ => ups.find? (fun p => (portAt s p).lstate == 2))

/-- A serial port (R52). -/
def isSerial (p : Nat) : Bool := decide (128 ≤ p)

/-- Cells of a frame of `n` bytes (R470). -/
def cellsOf (n : Nat) : Nat := ceilDiv n 64

/-- The counter of the check that a received frame fails first (R460). -/
def frameFails (s : State) (p : Nat) (rxErr : Bool) (b : Bytes) : Option IlkCnt :=
  let f := frameAt b
  if rxErr then some .rxErr
  else if b.length < 32 ∨ f.len < 8 ∨ b.length < 4 * f.len then some .lenBad
  else if f.ver / 16 ≠ 3 then some .verBad
  else if pcrcOf f ≠ f.pcrc then some .pcrcBad
  else if !tyKnown f.ty then some .typeBad
  else match entOfPort s p with
    | none => some .peerBad
    | some e =>
      if f.src ≠ e.peer && !(f.ty == tyRecord && oldPeer s p f.src) then some .peerBad
      else if f.ty ≠ tyHeart ∧ e.rxcells < (portAt s p).used + cellsOf (4 * f.len) then some .creditOvr
      else none

/-- The port takes no frames: the instance lacks it (R53), or start-up is before its fifth step (R104). -/
def rxClosed (s : State) (p : Nat) : Bool := portAbsent s p || decide (s.rst.step < 6)

/-- A received frame is checked (R460); one that passes is received only while the block works and has an image (R572, R662). A frame of type `ty` that passes
is handed on with its cells freed, or for a segment occupied. Another type is another command's frame. -/
def rxFrame (s : State) (p : Nat) (b : Bytes) (ty : Nat) : State × Option Frame :=
  if rxClosed s p then (s, none)
  else match frameFails s p false b with
    | some c => (rcInc s (.ilk p c), none)
    | none =>
      let f := frameAt b
      let n := cellsOf (4 * f.len)
      if mmQuiet s ∨ f.ty ≠ ty then (s, none)
      else if ty = tyHeart then (s, some f)
      else if ty = tyRecord ∨ ty = tyDown then (modPort s p (fun k => { k with used := k.used + n }), some f)
      else (modPort s p (fun k => { k with freed := (k.freed + n) % 2 ^ 32 }), some f)

/-- Cells of received frames are free again. -/
def freeCells (s : State) (p n : Nat) : State := modPort s p (fun k => { k with used := k.used - n, freed := (k.freed + n) % 2 ^ 32 })

/-- The epoch that a 16-bit tag names: at most 1 ahead and 8 behind, while the grid is RUNNING (R295). -/
def tagEpoch (s : State) (tag : Nat) : Option Nat :=
  let ec := s.time.grid.epoch
  let d := (tag + 65536 - ec % 65536) % 65536
  if !gridRuns s then none
  else if d ≤ 1 then some (ec + d)
  else if 65528 ≤ d ∧ 65536 - d ≤ ec then some (ec - (65536 - d))
  else none

/-- The epoch lies in the window of R295. -/
def inWindow (s : State) (x : Nat) : Bool := gridRuns s && decide (x ≤ s.time.grid.epoch + 1) && decide (s.time.grid.epoch ≤ x + 8)

/-- The stale-tag and generation tests of a VERDICT or VOTE frame (R126, R459). -/
def checkedFrame (s : State) (f : Frame) : State × Option Nat :=
  match tagEpoch s f.tag with
  | none => (rcInc s .sealStaleDrop, none)
  | some x => if f.gen = genAt s x then (s, some x) else (rcInc s .sealGenDrop, none)

/-! Queues -/

/-- A frame waits on a port (R468). Row 2 sends ACK (order 0), START (1) and CTRL (2); frames of row 4 never stand here but in a resend. -/
def queueFrame (s : State) (p row order ty : Nat) (payload : Bytes) : State :=
  modPort s p (fun k => { k with queue := k.queue ++ [⟨row, order, ty, none, 0, payload, none⟩] })

/-- A CTRL frame waits. -/
def queueCtrl (s : State) (p ty : Nat) (payload : Bytes) : State := queueFrame s p 2 2 ty payload

/-- A frame waits on each of several ports. -/
def queueAll (s : State) (ps : List Nat) (row order ty : Nat) (payload : Bytes) : State :=
  ps.foldl (fun t p => queueFrame t p row order ty payload) s

/-- A record waits on a port, oldest epoch first within its row (R468). -/
def queueRec (s : State) (p row epoch gen : Nat) (first : Bool) (data : Bytes) : State :=
  modPort s p (fun k => { k with recs := insertBy (fun r => r.epoch) ⟨row, epoch, gen, first, data, 0, none⟩ k.recs })

/-- RESEND_REQ for epoch `x` (R466): at most two for one epoch, kind (1 RECORD, 2 DOWN) and port, within the window. -/
def askResend (s : State) (p x what : Nat) : State :=
  let n := ((aget (portAt s p).asked (x, what)).getD 0)
  if !inWindow s x || decide (2 ≤ n) || (entOfPort s p).isNone then s
  else
    let s1 := modPort s p (fun k => { k with asked := aset (k.asked.filter (fun a => inWindow s a.1.1)) (x, what) (n + 1) })
    rcInc (queueCtrl s1 p tyResend (toBe 8 x ++ toBe 1 what ++ zeros 7)) (.ilk p .resendReq)

/-! Gates (R478 to R481) -/

/-- Start of gate cycle 0 in units of 2^-10 ns. -/
def gateBase (s : State) (g : GateList) : Int := (((s.time.grid.anchor + g.phase) * 1024 : Nat) : Int)

/-- Place of a TB0 time within its gate cycle, in units of 2^-10 ns. -/
def gatePos (s : State) (g : GateList) (tick : Int) : Nat := ((tick - gateBase s g) % ((max 1 g.cycle * 1024 : Nat) : Int)).toNat

/-- First gate cycle of a list that begins at or after a TB0 time. -/
def gateStart (s : State) (g : GateList) (tick : Int) : Int :=
  let c : Int := ((max 1 g.cycle * 1024 : Nat) : Int)
  gateBase s g + (tick - gateBase s g + c - 1) / c * c

/-- The list in force on a port: a new one from the first gate cycle that begins at or after the e_A of its image (R481); none where that image has
none for the port, which is then always open (R478). -/
def gateOf (s : State) (p : Nat) : Option GateList :=
  match s.ilk.gatesNext.find? (fun g => g.port == p) with
  | some g => if gateStart s g (edgeTick s.time.grid s.ilk.gatesAt) ≤ (tb0Tick s : Int) then some g else s.ilk.gates.find? (fun o => o.port == p)
  | none => s.ilk.gates.find? (fun o => o.port == p)

/-- The gate is open at a TB0 time. -/
def gateOpenAt (s : State) (p : Nat) (tick : Int) : Bool :=
  match gateOf s p with
  | none => true
  | some g => (gateSpans g.entries 0).any (fun e => e.1 && decide (e.2.1 * 1024 ≤ gatePos s g tick) && decide (gatePos s g tick < e.2.2 * 1024))

/-- A frame may begin on the wire at a TB0 time: in an open window, at least the guard band before it closes (R479). -/
def gateAdmits (s : State) (p : Nat) (e : PortEnt) (tick : Int) : Bool :=
  match gateOf s p with
  | none => true
  | some g =>
    let pos := gatePos s g tick
    let c := g.cycle * 1024
    let fits (w : Nat × Nat) (q : Nat) : Bool := decide (w.1 * 1024 ≤ q) && decide (q + guardNs e * 1024 ≤ w.2 * 1024)
    !gateCloses g || (gateWindows g).any (fun w => fits w pos || fits w (pos + c))

/-- Open time between two TB0 times, in units of 2^-10 ns (R474). -/
def openBetween (s : State) (p : Nat) (a b : Int) : Nat :=
  match gateOf s p with
  | none => (b - a).toNat
  | some g => usableIn g 0 (a - gateBase s g) (b - a).toNat

/-- The open windows of a port from a TB0 time on, ascending, for enough gate cycles to hold `need` units of open time. -/
def windowsFrom (s : State) (g : GateList) (a : Int) (need : Nat) : List (Int × Int) :=
  let c : Int := ((max 1 g.cycle * 1024 : Nat) : Int)
  let k0 := (a - gateBase s g) / c - 1
  let one (k : Nat) : List (Int × Int) := (gateWindows g).map (fun w =>
    let o := gateBase s g + (k0 + (k : Int)) * c
    (max a (o + ((w.1 * 1024 : Nat) : Int)), o + ((w.2 * 1024 : Nat) : Int)))
  (((List.range (need / 1024000 + 4)).map one).flatten).filter (fun w => decide (w.1 < w.2))

/-- Where `need` units of open time have passed, over windows in order. -/
def walkOpen : List (Int × Int) → Nat → Int → Int
  | [], _, d => d
  | (x, y) :: r, need, d => if need ≤ (y - x).toNat then x + (need : Int) else walkOpen r (need - (y - x).toNat) d

/-- The TB0 time at which `need` units of open time have passed since `a`. -/
def afterOpen (s : State) (p : Nat) (a : Int) (need : Nat) : Int :=
  match gateOf s p with
  | none => a + (need : Int)
  | some g => if gateCloses g then walkOpen (windowsFrom s g a need) need a else a + (need : Int)

/-- The next time from `a` on, `a` included, at which a frame may begin on the wire. -/
def nextAdmit (s : State) (p : Nat) (e : PortEnt) (a : Int) : Int :=
  match gateOf s p with
  | none => a
  | some g =>
    if gateAdmits s p e a then a
    else (((windowsFrom s g a 0).filter (fun w => decide (((guardNs e * 1024 : Nat) : Int) ≤ w.2 - w.1))).head?.map (·.1)).getD a

/-! Shapers (R482 to R484), levels in 2^-16 byte -/

/-- CAP in force on a port. -/
def capOf (s : State) (p : Nat) : Nat := rwEff s (.ilkCap p)

/-- The depth D. -/
def depthOf (s : State) (e : PortEnt) : Nat :=
  max (capOf s e.port * e.rate * epochTicks s.time.grid.e * 65536 / (80000 * 1024 * 10 ^ 9)) ((e.mtu + e.ovh) * 65536)

/-- The level at the present count, with what TB0's advance has added. -/
def levelNow (s : State) (e : PortEnt) (k : IPort) : Int :=
  let b := baseAt s 0
  let gain : Nat := capOf s e.port * e.rate * (s.time.c - k.levelAt) * (2 ^ 44 + b.rate).toNat * 65536 / (8 * 10 ^ 13 * 2 ^ 44)
  min ((depthOf s e : Nat) : Int) (k.level + ((gain : Nat) : Int))

/-- The level is brought up to date, and then changed by `f`. -/
def setLevel (s : State) (e : PortEnt) (f : Int → Int) : State :=
  let v := levelNow s e (portAt s e.port)
  modPort s e.port (fun k => { k with level := f v, levelAt := s.time.c })

/-- Every port's level is brought up to date, before TB0's rate or a CAP changes. -/
def settleLevels (s : State) : State := (topoOf s).ports.foldl (fun t e => setLevel t e id) s

/-- The level is reset to D (R484). -/
def fillLevel (s : State) (p : Nat) : State :=
  match entOfPort s p with
  | some e => setLevel s e (fun _ => (depthOf s e : Int))
  | none => s

end Sys2Proof.Machine
end

