-- ==== Sys2Proof/Machine/Red.lean ====
section
/-!
DEFINITION. RED at the node's own record: a Newt's contribution (R257, R259, R264, R266, R306), SUMMARY form and the records that wait (R273 to
R275), and what follows when a record is ready.
-/
namespace Sys2Proof.Machine

def modRed (s : State) (f : RedU → RedU) : State := { s with red := f s.red }

/-! A Newt's fields -/

/-- The PAIRK input of a field with source word `src` (R266). -/
def pairVal (smp : Sample) (sch : SchemaSec) (src : Nat) : FieldVal :=
  let ents := (sch.pairs.drop (src / 4096 % 4096)).take (src % 4096)
  let add (t : List PairEnt) (p : Nat × Nat) : List PairEnt :=
    let w := ((lookup smp.lanes p.1).map (·.delta)).getD 0
    match findIdx (fun (e : PairEnt) => e.dst == p.2) t with
    | some i => modAt t i (fun e => { e with weight := satAdd 64 e.weight w })
    | none => t ++ [⟨sch.srcGroup, p.2, w⟩]
  let c := pairCut ((ents.foldl add []).filter (fun e => e.weight != 0))
  .pairk c.2 c.1

/-- What a Newt's field is formed from: a value area of its own (PAIRK), or a source value. -/
inductive LeafSrc where
  | none
  | val (v : Nat)
  | area (v : FieldVal)
deriving DecidableEq, Repr

/-- The source of a field is read once (R257); the flag says that its word is poisoned. -/
def leafSource (s : State) (im : Image) (smp : Sample) (sels : List (Option (Nat × Nat))) (vec : Option Vec) (d : FieldDesc) : State × LeafSrc × Bool :=
  match srcKind d.src with
  | 1 => (s, (match sampleVal smp sels d.src with
    | some v => .val (numRaw v)
    | none => .none), false)
  | 2 =>
    (match vec with
     | some v => (s, .val (codeOf v (d.src % 65536)), v.poison.contains (d.src % 65536))
     | none => (s, .none, false))
  | 3 =>
    let r := readScore s (d.src / 16 % 64) (d.src % 16) smp.epoch
    (r.1, (match r.2 with
      | some v => .val v
      | none => .none), false)
  | 4 => (s, .area (pairVal smp im.schema d.src), false)
  | _ => (s, .none, false)

/-- A field that reads MISSING: empty, but for a histogram's MISS (R257, R264). -/
def missingField (d : FieldDesc) (sel : Option (Nat × Nat)) : Field :=
  let f := emptyField d sel
  if d.op = 8 then withRes { f with val := .hist d.param 0 0 1 (List.replicate 64 0) } else f

/-- Field `i` of a Newt's record (R257, R259). -/
def newtField (s : State) (im : Image) (smp : Sample) (sels : List (Option (Nat × Nat))) (vec : Option Vec) (poisoned : List Nat)
    (i : Nat) (d : FieldDesc) : State × Field :=
  let sel := if d.jobbound then sels.getD d.jobsel none else none
  let comp := if d.jobbound then stepOf smp sels d.jobsel else none
  if d.jobbound && comp.isNone then (rcAdd s .redJobgenDrop smp.steps.length, emptyField d sel)
  else
    let r := leafSource s im smp sels vec d
    if r.2.2 || poisoned.contains i then (r.1, poisonField (emptyField d sel) 1)
    else match r.2.1 with
      | .none => (r.1, missingField d sel)
      | .area v => (r.1, { emptyField d sel with contrib := 1, val := v })
      | .val v =>
        if emptyFor d.op d.ty v then (r.1, missingField d sel)
        else (r.1, withRes { emptyField d sel with contrib := 1, val := leafVal d im.nodeId v (comp.map (fun c => (c.step, c.job, c.gen))) })

/-- The fields one after another. -/
def newtFields (im : Image) (smp : Sample) (sels : List (Option (Nat × Nat))) (vec : Option Vec) (poisoned : List Nat) :
    List FieldDesc → Nat → State → State × List Field
  | [], _, s => (s, [])
  | d :: r, i, s =>
    let a := newtField s im smp sels vec poisoned i d
    let b := newtFields im smp sels vec poisoned r (i + 1) a.1
    (b.1, a.2 :: b.2)

/-- The PARENT word of an image's node (R304). -/
def parentWord (im : Image) : Nat :=
  if im.role = 3 then 0xFFFFFFFF
  else im.node.parentPri + ((portsOfKind im.topo 1).head?.bind (portEnt im.topo)).elim 0 (fun e => e.pidx * 2 ^ 24)

/-- A Newt's coverage (R306). -/
def newtCov (im : Image) (fs : List Field) : Coverage :=
  { partialCov := false, degraded := false, poisoned := fs.any (·.poison), rebuilding := false, adopt := false, early := false, nchild := 0,
    nmiss := 0, leaves := 1, expect := 1, adopted := 0, parent := parentWord im, missNodes := 0, rebuildNodes := 0, lostNode := 0xFFFFFFFF,
    depart := 0, miss := [] }

/-- A Newt's record of a sample's epoch, in FULL form. -/
def newtRecord (s : State) (im : Image) (smp : Sample) (fs : List Field) : Record :=
  { schema := im.schema.schema, gen := genAt s smp.epoch, summary := false, join := smp.join, timeStep := smp.tstep, restart := smp.restart,
    resent := false, epoch := smp.epoch, node := im.nodeId, h := im.node.h, beginAt := smp.beginAt, endAt := smp.endAt, cov := newtCov im fs,
    loss := smp.loss, self := none, infra := none, fields := fs, late := [] }

/-! Records that wait (R273 to R275) -/

/-- The fields as their REDUCE actions let them be sent (R273). -/
def stopFields (acts : List Nat) (fs : List Field) : List Field :=
  ((List.range fs.length).zip fs).map (fun p => if acts.getD p.1 1 == 2 then stopField p.2 else p.2)

/-- A record as it is sent: STOP fields left out, in its LATE groups too. -/
def applyStop (acts : List Nat) (r : Record) : Record :=
  { r with fields := stopFields acts r.fields, late := r.late.map (fun g => { g with fields := stopFields acts g.fields }) }

/-- A record that becomes ready is formed in SUMMARY form (R275): SUMMARY_AT records wait, or one in SUMMARY form is still the newest
that waits. -/
def formsSummary (s : State) : Bool :=
  decide (rwEff s .redCfg % 16 ≤ s.red.unsent.length) ||
  (match s.red.unsent.getLast? with
   | some r => r.summary
   | none => false)

/-- The record joins those that wait for the active uplink; nine epochs are never held (R275). -/
def enqueueOwn (s : State) (r : Record) : State :=
  let old := if rwEff s .redCfg % 16 ≤ s.red.unsent.length then s.red.unsent.map summarise else s.red.unsent
  let q := old ++ [r]
  if 9 ≤ q.length then rcInc (modRed s (fun u => { u with unsent := q.drop 1 })) .redHoldDrop else modRed s (fun u => { u with unsent := q })

/-- The coverage flags and NMISS that the recorder takes (R519). -/
def recordNoted (s : State) (r : Record) : State :=
  ercReady s r.epoch (covFlags r.cov (!r.late.isEmpty)) r.cov.nmiss (min 0xFFFFFFFF (sumOf r.loss)) (recordBytes r)

/-- The node's record is ready (R28, R271): `full` in FULL form with every merged field. The record as sent and as kept for FIELD sources
(R328), the recorder's measures, the views' delivery, and RED's read of the vector ends (R347). -/
def ownReady (s : State) (im : Image) (full : Record) : State × Record :=
  let r0 := if im.role ≠ 3 && formsSummary s then summarise full else full
  let sent := applyStop im.reduce r0
  let s1 := if im.role = 3 then s else enqueueOwn s sent
  let s2 := modRed s1 (fun u => { u with own := (r0 :: u.own).take 9 })
  (readerRed (deliverAll (recordNoted s2 sent) im.schema sent) full.epoch, sent)

/-- FEAT still works on the epoch's sample. -/
def vectorPending (s : State) (x : Nat) : Bool :=
  s.feat.queue.contains (FeatIn.epoch x) || (match s.feat.cur with
    | some v => v.cls == 1 && v.epoch == x
    | none => false)

/-- The oldest frozen epoch whose record a Newt has still to form. -/
def newtDue (s : State) : Option Sample :=
  s.cap.frozen.reverse.find? (fun p => s.red.own.all (fun r => decide (r.epoch < p.epoch)))

end Sys2Proof.Machine
end

