-- ==== Sys2Proof/Machine/Seal.lean ====
section
/-!
DEFINITION. SEAL: the arrival of records at a merging node (R246, R270, R272, R295 to R299), late groups (R300 to R303), resends after failover
(R307 to R310), the seal (R290 to R294) with the merge (R260 to R271) and the coverage (R305), and the merged record (R243, R248 to R250).
-/
namespace Sys2Proof.Machine

def modSeal (s : State) (f : SealU → SealU) : State := { s with sealing := f s.sealing }

/-! Work on an epoch -/

def workNone (x : Nat) : EpochWork :=
  { x := x, opened := false, isSealed := false, sealIn := 0, inputs := [], resends := [], groups := [], senders := [], covs := [], orphans := [],
    released := false }

def workOf (s : State) (x : Nat) : Option EpochWork := s.sealing.works.find? (fun w => w.x == x)

def workAt (s : State) (x : Nat) : EpochWork := (workOf s x).getD (workNone x)

/-- The work on `x` changed, in ascending order of epoch. -/
def modWork (s : State) (x : Nat) (f : EpochWork → EpochWork) : State :=
  let w := f (workAt s x)
  modSeal s (fun u => { u with works := insertBy (fun v => v.x) w (u.works.filter (fun v => v.x != x)) })

/-- Epoch `x` is sealed at this node, or was never opened and has passed (R294). -/
def sealedAt (s : State) (x : Nat) : Bool :=
  let w := workAt s x
  w.isSealed || (!w.opened && decide (x ≤ s.time.grid.epoch))

/-- The lowest epoch above `x` that is not sealed (R300). -/
def nextUnsealed (s : State) (x : Nat) : Nat :=
  ((List.range (s.time.grid.epoch + 1 - x)).map (fun i => x + 1 + i)).find? (fun y => !sealedAt s y) |>.getD (max (x + 1) (s.time.grid.epoch + 1))

/-- The next place in the order of arrival. -/
def nextOrd (w : EpochWork) : Nat := w.inputs.length + w.resends.length + w.groups.length

/-! Checks of a reassembled record (R246, R270, R272) -/

/-- The fields of a record or group of schema `sc` as inputs of the image's fields: by index, or through MAP; none for another schema. -/
def mapFields (im : Image) (sels : List (Option (Nat × Nat))) (sc : Nat) (fs : List Field) : Option (List Field) :=
  let d := im.schema
  let sel (k : FieldDesc) : Option (Nat × Nat) := if k.jobbound then sels.getD k.jobsel none else none
  if sc = d.schema then some fs
  else if sc = d.prev ∧ d.prev ≠ 0xFFFF then
    some ((d.fields.zip d.map).map (fun p => match (if p.2 = 0xFFFF then none else fs[p.2]?) with
      | some f => f
      | none => stopField (emptyField p.1 (sel p.1))))
  else none

/-- The fields fit the descriptors they are matched with (R272). -/
def areaFits (im : Image) (sc : Nat) (form : Bool) (fs : List Field) : Bool :=
  let d := im.schema
  if sc = d.schema then fs.length == d.fields.length && (d.fields.zip fs).all (fun p => fieldFits p.1 form p.2)
  else
    fs.length == d.prevFields && (d.fields.zip d.map).all (fun p => p.2 == 0xFFFF || (match fs[p.2]? with
      | some f => fieldFits p.1 form f
      | none => false))

/-- Nothing in the record contradicts the schema (R272). -/
def recordFits (im : Image) (r : Record) : Bool :=
  areaFits im r.schema r.summary r.fields && r.late.all (fun g => areaFits im r.schema true g.fields)

/-- Every residue of the record holds (R270). -/
def recordResOk (r : Record) : Bool := r.fields.all resOk && r.late.all (fun g => g.fields.all resOk)

/-! Late groups (R300, R301) -/

/-- The input is folded into the late group of `x` for its target. -/
def foldLate (s : State) (x : Nat) (g : GroupIn) : State :=
  let t := nextUnsealed s x
  let add (l : List LateAcc) : List LateAcc :=
    if l.any (fun a => a.x == x && a.target == t) then l.map (fun a => if a.x = x ∧ a.target = t then { a with parts := a.parts ++ [g] } else a)
    else insertBy (fun a => a.x) ⟨x, t, [g]⟩ l
  rcInc (modSeal s (fun u => { u with lates := add u.lates })) .sealLate

/-- A record as a late group of its epoch (R300): its fields in SUMMARY form. -/
def groupOfRecord (adopt : Bool) (r : Record) : LateGroup :=
  { epoch := r.epoch, gen := r.gen, poisoned := r.cov.poisoned, degraded := r.cov.degraded, rebuilding := r.cov.rebuilding,
    adopt := r.cov.adopt || adopt, leaves := r.cov.leaves, inputs := 1, fields := r.fields.map summaryField }

/-- One group of an accepted record (R301). -/
def takeGroup (p sc : Nat) (foreign : Bool) (s : State) (g : LateGroup) : State :=
  let x := g.epoch
  if !inWindow s x then rcInc s .sealStaleDrop
  else if g.gen ≠ genAt s x then rcInc s .sealGenDrop
  else if sealedAt s x then foldLate s x ⟨0, p, sc, foreign, g⟩
  else modWork s x (fun w => { w with groups := w.groups ++ [⟨nextOrd w, p, sc, foreign, g⟩] })

/-! Who sent it -/

/-- A child or standby child with this node ID. -/
def childNode (t : TopoSec) (n : Nat) : Option ChildEnt := t.children.find? (fun c => c.node == n)

/-- The node named by a PARENT word, and the index there. -/
def parentOf (c : Coverage) : Nat × Nat := (c.parent % 2 ^ 24, c.parent / 2 ^ 24)

/-- PARENT names neither this node nor one of its children (R305). -/
def foreignTo (im : Image) (r : Record) : Bool :=
  let p := (parentOf r.cov).1
  p != im.nodeId && (childIndex im.topo p).isNone

/-- The record of p shows present an orphan of p that has been merged (R310). -/
def showsOrphan (w : EpochWork) (r : Record) : Bool := w.orphans.any (fun o => o.1 == r.node && !r.cov.miss.contains o.2)

/-! What an epoch merges -/

/-- The inputs of every field, in the order of arrival: those of records, resends merged, and groups merged into the epoch. -/
def sealInputs (im : Image) (sels : List (Option (Nat × Nat))) (w : EpochWork) : List (Nat × Nat × List Field) :=
  let recs := w.inputs.filterMap (fun a => (mapFields im sels a.record.schema a.record.fields).map (fun fs => (a.ord, a.port, fs)))
  let grps := w.groups.filterMap (fun g => (mapFields im sels g.schema g.group.fields).map (fun fs => (g.ord, g.port, fs)))
  sortBy (fun i => i.1) (recs ++ grps)

/-- Input `i` of each contribution. -/
def inputsOf (l : List (Nat × Nat × List Field)) (i : Nat) : List Input := l.filterMap (fun c => (c.2.2[i]?).map (fun f => (c.2.1, f)))

/-- The selector's job and generation of a JOBBOUND field. -/
def selOf (sels : List (Option (Nat × Nat))) (d : FieldDesc) : Option (Nat × Nat) := if d.jobbound then sels.getD d.jobsel none else none

/-- The entries that the pair tables of an epoch have folded into ERR so far (R266). The table of a field is `pairTable` of what has been accepted,
in the order of arrival. -/
def pairOvf (im : Image) (sels : List (Option (Nat × Nat))) (w : EpochWork) : Nat :=
  let l := sealInputs im sels w
  let ds := ((List.range im.schema.fields.length).zip im.schema.fields).filter (fun p => p.2.op == 10)
  sumOf (ds.map (fun p => (pairTable ((readInputs (jobFilter p.2 (selOf sels p.2) (inputsOf l p.1)).1).map (fun i => pairsOf i.2))).2.2))

/-- A contribution joins the inputs of epoch `x`, last in the order of arrival; its pairs go into the tables (R266). -/
def joinInput (s : State) (im : Image) (x : Nat) (a : Arrival) : State :=
  let s1 := modWork s x (fun w => { w with inputs := w.inputs ++ [{ a with ord := nextOrd w }] })
  rcAdd s1 .redPairOvf (pairOvf im (selsAt s x) (workAt s1 x) - pairOvf im (selsAt s x) (workAt s x))

/-! Acceptance (R295, R301) -/

/-- An accepted record: H_ARRIVAL, its sender and coverage, its groups, and its merge or late fold. -/
def acceptRecord (s : State) (im : Image) (p : Nat) (standby : Bool) (r : Record) : State :=
  let x := r.epoch
  let foreign := foreignTo im r
  let s1 := modTally s (fun t => { t with arrival := histoAdd t.arrival (sinceEnd s x) })
  let own := parentOf r.cov
  let orphan := if standby && (childIndex im.topo own.1).isSome then [own] else []
  let s2 := modWork s1 x (fun w => { w with senders := w.senders ++ [r.node], covs := w.covs ++ [(r.node, r.cov)], orphans := w.orphans ++ orphan })
  let s3 := if standby then s2 else modSeal s2 (fun u => { u with expects := setKey u.expects r.node r.cov.expect })
  let s4 := if sealedAt s x then foldLate s3 x ⟨0, p, r.schema, foreign, groupOfRecord standby r⟩
    else joinInput s3 im x ⟨0, p, r.node, standby, false, r⟩
  r.late.foldl (takeGroup p r.schema foreign) s4

/-- The meeting node has p's record of the epoch with the orphan in it (R309). -/
def orphanIn (s : State) (x : Nat) (o : Nat × Nat) : Bool :=
  match lookup (workAt s x).covs o.1 with
  | some c => !c.miss.contains o.2
  | none => false

/-- A resent record whose epoch is sealed is folded as late (R309). -/
def foldResent (s : State) (x p : Nat) (r : Record) : State :=
  let o := parentOf r.cov
  let s1 := foldLate (modWork s x (fun w => { w with senders := w.senders ++ [r.node], orphans := w.orphans ++ [o] })) x
    ⟨0, p, r.schema, false, groupOfRecord true r⟩
  r.late.foldl (takeGroup p r.schema false) (rcInc s1 .sealAdopt)

/-- A resent record (R309): relayed towards the meeting node, dropped as a duplicate, held for the seal or folded as late. -/
def takeResent (s : State) (im : Image) (p : Nat) (r : Record) (data : Bytes) : State :=
  let x := r.epoch
  let o := parentOf r.cov
  if (childIndex im.topo o.1).isNone then
    (match childNode im.topo r.node, uplinkFor s x with
     | some c, some u => if c.standby then queueRec s u 7 x r.gen false data else rcInc s .sealAdoptBad
     | _, _ => rcInc s .sealAdoptBad)
  else if orphanIn s x o || (workAt s x).senders.contains r.node || (workAt s x).resends.any (fun a => a.node == r.node) then rcInc s .sealDupDrop
  else
    let s1 := modTally s (fun t => { t with arrival := histoAdd t.arrival (sinceEnd s x) })
    if sealedAt s x then foldResent s1 x p r
    else modWork s1 x (fun w => { w with resends := w.resends ++ [⟨nextOrd w, p, r.node, false, true, r⟩] })

/-- A checked record is decided (R295, R309, R310). -/
def decideRecord (s : State) (im : Image) (p : Nat) (r : Record) (data : Bytes) : State :=
  if r.resent then takeResent s im p r data
  else match childNode im.topo r.node with
    | none => rcInc s .sealAdoptBad
    | some c =>
      if (workAt s r.epoch).senders.contains r.node then rcInc s .sealDupDrop
      else if sealedAt s r.epoch && showsOrphan (workAt s r.epoch) r then rcInc s .sealAdoptConflict
      else acceptRecord s im p c.standby r

/-- A reassembled record is checked in the order of R295. -/
def checkRecord (s : State) (p : Nat) (tag : Nat) (b : Bytes) : State :=
  if !rcrcOk b then
    (match tagEpoch s tag with
     | some x => askResend (rcInc s .redCrcBad) p x 1
     | none => rcInc s .redCrcBad)
  else match tagEpoch s tag with
    | none => rcInc s .sealStaleDrop
    | some x =>
      if recEpoch b ≠ x then rcInc s .sealTagBad
      else if recGen b ≠ genAt s x then rcInc s .sealGenDrop
      else match imageAt s x with
        | none => s
        | some im =>
          let sc := recSchema b
          if sc ≠ im.schema.schema ∧ (sc ≠ im.schema.prev ∨ im.schema.prev = 0xFFFF) then rcInc s .redSchemaDrop
          else match recordAt (b.take (recLength b)) with
            | none => rcInc s .redFmtBad
            | some r =>
              if byteAt b 4 ≠ 1 || !recordFits im r then rcInc s .redFmtBad
              else if !recordResOk r then askResend (rcInc s .redResBad) p x 1
              else decideRecord s im p r (b.take (recLength b))

/-! The seal -/

/-- A held resend is decided at the seal (R309). -/
def decideHeld (im : Image) (s : State) (x : Nat) (a : Arrival) : State :=
  let o := parentOf a.record.cov
  if orphanIn s x o || (workAt s x).senders.contains a.node then rcInc s .sealDupDrop
  else
    let s1 := joinInput (modWork s x (fun w => { w with senders := w.senders ++ [a.node], orphans := w.orphans ++ [o] })) im x a
    a.record.late.foldl (takeGroup a.port a.record.schema false) (rcInc s1 .sealAdopt)

/-- What the merge of one field counts: inputs of another job (R260). -/
def mergeCounts (s : State) (d : FieldDesc) (sel : Option (Nat × Nat)) (ins : List Input) : State := rcAdd s .redJobgenDrop (jobFilter d sel ins).2

/-- The residue check of R269 on a merged field: a corruption that the recomputation mends, or one that it does not. -/
def recheck (s : State) (fs : List MergeFault) (i : Nat) (f : Field) : State × Field :=
  match fs.find? (fun k => k.field == i) with
  | none => (s, f)
  | some k =>
    if f.sat || (resQuantity f.op f.val).isNone then (s, f)
    else
      let s1 := rcInc s .redRecompute
      if !k.again then (s1, f)
      else
        (raiseFault s1 6 (locWord s1 3 4 (Config.redSlice i).toNat 0 0), poisonField f (min 0xFFFF (f.pcount + f.contrib)))

/-- The fields merged one after another. -/
def mergeAll (sels : List (Option (Nat × Nat))) (l : List (Nat × Nat × List Field)) (fs : List MergeFault) :
    List FieldDesc → Nat → State → State × List Field
  | [], _, s => (s, [])
  | d :: r, i, s =>
    let sel := selOf sels d
    let ins := inputsOf l i
    let a := recheck (mergeCounts s d sel ins) fs i (mergeField d sel ins)
    let b := mergeAll sels l fs r (i + 1) a.1
    (b.1, a.2 :: b.2)

/-! The LATE section (R300, R302) -/

/-- A late group as it is sent: the parts whose fields the schema accepts, merged in SUMMARY form. -/
def closeLate (im : Image) (sels : List (Option (Nat × Nat))) (gen x : Nat) (parts : List GroupIn) : LateGroup :=
  let ins := parts.filterMap (fun g => (mapFields im sels g.schema g.group.fields).map (fun fs => (0, g.port, fs)))
  let fs := ((List.range im.schema.fields.length).zip im.schema.fields).map (fun p =>
    summaryField (mergeField (if p.2.op = 9 then { p.2 with param := 1 } else p.2)
      (if p.2.jobbound then sels.getD p.2.jobsel none else none) (inputsOf ins p.1)))
  { epoch := x, gen := gen, poisoned := parts.any (·.group.poisoned) || fs.any (·.poison), degraded := parts.any (·.group.degraded),
    rebuilding := parts.any (·.group.rebuilding), adopt := parts.any (·.group.adopt),
    leaves := min (2 ^ 21 - 1) (sumOf (parts.map (·.group.leaves))), inputs := min 0xFFFF parts.length, fields := fs }

/-- The groups whose target is `x`, ascending; a part in a schema that the target does not accept is dropped. -/
def takeLates (s : State) (im : Image) (x : Nat) : State × List LateGroup :=
  let due := s.sealing.lates.filter (fun a => decide (a.target ≤ x))
  let es := (due.map (·.x)).eraseDups
  let parts (e : Nat) : List GroupIn := ((due.filter (fun a => a.x == e)).map (·.parts)).flatten
  let fits (e : Nat) : List GroupIn := (parts e).filter (fun g => (mapFields im (selsAt s e) g.schema g.group.fields).isSome)
  let lost := sumOf (es.map (fun e => (parts e).length - (fits e).length))
  let drops (e : Nat) : Nat := sumOf (((List.range im.schema.fields.length).zip im.schema.fields).map (fun p =>
    (jobFilter p.2 (if p.2.jobbound then (selsAt s e).getD p.2.jobsel none else none)
      (inputsOf ((fits e).filterMap (fun g => (mapFields im (selsAt s e) g.schema g.group.fields).map (fun fs => (0, g.port, fs)))) p.1)).2))
  let gs := (es.filter (fun e => !(fits e).isEmpty)).map (fun e => closeLate im (selsAt s e) (genAt s e) e (fits e))
  let s1 := modSeal s (fun u => { u with lates := u.lates.filter (fun a => decide (x < a.target)) })
  (rcAdd (rcAdd s1 .redSchemaDrop lost) .redJobgenDrop (sumOf (es.map drops)), gs.drop (gs.length - 8))

/-! Coverage (R305) -/

/-- A child index is marked as a planned departure for epoch `x` (R593, R597 to R599). -/
def departed (s : State) (x i : Nat) : Bool :=
  s.sealing.departs.any (fun d => d.1 == i && decide (d.2.1 ≤ x) && (match d.2.2 with
    | some c => decide (x < c)
    | none => true))

/-- The node publishes REBUILDING (R589): until a sync has been applied, FRESH decided, or a rebuild is over. -/
def publishesRebuild (s : State) : Bool := decide (2 ≤ roleOf s) && !s.mir.decided && !(s.mir.sync == 5 && s.mir.left == 0)

/-- The higher LOST_NODE word: by height, the lowest ID on a tie; 0xFFFF_FFFF is none. -/
def worseLost (a b : Nat) : Nat :=
  if a = 0xFFFFFFFF then b else if b = 0xFFFFFFFF then a
  else if a / 2 ^ 24 % 16 = b / 2 ^ 24 % 16 then (if a % 2 ^ 24 ≤ b % 2 ^ 24 then a else b)
  else if a / 2 ^ 24 % 16 < b / 2 ^ 24 % 16 then b else a

/-- The coverage block of the record of `x`, with what has been merged. -/
def sealCov (s : State) (im : Image) (w : EpochWork) (fs : List Field) (early : Bool) : Coverage :=
  let kids := (List.range (childrenOf im.topo).length).zip (childrenOf im.topo)
  let expected := kids.filter (fun k => !departed s w.x k.1)
  let got (k : Nat × ChildEnt) : Option Arrival := w.inputs.find? (fun a => a.node == k.2.node && !a.resend && !a.standby)
  let missing := expected.filter (fun k => (got k).isNone)
  let expect := sumOf (expected.map (fun k => match got k with
    | some a => a.record.cov.expect
    | none => lookupD s.sealing.expects k.2.node k.2.leaves))
  let covs := w.inputs.map (·.record.cov)
  let gs := w.groups.map (·.group)
  let leaves := sumOf (covs.map (·.leaves)) + sumOf (gs.map (·.leaves))
  let adopted := sumOf ((w.inputs.filter (fun a => foreignTo im a.record)).map (·.record.cov.leaves)) +
    sumOf ((w.groups.filter (·.foreign)).map (·.group.leaves))
  let rb := publishesRebuild s
  { partialCov := decide (leaves - adopted < expect), degraded := covs.any (·.degraded) || gs.any (·.degraded),
    poisoned := fs.any (·.poison) || covs.any (·.poisoned) || gs.any (·.poisoned),
    rebuilding := rb || covs.any (·.rebuilding) || gs.any (·.rebuilding),
    adopt := decide (adopted ≠ 0) || w.inputs.any (fun a => a.resend || a.standby), early := early,
    nchild := expected.length, nmiss := missing.length, leaves := min (2 ^ 21 - 1) leaves, expect := min (2 ^ 21 - 1) expect,
    adopted := min (2 ^ 21 - 1) adopted, parent := parentWord im,
    missNodes := min 0xFFFF (missing.length + sumOf (covs.map (·.missNodes))),
    rebuildNodes := min 0xFFFF (flag rb + sumOf (covs.map (·.rebuildNodes))),
    lostNode := (missing.map (fun (k : Nat × ChildEnt) => k.2.node + (im.node.h - 1) * 2 ^ 24) ++ covs.map (fun (c : Coverage) => c.lostNode)).foldl worseLost 0xFFFFFFFF,
    depart := (kids.filter (fun k => departed s w.x k.1)).length, miss := missing.map (·.1) }

/-! SELF and INFRA (R249, R250) -/

/-- One node's SELF as an INFRA of one. -/
def infraOfSelf (x : SelfSec) : InfraSec := ⟨1, x.vmask, x.ue, x.ce, x.lnkErr, [⟨x.worstCode, x.worstFeat, x.node⟩]⟩

def infraKey (t : InfraTop) : Nat := (65535 - t.code) * 2 ^ 32 + t.node

/-- Two INFRA sections merged. -/
def infraAdd (a b : InfraSec) : InfraSec :=
  ⟨satAdd 32 a.nodes b.nodes, a.vmask ||| b.vmask, satAdd 64 a.ue b.ue, satAdd 64 a.ce b.ce, satAdd 64 a.lnkErr b.lnkErr,
   (sortBy infraKey ((a.top ++ b.top).filter (fun t => t.code != 0xFFFF))).take 4⟩

/-- INFRA of the records merged, none where none holds a section. -/
def infraOf (rs : List Record) : Option InfraSec :=
  let parts := (rs.map (fun r => (r.self.map infraOfSelf).toList ++ r.infra.toList)).flatten
  if parts.isEmpty then none else some (parts.foldl infraAdd ⟨0, 0, 0, 0, 0, []⟩)

/-- WORST_CODE and WORST_FEAT over the self-health features of a vector. -/
def worstCode (fd : List FeatDesc) (v : Option Vec) : Nat × Nat :=
  match v with
  | none => (0xFFFF, 0xFFFF)
  | some v =>
    (((List.range fd.length).zip fd).filter (fun p => p.2.selfHealth && codeOf v p.1 != 0xFFFF)).foldl
      (fun a p => if a.1 = 0xFFFF ∨ a.1 < codeOf v p.1 then (codeOf v p.1, p.1) else a) (0xFFFF, 0xFFFF)

/-- The node's own SELF section for its record of `x`. -/
def selfOf (s : State) (im : Image) (x : Nat) : Option SelfSec :=
  if !healthEn im then none
  else
    let w := worstCode im.feature.feats s.feat.latest
    let sum (f : Sample → List Nat) : Nat := min 0xFFFFFFFF (((sampleOf s x).map (fun p => sumOf (f p))).getD 0)
    some { node := im.nodeId, worstCode := w.1, worstFeat := w.2, ue := sum (fun p => p.memStacks.map (·.2.ue)), ce := sum (fun p => p.memStacks.map (·.2.ce)),
           lnkErr := sum (fun p => p.links.map (·.2.1)), vmask := lookupD s.vrd.vmask x 0 }

/-! The record -/

/-- Loss blocks added, field by field. -/
def lossAdd (a b : List Nat) : List Nat := (a.zip b).map (fun p => add32 p.1 p.2)

/-- The merged record of an epoch, in FULL form, without its SELF section. -/
def sealRecord (s : State) (im : Image) (w : EpochWork) (fs : List Field) (gs : List LateGroup) (early : Bool) : Record :=
  let rs := w.inputs.map (·.record)
  let smp := sampleOf s w.x
  { schema := im.schema.schema, gen := genAt s w.x, summary := false, join := rs.any (·.join) || (smp.map (·.join)).getD false || s.pnl.rejoin == some w.x,
    timeStep := rs.any (·.timeStep) || (smp.map (·.tstep)).getD false, restart := rs.any (·.restart) || (smp.map (·.restart)).getD false,
    resent := false, epoch := w.x, node := im.nodeId, h := im.node.h,
    beginAt := (smp.map (·.beginAt)).getD (edgeStamp s.time.grid w.x), endAt := (smp.map (·.endAt)).getD (edgeStamp s.time.grid (w.x + 1)),
    cov := sealCov s im w fs early,
    loss := (rs.map (·.loss)).foldl lossAdd ((smp.map (·.loss)).getD (List.replicate 8 0)), self := none, infra := infraOf rs, fields := fs, late := gs }

/-- The node has departed and forms no record of `x` (R593), from e_D until the rejoin epoch of a departure that was cancelled (R596). -/
def silentFor (s : State) (x : Nat) : Bool :=
  if 2 ≤ s.pnl.dep then decide (s.pnl.eD ≤ x)
  else match s.pnl.rejoin with
    | some r => s.pnl.dep == 0 && decide (s.pnl.eD ≤ x) && decide (x < r)
    | none => false

/-- Epoch `x` is sealed: resends decided, fields merged, LATE section and coverage formed (R290, R293). -/
def sealEpoch (s : State) (x : Nat) (early : Bool) (fs : List MergeFault) : State :=
  match imageAt s x with
  | none => s
  | some im =>
    let s1 := modWork (touch s 5) x (fun w => { w with isSealed := true, sealIn := s.time.grid.epoch })
    let held := sortBy (fun a => a.port) (workAt s1 x).resends
    let s2 := held.foldl (fun t a => decideHeld im t x a) s1
    let sels := selsAt s2 x
    let w := workAt s2 x
    let m := mergeAll sels (sealInputs im sels w) fs im.schema.fields 0 s2
    let l := takeLates m.1 im x
    let r := sealRecord l.1 im w m.2 l.2 early
    let s3 := modSeal l.1 (fun u => { u with top := some x })
    if silentFor s3 x then s3 else modSeal s3 (fun u => { u with ready := u.ready ++ [(r, m.2)] })

/-! When a node seals (R290 to R294) -/

/-- The lowest opened epoch that is not sealed. -/
def lowestOpen (s : State) : Option EpochWork := s.sealing.works.find? (fun w => w.opened && !w.isSealed)

/-- The three conditions of an early seal (R293). -/
def earlyReady (s : State) (w : EpochWork) : Bool :=
  match imageAt s w.x with
  | none => false
  | some im =>
    let kids := (List.range (childrenOf im.topo).length).zip (childrenOf im.topo)
    (rwGet s .sealCfg).testBit 0 && w.resends.isEmpty &&
    (kids.filter (fun k => !departed s w.x k.1)).all (fun k => w.inputs.any (fun a => a.node == k.2.node)) &&
    ((standbyOf im.topo).filter (fun c => (portAt s c.port).peerUse)).all (fun c => w.inputs.any (fun a => a.node == c.node))

/-- Early seals, in ascending order of epoch, as long as the lowest open epoch allows one. -/
def sealEarly : Nat → State → State
  | 0, s => s
  | n + 1, s =>
    match lowestOpen s with
    | some w => if earlyReady s w && !quiet s then sealEarly n (sealEpoch s w.x true []) else s
    | none => s

/-- What may complete the conditions of R293 has happened. -/
def sealNow (s : State) : State := sealEarly 16 s

/-- The seal deadline of epoch `x` on TB0 in units of 2^-10 ns. -/
def sealDeadline (s : State) (x : Nat) : Int :=
  edgeTick s.time.grid (x + 1) + (((rwFor s x .sealDue + rwFor s x .sealWin) * 1024 : Nat) : Int)

/-- SEAL: the lowest open epoch that has ended reaches its deadline (R290, R292). -/
def sealCmd (s : State) (fs : List MergeFault) : State :=
  match lowestOpen s with
  | some w =>
    if quiet s || decide (s.time.grid.epoch ≤ w.x) then s
    else sealNow (sealEpoch (advanceTick s (sealDeadline s w.x)) w.x false fs)
  | none => s

/-- Epochs whose seal cycle has come are sealed before what completes in it or later is taken (R292, R297). -/
def sealDue : Nat → State → State
  | 0, s => s
  | n + 1, s =>
    match lowestOpen s with
    | some w => if decide (w.x < s.time.grid.epoch) && decide (sealDeadline s w.x ≤ (tb0Tick s : Int)) then sealDue n (sealEpoch s w.x false []) else s
    | none => s

/-- RECORD_RECEIVE: the oldest record reassembled on a port that is no buddy's is taken (R295). -/
def recordReceive (s : State) (p : Nat) : State :=
  match (portAt s p).rxUp with
  | r :: rest =>
    if quiet s || kindOfPort s p == 4 then s
    else
      let s1 := freeCells (modPort s p (fun k => { k with rxUp := rest })) p r.cells
      sealNow (checkRecord (touch (sealDue 16 s1) 4) p r.tag r.data)
  | [] => s

/-- Held child records are released two epochs after the seal (R299); SEAL's release of `x` for R136. -/
def releaseChildren (s : State) : State :=
  modSeal s (fun u => { u with works := u.works.map (fun w =>
    if w.isSealed ∧ w.sealIn + 2 ≤ s.time.grid.epoch then { w with inputs := [], resends := [], groups := [], released := true } else w) })

/-- What waits for an epoch that is never opened: its records and groups are folded as late, its held resends decided as late ones (R294, R309, R310). -/
def foldSkipped (s : State) (w : EpochWork) : State :=
  let foreign (r : Record) : Bool := (imageAt s w.x).any (fun im => foreignTo im r)
  let ins := sortBy (fun g => g.ord) (w.inputs.map (fun a =>
    (⟨a.ord, a.port, a.record.schema, foreign a.record, groupOfRecord (a.standby || a.resend) a.record⟩ : GroupIn)) ++ w.groups)
  let s1 := ins.foldl (fun t g => foldLate t w.x g) (modWork s w.x (fun v => { v with inputs := [], resends := [], groups := [] }))
  (sortBy (fun a => a.port) w.resends).foldl (fun t a =>
    if orphanIn t w.x (parentOf a.record.cov) || (workAt t w.x).senders.contains a.node then rcInc t .sealDupDrop else foldResent t w.x a.port a.record) s1

/-- At the edge that begins `x`: its work opens in a merging node; what a skipped epoch holds is folded late, and coverage of more than ten epochs
before is let go (R294, R299). -/
def openWork (s : State) (x : Nat) : State :=
  if roleOf s < 2 then s
  else
    let skipped := s.sealing.works.filter (fun w => !w.opened && decide (w.x < x) && !(w.inputs.isEmpty && w.resends.isEmpty && w.groups.isEmpty))
    let s1 := modWork s x (fun w => { w with opened := true })
    let s2 := skipped.foldl foldSkipped s1
    sealNow (modSeal s2 (fun u => { u with works := u.works.filter (fun w => decide (x ≤ w.x + 10) || (w.opened && !w.isSealed)) }))

end Sys2Proof.Machine
end

