-- ==== Sys2Proof/Machine/Snap.lean ====
section
/-!
DEFINITION. The merged record's readiness (R243, R249, R271), the Dome's snapshots (R311 to R316), and DOWN records (R276 to R280, R466, R467).
-/
namespace Sys2Proof.Machine

/-! Snapshots -/

/-- SLOTS and the bytes of a slot. -/
def snapRing (s : State) : Nat × Nat :=
  let c := rwGet s .snapCfg
  (c / 65536 % 4096, c % 2048 * 1024)

/-- A selector laid out as RED_JOBSELn. -/
def selWord (p : Option (Nat × Nat)) : Nat :=
  match p with
  | some (j, g) => 2 ^ 31 + g % 256 * 65536 + j % 65536
  | none => 0

/-- The snapshot slot with SEQ 0 (R312, R313). -/
def snapSlot (s : State) (r : Record) : Bytes :=
  let body := recordRaw toLe r
  let t := tb0Stamp s
  let head (crc : Nat) : Bytes :=
    toLe 8 r.epoch ++ toLe 2 r.gen ++ toLe 2 r.schema ++ toLe 4 body.length ++ stampBytes toLe t ++ toLe 2 (flag s.sealing.skipped) ++
    ((selsAt s r.epoch).map (fun p => toLe 4 (selWord p))).flatten ++ toLe 4 crc ++ toLe 8 (s.sealing.prevEp.getD (2 ^ 64 - 1))
  zeros 8 ++ head (crc32c (head 0 ++ body)) ++ body

/-- The oldest snapshot that waits starts its write: SEQ = 0 (R314). -/
def snapStart (s : State) : State :=
  match s.sealing.writes with
  | w :: _ =>
    if (mmJobOf s .snapZero).isSome || (mmJobOf s .snapBody).isSome || (mmJobOf s .snapSeq).isSome then s
    else mmPump (mmWriteJob s .snapZero 1 3 w.addr (zeros 8))
  | [] => s

/-- A snapshot that cannot be committed (R315). -/
def snapSkip (s : State) : State := rcInc (modSeal s (fun u => { u with skipped := true })) .sealSnapSkip

/-- The Dome commits its record (R311, R315). -/
def snapCommit (s : State) (r : Record) : State :=
  let n := s.sealing.snapNext + 1
  let g := snapRing s
  let len := (recordRaw toLe r).length
  let ack := rwGet s (.snapAck false) + rwGet s (.snapAck true) * 2 ^ 32
  let flow := (rwGet s .snapCfg).testBit 31
  if g.1 = 0 ∨ g.2 < len + 64 ∨ (flow ∧ g.1 < n - ack) then snapSkip s
  else
    let w : SnapWrite := ⟨n, pairBase s .snapBase + (n - 1) % g.1 * g.2, snapSlot s r⟩
    snapStart (modSeal s (fun u => { u with snapNext := n, skipped := false, prevEp := some r.epoch, writes := u.writes ++ [w] }))

/-- A stage of the slot's write has its completions (R314); an error ends the write, and its slot keeps SEQ 0. -/
def snapStage (s : State) (stage err : Nat) : State :=
  match s.sealing.writes with
  | [] => s
  | w :: rest =>
    if err ≠ 0 then snapStart (snapSkip (modSeal s (fun u => { u with writes := rest })))
    else if stage = 0 then mmPump (mmWriteJob s .snapBody 1 3 (w.addr + 8) (w.data.drop 8))
    else if stage = 1 then mmPump (mmWriteJob s .snapSeq 1 3 w.addr (toLe 8 w.seq))
    else
      let s1 := modSeal s (fun u => { u with writes := rest, snapSeq := w.seq })
      snapStart { s1 with boot := { s1.boot with snapSince := true } }

/-! DOWN records -/

/-- The DOWN record of a snapshot's epoch, from the Dome's merged fields (R276). -/
def downOf (im : Image) (r : Record) (fs : List Field) : DownRec :=
  { schema := r.schema, gen := r.gen, epoch := r.epoch, node := r.node, h := r.h, beginAt := r.beginAt, endAt := r.endAt, cov := r.cov,
    lateSec := !r.late.isEmpty, ents := im.schema.downs.map (downEntry fs) }

/-- A DOWN record waits on every downlink (R276, R279). -/
def sendDown (s : State) (x gen : Nat) (data : Bytes) : State := (downlinks (topoOf s)).foldl (fun t p => queueRec t p 5 x gen true data) s

/-- A node accepts the DOWN record of an epoch once (R279). -/
def keepDown (s : State) (d : DownRec) : State := modRed s (fun u => { u with downs := (d :: u.downs).take 16 })

/-- DOWN_RECEIVE: the oldest DOWN record reassembled on an uplink is checked, accepted once, and forwarded (R246, R279, R295). -/
def downReceiveOp (s : State) (p : Nat) : State :=
  match (portAt s p).rxDown with
  | [] => s
  | r :: rest =>
    if quiet s then s
    else
      let s1 := freeCells (modPort s p (fun k => { k with rxDown := rest })) p r.cells
      let b := r.data
      match tagEpoch s1 r.tag with
      | none => rcInc s1 (if rcrcOk b then .sealStaleDrop else .redCrcBad)
      | some x =>
        if !rcrcOk b then askResend (rcInc s1 .redCrcBad) p x 2
        else if recEpoch b ≠ x then rcInc s1 .sealTagBad
        else if recGen b ≠ genAt s1 x then rcInc s1 .sealGenDrop
        else if byteAt b 4 ≠ 2 ∨ recLength b < 128 + 64 * beAt b 0x14 2 then rcInc s1 .redFmtBad
        else if s1.red.downs.any (fun d => d.epoch == x) then s1
        else
          let data := b.take (recLength b)
          let s2 := keepDown s1 (downAt data)
          if roleOf s = 1 then s2 else sendDown s2 x (recGen b) data

/-- The instant END(x) + W of R466, W the seal window or 4 µs in a Newt, in units of 2^-10 ns. -/
def downWait (s : State) (x : Nat) : Int :=
  edgeTick s.time.grid (x + 1) + (((if roleOf s = 1 then 4000 else rwFor s x .sealWin) * 1024 : Nat) : Int)

/-- The image has peer detectors, which need the DOWN record of R280. -/
def needsDown (im : Image) : Bool := im.detect.dets.any (fun d => d.kind == 3 || (d.kind == 4 && im.role != 3))

/-- DOWN_MISSING_TIMEOUT: the oldest ended epoch whose instant is still to come, or else the latest, has its DOWN record asked for where it is
missing (R280, R466). -/
def downMissing (s : State) : State :=
  if !gridRuns s || mmQuiet s || s.time.grid.epoch == 0 || roleOf s == 3 || !s.img.active.any needsDown then s
  else
    let ec := s.time.grid.epoch
    let past := (List.range (min 8 ec)).map (fun i => ec - min 8 ec + i)
    let x := ((past.filter (fun x => s.red.downs.all (fun d => d.epoch != x))).find? (fun x => decide ((tb0Tick s : Int) ≤ downWait s x))).getD (ec - 1)
    let s1 := advanceTick s (downWait s x)
    if s1.red.downs.any (fun d => d.epoch == x) then s1
    else match activeUplink s1 with
      | some p => askResend s1 p x 2
      | none => s1

/-! MERGED_RECORD_READY -/

/-- The node's epoch sample enters FEAT once its record is ready (R224, R325). -/
def queueSample (s : State) (x : Nat) : State :=
  if (sampleOf s x).isSome then { s with feat := { s.feat with queue := s.feat.queue ++ [.epoch x] } } else s

/-- A merged record is ready (R271, R276, R311). -/
def mergedReady (s : State) : State :=
  match s.sealing.ready with
  | [] => s
  | (r, fs) :: rest =>
    if quiet s then s
    else
      let s1 := modSeal s (fun u => { u with ready := rest, merged := ((r.epoch, fs) :: u.merged).take 9 })
      match imageAt s1 r.epoch with
      | none => s1
      | some im =>
        let full := { r with self := selfOf s1 im r.epoch }
        let o := ownReady s1 im full
        let s2 := queueSample o.1 r.epoch
        if im.role ≠ 3 then s2
        else
          let d := downOf im full fs
          sendDown (keepDown (snapCommit s2 o.2) d) r.epoch r.gen (downBytes d)

end Sys2Proof.Machine
end

