-- ==== Sys2Proof/Machine/Verdict.lean ====
section
/-!
DEFINITION. VRD: detectors (R426 to R436), the verdict record (R437), the queue (R439 to R445), budgets and holds (R448 to R451), votes (R452), and the
verdict ring (R446, R447).
-/
namespace Sys2Proof.Machine

def modVrd (s : State) (f : VrdU → VrdU) : State := { s with vrd := f s.vrd }

/-- DETECT of the active image. -/
def detSec (s : State) : DetectSec := (s.img.active.map (·.detect)).getD ⟨0, false, 0, 255, 0, 0, 0, 0, 0, 0, []⟩

/-! The verdict record (R437) -/

def verdictFlags (v : Verdict) : Nat := flag v.quorum + 2 * flag v.isOver + 4 * flag v.part + 8 * flag v.rebuilt

/-- The 96 bytes, most significant byte first on a link and least significant first in host memory. -/
def verdictBytes (p : Put) (v : Verdict) : Bytes :=
  p 4 v.vseq ++ p 1 v.cls ++ p 1 v.orig ++ p 1 v.reason ++ p 1 (verdictFlags v) ++ p 8 v.epoch ++ p 4 v.subject ++ p 4 v.issuer ++ p 2 v.gen ++
  p 2 v.det ++ p 1 v.dkind ++ p 1 v.hits ++ p 2 v.count ++ p 8 v.score ++ p 8 v.limit ++ p 2 v.job ++ p 1 v.jgen ++ zeros 1 ++ p 4 v.step ++
  p 8 v.value ++ p 8 v.ref ++ p 4 v.decider ++ zeros 4 ++ ((v.ovf ++ List.replicate (4 - v.ovf.length) 0).map (p 4)).flatten

def verdictAt (b : Bytes) (o : Nat) : Verdict :=
  let f := byteAt b (o + 7)
  { vseq := beAt b o 4, cls := byteAt b (o + 4), orig := byteAt b (o + 5), reason := byteAt b (o + 6), quorum := f.testBit 0, isOver := f.testBit 1,
    part := f.testBit 2, rebuilt := f.testBit 3, epoch := beAt b (o + 8) 8 % 2 ^ 48, subject := beAt b (o + 16) 4, issuer := beAt b (o + 20) 4,
    gen := beAt b (o + 24) 2, det := beAt b (o + 26) 2, dkind := byteAt b (o + 28), hits := byteAt b (o + 29), count := beAt b (o + 30) 2,
    score := beAt b (o + 32) 8, limit := beAt b (o + 40) 8, job := beAt b (o + 48) 2, jgen := byteAt b (o + 50), step := beAt b (o + 52) 4,
    value := beAt b (o + 56) 8, ref := beAt b (o + 64) 8, decider := beAt b (o + 72) 4,
    ovf := if f.testBit 1 then ((List.range 4).map (fun i => beAt b (o + 80 + 4 * i) 4)).filter (fun x => x != 0) else [] }

/-- SUBJECT words: a leaf, a node. -/
def leafSubject (n : Nat) : Nat := 2 ^ 28 + n % 2 ^ 20
def nodeSubject (n : Nat) : Nat := 2 * 2 ^ 28 + n % 2 ^ 24

/-! Budgets (R448, R451) -/

def spCost (s : State) : Nat := rwEff s .vrdSpBucket % 2 ^ 17 * 10 ^ 9
def spCap (s : State) : Nat := rwEff s .vrdSpBucket / 2 ^ 24 % 32 * spCost s
def domeCost (s : State) : Nat := 3600000000000 * 100000 / (rwEff s .vrdDomeBudget % 2 ^ 14 * (detSec s).fleetLeaves)
def domeCap (s : State) : Nat := rwEff s .vrdDomeBudget / 65536 % 1024 * domeCost s

/-- The costs that VRD_SP_LEVEL and VRD_DOME_LEVEL count tokens in: those in force, or without an image the last ones (R101). -/
def spUnitNow (s : State) : Nat := if hasImage s then spCost s else s.vrd.spUnit
def domeUnitNow (s : State) : Nat := if hasImage s then domeCost s else s.vrd.domeUnit

/-- Levels as TB2 has filled them; a level kept across a warm reset stands until an image gives its budget again (R451). -/
def spLevelNow (s : State) : Nat := if hasImage s then min (spCap s) (s.vrd.spLevel + (tb2Ns s - s.vrd.spAt)) else s.vrd.spLevel
def domeLevelNow (s : State) : Nat := if hasImage s then min (domeCap s) (s.vrd.domeLevel + (tb2Ns s - s.vrd.domeAt)) else s.vrd.domeLevel

/-- Levels brought up to date (R448), also where the budgets change (R451). -/
def settleBudgets (s : State) : State :=
  modVrd s (fun u => { u with spLevel := spLevelNow s, spAt := tb2Ns s, domeLevel := domeLevelNow s, domeAt := tb2Ns s })

/-- A verdict is held (R449). -/
def holdWith (s : State) (v : Verdict) (reason : Nat) : State × Verdict :=
  (rcInc s .vrdHeld, { v with cls := 6, reason := reason, decider := nodeId s })

/-- The bucket's decision of an EXPEL (R448): the Spire's, or the Dome's. -/
def spend (s0 : State) (v : Verdict) : State × Verdict :=
  let s := settleBudgets s0
  if roleOf s = 3 then
    (if s.vrd.domeLevel < domeCost s then holdWith s v 2
     else (rcInc (modVrd s (fun u => { u with domeLevel := u.domeLevel - domeCost s })) .vrdExpel, { v with decider := nodeId s }))
  else if s.vrd.spLevel < spCost s then holdWith s v 1
  else (rcInc (modVrd s (fun u => { u with spLevel := u.spLevel - spCost s })) .vrdExpel, { v with decider := nodeId s })

/-! Votes (R452) -/

/-- YES votes that win among S members and the proposer. -/
def votesNeeded (members : Nat) : Nat := (members + 1) / 2 + 1

/-- A vote opens: PROPOSE to every buddy; with no buddy the proposer's own vote wins at once. The answer is the vote's number, none where it
is already won. -/
def openVote (s : State) (v : Verdict) : State × Option Nat :=
  let ps := buddyPorts (topoOf s)
  let vid := (s.vrd.vid + 1) % 2 ^ 32
  let s1 := modVrd s (fun u => { u with vid := vid })
  if ps.isEmpty then (rcInc s1 .vrdVoteWon, none)
  else
    let peers := ps.filterMap (fun p => (entOfPort s p).map (·.peer))
    let s2 := queueAll s1 ps 3 0 tyPropose (toBe 4 vid ++ zeros 4 ++ verdictBytes toBe v)
    (modVrd s2 (fun u => { u with votes := u.votes ++ [⟨vid, 1, [], peers, tb0Ns s + rwEff s .vrdVoteWait * 1000⟩] }), some vid)

/-! Holds by departure (R448, R450, R594) -/

/-- A field of the record names the leaf. -/
def namesLeaf (leaf : Nat) (f : Field) : Bool :=
  match f.val with
  | .topk _ _ es => es.any (fun e => e.leaf == leaf)
  | .leafset es => es.any (fun e => e.1 == leaf)
  | _ => false

/-- The children whose held records name the leaf: it lies in their subtrees. -/
def carriersOf (s : State) (leaf : Nat) : List Nat :=
  s.sealing.works.flatMap (fun w => (w.inputs.filter (fun a => !a.standby && a.record.fields.any (namesLeaf leaf))).map (·.node))

/-- The subject lies under a child that is marked as a planned departure now, or in the subtree of this departing Spire: the child is the subject itself,
or sent the verdict, or sent a record that names the leaf (log entry 148). -/
def underDeparture (s : State) (v : Verdict) (port : Option Nat) : Bool :=
  let t := topoOf s
  let byPort := (port.bind (childOnPort t)).bind (fun c => childIndex t c.node)
  let bySubject := if v.subject / 2 ^ 28 = 1 then childIndex t (v.subject % 2 ^ 20) else childIndex t (v.subject % 2 ^ 24)
  let marked (o : Option Nat) : Bool := (match o with
    | some i => departed s (epochNow s) i
    | none => false)
  let below := v.subject / 2 ^ 28 = 1 && (carriersOf s (v.subject % 2 ^ 20)).any (fun n => marked (childIndex t n))
  marked byPort || marked bySubject || below || (roleOf s == 2 && decide (s.pnl.dep ≠ 0))

/-! The queue (R439 to R442) -/

/-- Entries, of which so many are reserved for EXPEL (R439). -/
def queueSize (s : State) : Nat := Config.byClass s.integ 128 2048
def queueReserve (s : State) : Nat := Config.byClass s.integ 8 512

def sameVerdict (a b : Verdict) : Bool := a.subject == b.subject && a.det == b.det && a.issuer == b.issuer && a.cls == b.cls

/-- `b` merged into `a` (R440). -/
def mergeVerdict (a b : Verdict) : Verdict :=
  { a with count := satAdd 16 a.count b.count, epoch := b.epoch, score := b.score, value := b.value, hits := b.hits }

/-- The queue's order of classes (R442): EXPEL first. -/
def classRank (c : Nat) : Nat := if c = 5 then 0 else if c = 6 then 1 else if c = 3 then 2 else if c = 4 then 3 else if c = 2 then 4 else 5

/-- An overflow entry takes a verdict (R441). -/
def toOverflow (s : State) (v : Verdict) : State :=
  let add (e : VEntry) : VEntry :=
    let m := mergeVerdict e.v v
    { e with v := { m with ovf := if m.ovf.length < 4 then m.ovf ++ [v.subject] else m.ovf } }
  let fresh : VEntry := ⟨{ v with subject := 0xF0000000, isOver := true, ovf := [v.subject] }, tb0Ns s, none, false, true, none⟩
  modVrd s (fun u => { u with
    overflow := true,
    isOver := if u.isOver.any (fun e => e.v.cls == v.cls) then u.isOver.map (fun e => if e.v.cls = v.cls then add e else e) else u.isOver ++ [fresh] })

/-- The index of the newest entry of a class. -/
def newestOf (q : List VEntry) (c : Nat) : Option Nat :=
  (((List.range q.length).zip q).filter (fun p => p.2.v.cls == c)).getLast?.map (·.1)

/-- An entry takes its place in the queue (R439, R441). -/
def placeVerdict (s : State) (e : VEntry) : State :=
  let q := s.vrd.queue
  let general := queueSize s - queueReserve s
  let put (t : State) (r : Bool) : State := modVrd t (fun u => { u with queue := u.queue ++ [{ e with reserved := r }] })
  if (q.filter (fun x => !x.reserved)).length < general then put s false
  else if e.v.cls = 5 then (if (q.filter (·.reserved)).length < queueReserve s then put s true else rcInc s .vrdVqDrop)
  else if e.v.cls ≤ 2 then rcInc s .vrdVqDrop
  else match (newestOf q 1).orElse (fun _ => newestOf q 2) with
    | some i => put (rcInc (modVrd s (fun u => { u with queue := u.queue.eraseIdx i })) .vrdVqDrop) false
    | none => toOverflow s e.v

/-- A decided verdict merges with its entry, or takes a place. -/
def joinQueue (s : State) (e : VEntry) : State :=
  if s.vrd.queue.any (fun x => sameVerdict x.v e.v) then
    modVrd s (fun u => { u with queue := u.queue.map (fun x => if sameVerdict x.v e.v then { x with v := mergeVerdict x.v e.v } else x) })
  else placeVerdict s e

/-- A verdict enters the queue (R440, R448, R450). -/
def enterVerdict (s0 : State) (v : Verdict) (port : Option Nat) : State :=
  let s := touch s0 6
  let plain (t : State) (x : Verdict) : State := joinQueue t ⟨x, tb0Ns t, port, false, true, none⟩
  if s.vrd.queue.any (fun x => sameVerdict x.v v) then plain s v
  else if roleOf s < 2 ∨ v.cls < 3 ∨ v.cls = 6 then plain s v
  else if underDeparture s v port then let h := holdWith s v 3; plain h.1 h.2
  else if v.cls ≠ 5 then plain s v
  else if publishesRebuild s then let h := holdWith s v 4; plain h.1 h.2
  else if (detSec s).quorum && roleOf s == 2 && !v.quorum then
    (if 16 ≤ s.vrd.votes.length then joinQueue s ⟨v, tb0Ns s, port, false, false, none⟩
     else
       let o := openVote s v
       match o.2 with
       | some vid => joinQueue o.1 ⟨v, tb0Ns s, port, false, false, some vid⟩
       | none => let h := spend o.1 { v with quorum := true }; plain h.1 h.2)
  else let h := spend s v; plain h.1 h.2

/-- EXPEL verdicts that wait undecided open their votes as places become free (R452). -/
def nextVotes : Nat → State → State
  | 0, s => s
  | n + 1, s =>
    if 16 ≤ s.vrd.votes.length then s
    else match findIdx (fun e => !e.ready && e.voting.isNone) s.vrd.queue with
      | none => s
      | some i =>
        match s.vrd.queue[i]? with
        | none => s
        | some e =>
          let o := openVote s e.v
          let set (t : State) (x : VEntry) : State := modVrd t (fun u => { u with queue := u.queue.set i x })
          nextVotes n (match o.2 with
            | some vid => set o.1 { e with voting := some vid }
            | none => let h := spend o.1 { e.v with quorum := true }; set h.1 { e with v := h.2, ready := true })

/-- A vote closes (R452): won, it continues with the Spire's bucket; lost, its verdict is held. -/
def closeVote (s : State) (vid : Nat) (won : Bool) : State :=
  let s1 := rcInc (modVrd s (fun u => { u with votes := u.votes.filter (fun k => k.vid != vid) })) (if won then .vrdVoteWon else .vrdVoteLost)
  match findIdx (fun e => e.voting == some vid) s1.vrd.queue with
  | none => nextVotes 16 s1
  | some i =>
    match s1.vrd.queue[i]? with
    | none => s1
    | some e =>
      let h := if won then spend s1 { e.v with quorum := true } else holdWith s1 e.v 5
      nextVotes 16 (modVrd h.1 (fun u => { u with queue := u.queue.set i { e with v := h.2, ready := true, voting := none } }))

/-! Raising (R436 to R438) -/

/-- What a raise says. -/
structure Raise where
  subject : Nat
  hits    : Nat
  score   : Nat
  limit   : Nat
  value   : Nat
  job     : Nat
  jgen    : Nat
  step    : Nat
  ref     : Nat
deriving DecidableEq, Repr

def detNone : Det := ⟨0, 0, 0, 0, 0, 0, none, 0, [], 0, 0, [], [], 0⟩

def detAt (s : State) (i : Nat) : Det := s.vrd.dets.getD i detNone

def modDet (s : State) (i : Nat) (f : Det → Det) : State := modVrd s (fun u => { u with dets := u.dets.modify i f })

/-- The record of the epoch carried PARTIAL or DEGRADED. -/
def partialEvidence (s : State) (e : Nat) : Bool :=
  match s.red.own.find? (fun r => r.epoch == e) with
  | some r => r.cov.partialCov || r.cov.degraded
  | none => false

/-- The feature of a detector's source. -/
def detFeat (im : Image) (d : DetEnt) : Option FeatDesc := if d.kind ≤ 3 then im.feature.feats[d.src % 65536]? else none

/-- A self-health verdict's class bit in the SELF section for its epoch (R438), in a record that has been formed and has not left too. -/
def noteHealth (s : State) (e bit : Nat) : State :=
  let mark (r : Record) : Record := if r.epoch = e then { r with self := r.self.map (fun x => { x with vmask := x.vmask ||| bit }) } else r
  let s1 := modVrd s (fun u => { u with vmask := (modKey u.vmask e 0 (fun m => m ||| bit)).drop (u.vmask.length - 16) })
  modRed s1 (fun u => { u with unsent := u.unsent.map mark, own := u.own.map mark })

/-- A verdict is produced: VSEQ, VMASK, the node's own ring outside the Dome, and the queue. -/
def produce (s : State) (im : Image) (e det dkind cls : Nat) (health : Bool) (r : Raise) : State :=
  let seq := (s.vrd.seq + 1) % 2 ^ 32
  let v : Verdict :=
    { vseq := seq, cls := cls, orig := cls, reason := 0, quorum := false, isOver := false, part := partialEvidence s e, rebuilt := publishesRebuild s,
      epoch := e, subject := r.subject, issuer := im.nodeId + im.node.h * 2 ^ 24, gen := genAt s e, det := det, dkind := dkind, hits := r.hits,
      count := 1, score := r.score, limit := r.limit, job := r.job, jgen := r.jgen, step := r.step, value := r.value, ref := r.ref,
      decider := 0xFFFFFFFF, ovf := [] }
  let s1 := rcInc (modVrd s (fun u => { u with seq := seq })) .vrdRaised
  let s2 := if health then noteHealth s1 e (2 ^ (cls - 1)) else s1
  let s3 := if im.role ≠ 3 ∧ rwGet s .vrdRingCfg % 8192 ≠ 0 then modVrd s2 (fun u => { u with ringQ := u.ringQ ++ [v] }) else s2
  enterVerdict s3 v none

/-- A raise by entry `i` (R436). -/
def raiseVerdict (im : Image) (e i : Nat) (d : DetEnt) (s : State) (r : Raise) : State :=
  let last := (match lookup (detAt s i).raised r.subject with
    | some x => decide (e < x + d.holdoff)
    | none => false)
  if rwFor s e (.detMute i) ≠ 0 || last then rcInc s .vrdSuppressed
  else
    let s1 := modDet s i (fun k => { k with raised := setKey k.raised r.subject e })
    produce s1 im e i d.kind d.cls (((detFeat im d).map (·.selfHealth)).getD false) r

/-! Detectors -/

/-- H in force (R456). -/
def detLimit (s : State) (e i : Nat) : Nat := rwFor s e (.detH i)

/-- The node or leaf that a node's own detectors judge (R426). -/
def selfSubject (im : Image) : Nat := if im.role = 1 then leafSubject im.nodeId else nodeSubject im.nodeId

/-- One test of a baseline entry (R429): its new state and its scores. -/
def baselineTest (d : DetEnt) (h warmup : Nat) (k : Det) (code : Nat) : Det × List Nat :=
  let x := fofNat f64 code
  if k.w = 0 then ({ k with m := x, v := 0, sp := 0, sn := 0, u := 0, w := 1 }, [])
  else
    let z := fdiv f64 (fsub f64 x k.m) (fsqrt f64 (fmax f64 k.v fone))
    let up := d.side.testBit 0
    let down := d.side.testBit 1
    let t : Det × List Nat :=
      if k.w ≤ (k.warmup.getD warmup) then (k, [])
      else if d.kind = 1 then
        let sp := fmax f64 0 (fsub f64 (fadd f64 k.sp z) d.k)
        let sn := fmax f64 0 (fsub f64 (fsub f64 k.sn z) d.k)
        let a := up && flt f64 h sp
        let b := down && flt f64 h sn
        ({ k with sp := if a then 0 else sp, sn := if b then 0 else sn }, (if a then [sp] else []) ++ (if b then [sn] else []))
      else
        let u := fadd f64 k.u (fscale f64 (fsub f64 z k.u) d.lambda)
        let a := up && flt f64 h u
        let b := down && flt f64 u (fneg f64 h)
        ({ k with u := if a || b then 0 else u }, if a || b then [u] else [])
    let dd := fsub f64 x k.m
    ({ t.1 with m := fadd f64 k.m (fscale f64 dd d.kb), v := fadd f64 k.v (fscale f64 (fsub f64 (fmul f64 dd dd) k.v) d.kb),
                w := min (k.w + 1) 65535 }, t.2)

/-- One tested epoch or completion enters the window (R431): the hits of a raise, none where there is none. -/
def windowTest (d : DetEnt) (beyond : Bool) (k : Det) : Det × Option Nat :=
  let win := (2 * k.win + flag beyond) % 2 ^ d.n
  let hits := popCount d.n win
  if d.m ≤ hits then ({ k with win := 0 }, some hits) else ({ k with win := win }, none)

/-- A DOWN entry by HASH (R281). -/
def downByHash (r : Option DownRec) (hash : Nat) : Option DownEnt := (r.bind (fun d => d.ents.find? (fun e => e.hash == hash))).filter (fun e => !e.empty)

/-- The reference Q[QIDX] and the threshold of a STRAG entry (R433). -/
def stragRef (dn : Option DownRec) (d : DetEnt) : Option (Nat × Nat) :=
  match downByHash dn d.hash with
  | some e =>
    let q := e.q.getD d.qidx 0
    if e.poison || e.qOver || q == 0 then none else some (q, min (2 ^ 64 - 1) (q + q * d.margin / 65536))
  | none => none

/-- The pass of a window entry with a statistic: beyond or not, and the raise. -/
def windowPass (s : State) (im : Image) (e i : Nat) (d : DetEnt) (beyond : Bool) (mk : Nat → Raise) : State :=
  let t := windowTest d beyond (detAt s i)
  let s1 := modDet s i (fun _ => t.1)
  match t.2 with
  | some hits => raiseVerdict im e i d s1 (mk hits)
  | none => s1

/-- A code that can be tested: not MISSING, not poisoned (R427). -/
def codeFor (v : Option Vec) (src : Nat) : Option Nat :=
  match v with
  | some v => let c := codeOf v (src % 65536); if c = 0xFFFF ∨ v.poison.contains (src % 65536) then none else some c
  | none => none

/-! The Spire's straggler test (R435) -/

/-- A step takes the first place of SL. -/
def slPush (n step : Nat) (k : Det) : Det :=
  { k with sl := (step :: k.sl).take n, rows := (k.rows.map (fun r => { r with map := 2 * r.map % 2 ^ n })).filter (fun r => r.map != 0) }

/-- A leaf's bit is set; a new leaf takes a free row, or the least recently set one, which counts. -/
def trackSet (k : Det) (leaf pos : Nat) : Det × Nat :=
  let n := k.marks + 1
  if k.rows.any (fun r => r.leaf == leaf) then
    ({ k with marks := n, rows := k.rows.map (fun r => if r.leaf = leaf then { r with map := r.map ||| 2 ^ pos, mark := n } else r) }, 0)
  else if k.rows.length < 256 then ({ k with marks := n, rows := k.rows ++ [⟨leaf, 2 ^ pos, n⟩] }, 0)
  else
    let old := (k.rows.map (·.mark)).foldl min n
    ({ k with marks := n, rows := k.rows.map (fun r => if r.mark = old then ⟨leaf, 2 ^ pos, n⟩ else r) }, 1)

/-- One TOPK entry; the last component collects the entries that set a bit. -/
def stragEntry (n thr : Nat) (a : Det × Nat × List TopEnt) (e : TopEnt) : Det × Nat × List TopEnt :=
  let k := (match a.1.sl with
    | [] => slPush n e.step a.1
    | h :: _ => if newer 32 e.step h then slPush n e.step a.1 else a.1)
  match findIdx (fun x => x == e.step) k.sl with
  | some pos =>
    if thr < e.val then let t := trackSet k e.leaf pos; (t.1, a.2.1 + t.2, a.2.2 ++ [e]) else (k, a.2.1, a.2.2)
  | none => (k, a.2.1, a.2.2)

/-- The pass of a Spire's or the Dome's STRAG entry over its merged TOPK field. -/
def stragPass (s : State) (im : Image) (e i : Nat) (d : DetEnt) (dn : Option DownRec) : State :=
  match (lookup s.sealing.merged e).bind (fun fs => fs[d.src % 65536]?) with
  | none => s
  | some f =>
    if f.poison then s
    else
      let k0 := detAt s i
      let k1 := if k0.job = f.job ∧ k0.jgen = f.jgen then k0 else { k0 with sl := [], rows := [], job := f.job, jgen := f.jgen }
      let s1 := modDet s i (fun _ => k1)
      match stragRef dn d with
      | none => rcInc s1 .vrdNoref
      | some (q, thr) =>
        let es := (match f.val with
          | .topk _ _ es => es
          | _ => [])
        let t := es.foldl (stragEntry d.n thr) (k1, 0, [])
        let full := sortBy (fun r => r.leaf) (t.1.rows.filter (fun r => decide (d.m ≤ popCount d.n r.map)))
        let k2 := { t.1 with rows := t.1.rows.filter (fun r => !full.any (fun x => x.leaf == r.leaf)) }
        let s2 := rcAdd (modDet s1 i (fun _ => k2)) .vrdTrackOvf t.2.1
        full.foldl (fun u r =>
          let val := ((t.2.2.find? (fun x => x.leaf == r.leaf)).map (·.val)).getD 0
          let step := ((List.range d.n).find? (fun p => r.map.testBit p)).elim 0 (fun p => t.1.sl.getD p 0)
          raiseVerdict im e i d u ⟨leafSubject r.leaf, popCount d.n r.map, fofNat f64 val, fofNat f64 thr, val, f.job, f.jgen, step, q⟩) s2

/-! One entry's pass -/

/-- The pass of a Newt's STRAG entry (R434). -/
def newtStrag (s : State) (im : Image) (e i : Nat) (d : DetEnt) (dn : Option DownRec) : State :=
  match stragRef dn d with
  | none => rcInc s .vrdNoref
  | some (q, thr) =>
    match (sampleOf s e).bind (fun smp => stepOf smp (selsAt s e) (srcItem d.src)) with
    | none => s
    | some c => windowPass s im e i d (decide (thr < c.duration)) (fun hits =>
        ⟨leafSubject im.nodeId, hits, fofNat f64 c.duration, fofNat f64 thr, c.duration, c.job, c.gen, c.step, q⟩)

/-- The pass of detector entry `i` on epoch `e` (R426 to R435); `dn` is the DOWN record that R280 allows. -/
def detPass (im : Image) (e : Nat) (dn : Option DownRec) (s : State) (p : Nat × DetEnt) : State :=
  let i := p.1
  let d := p.2
  let h := detLimit s e i
  let vec := epochVec s e
  if d.kind ≤ 2 then
    (match codeFor vec d.src with
     | none => s
     | some c =>
       let t := baselineTest d h im.detect.warmup (detAt s i) c
       t.2.foldl (fun u sc => raiseVerdict im e i d u ⟨selfSubject im, 1, sc, h, c, 0, 0, 0, 0⟩) (modDet s i (fun _ => t.1)))
  else if d.kind = 3 then
    (match codeFor vec d.src, downByHash dn (((detFeat im d).map (·.hash)).getD 0) with
     | some c, some r =>
       let z := fdiv f64 (fsub f64 (fofNat f64 c) r.mean) (fsqrt f64 (fmax f64 r.var fone))
       let beyond := (d.side.testBit 0 && fle f64 h z) || (d.side.testBit 1 && fle f64 z (fneg f64 h))
       windowPass s im e i d beyond (fun hits => ⟨selfSubject im, hits, z, h, c, 0, 0, 0, 0⟩)
     | _, _ => s)
  else if d.kind = 4 then
    (if im.role = 1 then newtStrag s im e i d dn
     else stragPass s im e i d (if im.role = 3 then s.red.downs.find? (fun r => r.epoch == e) else dn))
  else
    let r := readScore s (d.src / 16 % 64) (d.src % 16) e
    match r.2 with
    | none => r.1
    | some y =>
      let beyond := (d.side.testBit 0 && fle f64 h y) || (d.side.testBit 1 && fle f64 y h)
      windowPass r.1 im e i d beyond (fun hits => ⟨selfSubject im, hits, y, h, y, 0, 0, 0, 0⟩)

/-! Activation (R133, R430) -/

/-- Detector states of a new image: those whose feature's HASH is unchanged carry over, the others start afresh. -/
def carryDets (old : Option Image) (new : Image) (dets : List Det) : List Det :=
  ((List.range new.detect.dets.length).zip new.detect.dets).map (fun p =>
    match old with
    | none => detNone
    | some o =>
      (match o.detect.dets[p.1]? with
       | some d =>
         if d.kind = p.2.kind ∧ (detFeat o d).map (·.hash) = (detFeat new p.2).map (·.hash) ∧ d.hash = p.2.hash ∧ (d.kind ≤ 3 ∨ d.src = p.2.src)
         then dets.getD p.1 detNone else detNone
       | none => detNone))

/-- The first pass on an epoch from e_A on takes the detector states over. -/
def carryDetsFor (s : State) (e : Nat) : State :=
  match s.img.active with
  | some im =>
    if s.img.detDue && decide (s.img.eA ≤ e) then
      { modVrd s (fun u => { u with dets := carryDets s.img.old im u.dets }) with img := { s.img with detDue := false } }
    else s
  | none => s

/-- The DOWN record that R280 allows for `e`. -/
def downFor (s : State) (im : Image) (e : Nat) : Option DownRec :=
  if e < im.node.lPeer then none else s.red.downs.find? (fun d => d.epoch + im.node.lPeer == e)

/-- At the edge that ends `x`: its pass falls due, with whether R280's record has been accepted by then (R280, R443). -/
def vrdStrobe (s : State) (x : Nat) : State :=
  match imageAt s x with
  | none => s
  | some im =>
    let ok := (downFor s im x).isSome
    let late := needsDown im && !ok
    let s1 := modVrd (if ok then s else rcInc s .redDownLate) (fun u => { u with
      due := u.due.filter (fun d => decide (x < d.epoch + 10)) ++ [⟨x, ok, false⟩], sentNow := 0, kept := u.kept.filter (fun k => decide (x < k.1 + 8)),
      gapRun := if late then u.gapRun + 1 else 0, gapNoted := u.gapNoted && late })
    s1

/-- The detector entries with their indices. -/
def detsOf (im : Image) : List (Nat × DetEnt) := (List.range im.detect.dets.length).zip im.detect.dets

/-- A detector on the node's own baseline (R429). -/
def ownBaseline (d : DetEnt) : Bool := decide (d.kind ≤ 2)

/-- The own-baseline detectors are still to run on an epoch up to `x`. -/
def baselinesDue (s : State) (x : Nat) : Bool :=
  s.vrd.due.any (fun d => decide (d.epoch ≤ x) && !d.based && (imageAt s d.epoch).any (fun im => im.detect.dets.any ownBaseline))

/-- The own-baseline detectors run on the epochs up to `x` that wait, oldest first: in a Newt ahead of its record (R29). -/
def runBaselines (s : State) (x : Nat) : State :=
  let s1 := (s.vrd.due.filter (fun d => decide (d.epoch ≤ x) && !d.based)).foldl (fun t0 d =>
    let t := carryDetsFor t0 d.epoch
    match imageAt t d.epoch with
    | some im => ((detsOf im).filter (fun p => ownBaseline p.2)).foldl (detPass im d.epoch none) t
    | none => t) s
  modVrd s1 (fun u => { u with due := u.due.map (fun d => if d.epoch ≤ x then { d with based := true } else d) })

/-- The pass on the oldest epoch that is due: in a Newt once its vector is complete, elsewhere once the record is ready too (R428). The answer
is the epoch judged. -/
def passDue (s0 : State) : State × Option Nat :=
  match s0.vrd.due with
  | [] => (s0, none)
  | ⟨e, ok, based⟩ :: rest =>
    let s := carryDetsFor s0 e
    match imageAt s e with
    | none => (modVrd s (fun u => { u with due := rest }), none)
    | some im =>
      if quiet s || vectorPending s e || (im.role != 1 && !s.red.own.any (fun r => r.epoch == e)) then (s, none)
      else
        let s1 := modVrd (touch s 6) (fun u => { u with due := rest })
        let ds := (detsOf im).filter (fun p => !(based && ownBaseline p.2))
        (readerVrd (ds.foldl (detPass im e (if ok then downFor s im e else none)) s1) e, some e)

/-- LEAP's jobs on a Newt's epoch sample have not all ended. -/
def jobsPending (s : State) (x : Nat) : Bool := s.leap.jobs.any (fun j => jobLive j && !j.host && j.vec.cls == 1 && j.vec.epoch == x)

/-- A Newt's record of the epoch is ready (R28): `poisoned` names the fields whose source word reads poisoned (R257). FEAT's vector, LEAP's jobs and
the own-baseline detectors come first (R29); jobs still in flight are waited for until 4 µs after the end of the epoch (DESIGN CHOICE, log 130). -/
def newtReady (s0 : State) (poisoned : List Nat) : State :=
  match newtDue s0 with
  | none => s0
  | some smp =>
    (match imageAt s0 smp.epoch with
     | none => s0
     | some im =>
       let s := if baselinesDue s0 smp.epoch then touch s0 6 else s0
       if im.role ≠ 1 || quiet s || vectorPending s smp.epoch || (baselinesDue s smp.epoch && asleep s 6) then s
       else
         let s1 := if jobsPending s smp.epoch then advanceTick s (edgeTick s.time.grid (smp.epoch + 1) + 4000 * 1024) else s
         let s2 := runBaselines s1 smp.epoch
         let r := newtFields im smp (selsAt s2 smp.epoch) (epochVec s2 smp.epoch) poisoned im.schema.fields 0 (touch s2 4)
         (ownReady r.1 im (newtRecord r.1 im smp r.2)).1)

/-- PEER_GAP_NOTE (R443): what HITS, LIMIT and VALUE hold is free. -/
def peerGapNote (s : State) : State :=
  match s.img.active with
  | none => s
  | some im =>
    if quiet s || s.vrd.gapNoted || decide (s.vrd.gapRun < im.detect.peerGap) then s
    else
      let w (k : Nat) : Nat := (Config.vrdOpen (s.freeDraws + k)).toNat
      let s1 := modVrd { s with freeDraws := s.freeDraws + 3 } (fun u => { u with gapNoted := true, peerGap := true })
      produce s1 im (epochNow s - 1) 0xFFFF 6 1 false ⟨selfSubject im, w 0 % 256, fofNat f64 s.vrd.gapRun, w 1, w 2, 0, 0, 0, 0⟩

/-! Received verdicts and votes (R444, R445, R452) -/

/-- VERDICT_RECEIVE. -/
def verdictReceiveOp (s : State) (p : Nat) (b : Bytes) : State :=
  match rxFrame s p b tyVerdict with
  | (s1, none) => s1
  | (s1, some f) =>
    match checkedFrame s1 f with
    | (s2, none) => s2
    | (s2, some _) =>
      let v := verdictAt f.payload 0
      let key := (v.issuer, v.vseq, v.epoch)
      if s2.vrd.keys.contains key then rcInc s2 .vrdDupDrop
      else
        let s3 := if roleOf s2 < 2 then s2 else modVrd s2 (fun u => { u with keys := (u.keys ++ [key]).drop (u.keys.length - 4095) })
        enterVerdict s3 v (some p)

/-- The buddy's ballot on a verdict (R452): its own entry DET of the same DKIND, and SCORE past its own test on the verdict's side. A verdict of EWMA or
PEERZ shows its side in SCORE's sign, one of SCORE in SCORE against LIMIT, and one of CUSUM does not show it (R437, log entry 149). -/
def ballotOn (s : State) (im : Image) (v : Verdict) : Bool :=
  match im.detect.dets[v.det]? with
  | none => false
  | some d =>
    let h := detLimit s v.epoch v.det
    let up := d.side.testBit 0
    let down := d.side.testBit 1
    d.kind == v.dkind && (match d.kind with
      | 1 => flt f64 h v.score
      | 2 => (up && flt f64 h v.score) || (down && flt f64 v.score (fneg f64 h))
      | 3 => (up && fle f64 h v.score) || (down && fle f64 v.score (fneg f64 h))
      | 4 => (match stragRef (downFor s im (epochNow s)) d with
        | some (_, thr) => flt f64 (fofNat f64 thr) v.score
        | none => false)
      | _ => (up && fle f64 v.limit v.score && fle f64 h v.score) || (down && fle f64 v.score v.limit && fle f64 v.score h))

/-- VOTE_PROPOSE_RECEIVE. -/
def proposeReceive (s : State) (p : Nat) (b : Bytes) : State :=
  match rxFrame s p b tyPropose with
  | (s1, none) => s1
  | (s1, some f) =>
    match checkedFrame s1 f, s1.img.active with
    | (s2, some _), some im =>
      let v := verdictAt f.payload 8
      queueFrame s2 p 3 0 tyBallot (toBe 4 (beAt f.payload 0 4) ++ toBe 1 (flag (ballotOn s2 im v)) ++ zeros 3 ++ toBe 4 v.issuer ++ toBe 4 v.vseq)
    | (s2, _), _ => s2

/-- BALLOT_RECEIVE: one ballot of each member counts; the vote closes as soon as it is won or cannot be won. -/
def ballotReceiveOp (s : State) (p : Nat) (b : Bytes) : State :=
  match rxFrame s p b tyBallot with
  | (s1, none) => s1
  | (s1, some f) =>
    match checkedFrame s1 f with
    | (s2, none) => s2
    | (s2, some _) =>
      let vid := beAt f.payload 0 4
      match s2.vrd.votes.find? (fun k => k.vid == vid) with
      | none => s2
      | some k =>
        if k.answered.contains f.src || !k.members.contains f.src then s2
        else
          let yes := k.yes + flag (byteAt f.payload 4 == 1)
          let left := k.members.length - (k.answered.length + 1)
          let need := votesNeeded k.members.length
          if need ≤ yes then closeVote s2 vid true
          else if yes + left < need then closeVote s2 vid false
          else modVrd s2 (fun u => { u with votes := u.votes.map (fun x => if x.vid = vid then { x with yes := yes, answered := x.answered ++ [f.src] } else x) })

/-- VOTE_TIMEOUT. -/
def voteTimeoutOp (s : State) (vid : Nat) : State :=
  match s.vrd.votes.find? (fun k => k.vid == vid) with
  | none => s
  | some k => closeVote (advanceTb0 s k.deadline) vid false

/-! Leaving the queue (R441, R442, R446) -/

/-- The entry that leaves next: highest class first, oldest within it; an overflow entry after the queue's of its class. The flag says
that it stands beside the queue. -/
def nextVerdict (s : State) : Option (VEntry × Bool) :=
  let q := s.vrd.queue.filter (·.ready)
  (sortBy (fun (p : VEntry × Bool) => 2 * classRank p.1.v.cls + flag p.2) (q.map (fun e => (e, false)) ++ s.vrd.isOver.map (fun e => (e, true)))).head?

/-- It leaves: H_VQUEUE, and its place. -/
def leaveQueue (s : State) (p : VEntry × Bool) : State :=
  let s1 := modTally s (fun t => { t with vqueue := histoAdd t.vqueue (tb0Ns s - p.1.at0) })
  if p.2 then modVrd s1 (fun u => { u with isOver := u.isOver.erase p.1 }) else modVrd s1 (fun u => { u with queue := u.queue.erase p.1 })

/-! The ring (R446, R447) -/

def vRingSlots (s : State) : Nat := rwGet s .vrdRingCfg % 8192

def vRingFull (s : State) : Bool := decide ((s.vrd.ringWr + 1) % max 1 (vRingSlots s) = rwGet s .vrdRingRd % max 1 (vRingSlots s))

def vRingAddr (s : State) : Nat := pairBase s .vrdRingBase + 128 * s.vrd.ringWr

/-- A ring slot with SEQ 0. -/
def vRingSlot (v : Verdict) : Bytes := let b := verdictBytes toLe v; zeros 8 ++ toLe 4 (crc32c b) ++ zeros 20 ++ b

/-- VERDICT_RING_WRITE: the Dome's next verdict, or elsewhere the oldest of the node's own that waits, starts its staged write. In the Dome it
also goes to the delivery port; with the ring disabled, to that port alone. -/
def ringWriteOp (s : State) : State :=
  let deliver (t : State) (v : Verdict) : State := queueAll t (portsOfKind (topoOf t) 5) 4 0 tyVerdict (verdictBytes toBe v)
  let start (t : State) (v : Verdict) : State := mmPump (mmWriteJob (modVrd t (fun u => { u with flying := some v })) .vrdZero 1 3 (vRingAddr t) (zeros 8))
  let on := decide (2 ≤ vRingSlots s)
  if mmQuiet s || (on && (vRingFull s || s.vrd.flying.isSome)) then s
  else if roleOf s = 3 then
    (match nextVerdict s with
     | none => s
     | some p =>
       let gone := deliver (leaveQueue s p) p.1.v
       if on then start gone p.1.v
       else if (portsOfKind (topoOf s) 5).isEmpty then s else gone)
  else match s.vrd.ringQ with
    | v :: rest => if on then start (modVrd s (fun u => { u with ringQ := rest })) v else s
    | [] => s

/-- A stage of the slot's write has its completions (R447); an error ends the write. -/
def ringStage (s : State) (stage err : Nat) : State :=
  match s.vrd.flying with
  | none => s
  | some v =>
    let a := vRingAddr s
    if err ≠ 0 then modVrd s (fun u => { u with flying := none })
    else if stage = 0 then mmPump (mmWriteJob s .vrdBody 1 3 (a + 8) ((vRingSlot v).drop 8))
    else if stage = 1 then mmPump (mmWriteJob s .vrdSeq 1 3 a (toLe 8 (s.vrd.ringSeq + 1)))
    else modVrd s (fun u => { u with flying := none, ringSeq := u.ringSeq + 1, ringWr := (u.ringWr + 1) % max 1 (vRingSlots s) })

/-! Thresholds (R457) -/

/-- A committed H lies within R454. -/
def limitOk (d : DetEnt) (h : Nat) : Bool :=
  if d.kind ≤ 3 then fisFinite f64 h && flt f64 0 h else if d.kind = 5 then fisFinite f64 h else h == 0

end Sys2Proof.Machine
end

