-- ==== Sys2Proof/Machine/Link.lean ====
section
/-!
DEFINITION. ILK on one port: reassembly (R465, R466), departure and transmit order (R468 to R472, R478 to R484), heartbeats and link state (R473 to
R477), resends on request (R467), and the uplinks (R485 to R487).
-/
namespace Sys2Proof.Machine

def modIlk (s : State) (f : Ilk → Ilk) : State := { s with ilk := f s.ilk }

/-- A port is UP. -/
def portUp (s : State) (p : Nat) : Bool := (portAt s p).lstate == 2

/-! Reassembly (R465, R466) -/

/-- Where a completed reassembly waits, and the reassembly in progress, by kind. -/
def reassOf (k : IPort) (down : Bool) : Option Reass := if down then k.reDown else k.reUp
def setReass (k : IPort) (down : Bool) (r : Option Reass) : IPort := if down then { k with reDown := r } else { k with reUp := r }

/-- A frame that starts or continues a record takes its place; the last one completes it. -/
def reassPut (s : State) (p : Nat) (down : Bool) (r : Reass) (idx : Nat) : State :=
  if idx = r.last then
    modPort s p (fun k =>
      let k1 := setReass k down none
      if down then { k1 with rxDown := k1.rxDown ++ [⟨r.tag, r.data, r.cells⟩] } else { k1 with rxUp := k1.rxUp ++ [⟨r.tag, r.data, r.cells⟩] })
  else modPort s p (fun k => setReass k down (some r))

/-- A resend is asked for by tag, but not on a buddy port, whose blocks are no records (R582). -/
def askTag (s : State) (p tag : Nat) (down : Bool) : State :=
  if kindOfPort s p = 4 then s
  else match tagEpoch s tag with
    | some x => askResend s p x (if down then 2 else 1)
    | none => s

/-- A segment of a record or DOWN record that has passed R460. -/
def segment (s : State) (p : Nat) (down : Bool) (f : Frame) : State :=
  let idx := f.seg / 2 ^ 20
  let last := f.seg / 2 ^ 8 % 2 ^ 12
  let seq := f.seg % 2 ^ 8
  let cells := cellsOf (4 * f.len)
  let fresh : Reass := ⟨f.tag, f.gen, seq, last, 1, f.payload, cells⟩
  match reassOf (portAt s p) down with
  | none =>
    if idx = 0 then reassPut s p down fresh 0
    else askTag (rcInc (freeCells s p cells) (.ilk p .segBad)) p f.tag down
  | some r =>
    if idx = r.next ∧ seq = r.seq ∧ last = r.last then
      reassPut s p down { r with next := idx + 1, data := r.data ++ f.payload, cells := r.cells + cells } idx
    else
      let s1 := freeCells (rcInc (modPort s p (fun k => setReass k down none)) (.ilk p .segBad)) p r.cells
      let s2 := askTag s1 p r.tag down
      if idx = 0 then reassPut s2 p down fresh 0
      else (fun (t : State) => if f.tag = r.tag then t else askTag t p f.tag down) (freeCells s2 p cells)

/-- RECORD_SEGMENT_RECEIVE. -/
def segmentReceive (s : State) (p : Nat) (b : Bytes) : State :=
  let down := (frameAt b).ty == tyDown
  match rxFrame s p b (if down then tyDown else tyRecord) with
  | (s1, some f) => segment s1 p down f
  | (s1, none) => s1

/-! Departure -/

/-- What departs: type, epoch of the tag, flags, SEG and payload. -/
structure Depart where
  ty      : Nat
  epoch   : Nat
  flags   : Nat
  seg     : Nat
  payload : Bytes
deriving DecidableEq, Repr

/-- Bytes of the frame with header and padding to 4. -/
def departLen (d : Depart) : Nat := 32 + roundUp d.payload.length 4

/-- TX_COMP of a serial port. -/
def txComp (s : State) (p : Nat) : Nat := rwEff s (.comp p) % 65536

/-- The departure stamp: TB0 plus TX_COMP on a serial port (R178). -/
def departStamp (s : State) (p : Nat) : Stamp := stampNs (tb0Ns s + (if isSerial p then txComp s p else 0))

/-- The frame as it leaves now. -/
def departFrame (s : State) (p : Nat) (d : Depart) : Frame :=
  { ver := 0x30, ty := d.ty, tag := d.epoch % 65536, src := nodeId s, hop := nodeH s, ts := departStamp s p, gen := genAt s d.epoch,
    len := departLen d / 4, flags := d.flags, seg := d.seg, pcrc := 0, payload := padTo 4 d.payload }

/-- The frame leaves: its charge (R483), its credits (R471), and its bytes on the port. -/
def depart (s0 : State) (e : PortEnt) (d : Depart) : State :=
  let n := departLen d
  let s := if d.ty = tyRecord ∧ s0.boot.cur.trial ≠ 0 ∧ s0.boot.sentLimit = none then
      { s0 with boot := { s0.boot with sentLimit := some (portAt s0 e.port).limit } } else s0
  let s1 := setLevel s e (fun v => v - (((n + e.ovh) * 65536 : Nat) : Int))
  modPort s1 e.port (fun k => { k with
    lastTx := frameBytes (departFrame s e.port d), sent := if d.ty = tyHeart then k.sent else (k.sent + cellsOf n) % 2 ^ 32 })

/-- Credits and tokens allow the frame (R471, R483). -/
def mayDepart (s : State) (e : PortEnt) (d : Depart) : Bool :=
  let k := portAt s e.port
  !newer 32 ((k.sent + cellsOf (departLen d)) % 2 ^ 32) k.limit &&
  decide ((((departLen d + e.ovh) * 65536 : Nat) : Int) ≤ levelNow s e k)

/-- The instant that the gate judges: the wire start (R479). -/
def wireTick (s : State) (p : Nat) : Int := (tb0Tick s : Int) + ((txComp s p * 1024 : Nat) : Int)

/-! Transmit order (R468) -/

/-- A frame that waits: what departs, what the state becomes when it does, and the mailbox whose PTP_TX it is. -/
structure Waiting where
  d    : Depart
  next : State
  mbx  : Option Nat

/-- DOWN records that have not started by the edge that ends e + L_PEER are dropped (R469). -/
def expireDown (s : State) (p : Nat) : State :=
  let l := (s.img.active.map (·.node.lPeer)).getD 0
  let gone (r : TxRec) : Bool := r.row == 5 && r.next == 0 && gridRuns s && decide (r.epoch + l < s.time.grid.epoch)
  rcAdd (modPort s p (fun k => { k with recs := k.recs.filter (fun r => !gone r) })) (.ilk p .downExpired) ((portAt s p).recs.filter gone).length

/-- The first queued frame of a row: by order within it, oldest first. -/
def firstOf (k : IPort) (row : Nat) : Option TxFrame := (sortBy (fun f => f.order) (k.queue.filter (fun f => f.row == row))).head?

/-! PTP messages (R181, R182) -/

/-- messageType of an event message: 0x0 to 0x3. -/
def ptpEvent (msg : Bytes) : Bool := decide (byteAt msg 0 % 16 ≤ 3)

/-- The departure stamp of R178 in a base, in ns. -/
def ptpStamp (s : State) (p base : Nat) : Nat := baseNs (baseAt s base) s.time.c + (if isSerial p then txComp s p else 0)

/-- correctionField of a ONE_STEP event message with the residence added, and whether it saturated. -/
def ptpCorrect (s : State) (p base : Nat) (oneStep : Bool) (tref : Stamp) (msg : Bytes) : Bytes × Bool :=
  if !oneStep || !ptpEvent msg then (msg, false)
  else
    let gone : Int := ((ptpStamp s p base : Int) - ((tref.sec * 10 ^ 9 + tref.ns : Nat) : Int)) * 65536
    let v := signed 64 (beAt msg 8 8) + gone
    (patch msg 8 (toBe 8 (unsigned 64 (min v (2 ^ 63 - 1)))), decide (2 ^ 63 - 1 < v))

/-- The payload of a PTP frame for a message (R497). -/
def ptpPayload (msg : Bytes) : Bytes := toBe 2 msg.length ++ zeros 2 ++ padTo 4 msg

/-- The PTP_TX command of a mailbox: port, base, ONE_STEP, T_REF and message. -/
def ptpCmd (s : State) (m : Nat) : Option (Nat × Nat × Bool × Stamp × Bytes) :=
  match (lookup s.host.mboxes m).bind (·.cmd) with
  | some (.ptp p b o t msg) => some (p, b, o, t, msg)
  | _ => none

/-- What departs of a queued frame: its payload, corrected where it is a mailbox's PTP message. -/
def framePayload (s : State) (p : Nat) (f : TxFrame) : Bytes :=
  match f.mbx.bind (ptpCmd s) with
  | some (_, b, o, t, msg) => ptpPayload (ptpCorrect s p b o t msg).1
  | none => f.payload

/-- A queued frame departs. -/
def waitFrame (s : State) (p : Nat) (f : TxFrame) : Waiting :=
  ⟨⟨f.ty, f.tag.getD (epochNow s), f.flags, 0, framePayload s p f⟩, modPort s p (fun k => { k with queue := k.queue.erase f }), f.mbx⟩

/-- The node's own next verdict departs (R442, R445). -/
def waitVerdict (s : State) : Option Waiting :=
  if roleOf s = 3 ∨ (detSec s).vcap ≤ s.vrd.sentNow then none
  else (nextVerdict s).map (fun q =>
    let s1 := modVrd (leaveQueue s q) (fun u => { u with sentNow := u.sentNow + 1, kept := u.kept ++ [(epochNow s, q.1.v)] })
    ⟨⟨tyVerdict, epochNow s, 0, 0, verdictBytes toBe q.1.v⟩, s1, none⟩)

/-- A record's next segment departs: its SEG and bytes (R464); the record has left with its last one. `r.seq` is its MSGSEQ. A mirror
block's frames on a buddy port carry the current epoch (R582). -/
def waitSegment (s : State) (e : PortEnt) (r : TxRec) (k : IPort) : Depart × State :=
  let m := max 16 (segMax e.mtu)
  let last := framesFor r.data.length e.mtu - 1
  let seq := r.seq.getD (if r.row = 5 then k.seqDown else k.seqUp)
  let d : Depart := ⟨if r.row = 5 then tyDown else tyRecord, if e.kind = 4 then epochNow s else r.epoch, 0, r.next * 2 ^ 20 + last * 2 ^ 8 + seq, sliceOf r.data (r.next * m) m⟩
  let started := r.seq.isNone
  let rest := k.recs.erase r
  let on := { r with next := r.next + 1, seq := some seq }
  (d, modPort s e.port (fun k => { k with
    recs := if r.next = last then rest else on :: rest,
    seqDown := if started ∧ r.row = 5 then (k.seqDown + 1) % 256 else k.seqDown,
    seqUp := if started ∧ r.row ≠ 5 then (k.seqUp + 1) % 256 else k.seqUp }))

/-- The copies still held (R467). -/
def heldNow (s : State) : List Held := s.ilk.held.filter (fun h => decide (s.time.grid.epoch ≤ h.epoch + 8))

/-- A record's first segment starts on port `p`: a copy is held from then on, the one already held counting as sent there (R467, R485). -/
def holdSent (s : State) (p : Nat) (down : Bool) (x gen : Nat) (data : Bytes) : State :=
  let same (h : Held) : Bool := h.down == down && h.epoch == x && h.node == recNode data
  let l := if (heldNow s).any same then (heldNow s).map (fun h => if same h then { h with port := p } else h)
    else heldNow s ++ [⟨down, x, gen, recNode data, data, p⟩]
  modIlk s (fun u => { u with held := l })

/-- A record of the node's own leaves `unsent` as its first segment starts: it is held, and never converted again (R275, R467). -/
def startOwn (s : State) (p : Nat) (r : Record) : State :=
  let s1 := modRed s (fun u => { u with unsent := u.unsent.erase r, lastForm := r.summary })
  holdSent (if r.summary then rcInc s1 .redSummary else s1) p false r.epoch r.gen (recordBytes r)

/-- The segment of a record that waits in a port's rows 5 to 7. -/
def waitRec (s : State) (e : PortEnt) (r : TxRec) : Waiting :=
  let w := waitSegment s e r (portAt s e.port)
  ⟨w.1, if r.row ≠ 6 ∧ r.seq.isNone then holdSent w.2 e.port (r.row == 5) r.epoch r.gen r.data else w.2, none⟩

/-- The node's own oldest unsent record begins (R275, R468). -/
def waitOwn (s : State) (e : PortEnt) (r : Record) : Waiting :=
  let w := waitSegment s e ⟨6, r.epoch, r.gen, true, recordBytes r, 0, none⟩ (portAt s e.port)
  ⟨w.1, startOwn w.2 e.port r, none⟩

/-- The node's own record that may begin on the port: the oldest that goes there (R133). One that waited at the failover waits for the records sent
again (R485, log entry 145). -/
def ownNext (s : State) (e : PortEnt) : Option Record :=
  let again := (portAt s e.port).recs.any (fun r => r.row == 7)
  match s.red.unsent.find? (fun r => uplinkFor s r.epoch == some e.port) with
  | some r => if again && s.ilk.resendTop.any (fun x => decide (r.epoch ≤ x)) then none else some r
  | none => none

/-- The RECORD or DOWN frame that waits first: the record in progress, then rows 5, 6 and 7, oldest epoch first. -/
def waitRecord (s : State) (e : PortEnt) : Option Waiting :=
  let k := portAt s e.port
  let own := ownNext s e
  match k.recs.find? (fun r => decide (r.next ≠ 0)) with
  | some r => some (waitRec s e r)
  | none =>
    match k.recs.find? (fun r => r.row == 5), k.recs.find? (fun r => r.row == 6), own with
    | some r, _, _ => some (waitRec s e r)
    | none, some r, some o => if r.epoch ≤ o.epoch then some (waitRec s e r) else some (waitOwn s e o)
    | none, some r, none => some (waitRec s e r)
    | none, none, some o => some (waitOwn s e o)
    | none, none, none => (k.recs.find? (fun r => r.row == 7)).map (waitRec s e)

/-- The first waiting frame below the heartbeat (R468). -/
def firstWaiting (s : State) (e : PortEnt) : Option Waiting :=
  let k := portAt s e.port
  match firstOf k 2, firstOf k 3, firstOf k 4 with
  | some f, _, _ => some (waitFrame s e.port f)
  | none, some f, _ => some (waitFrame s e.port f)
  | none, none, some f => some (waitFrame s e.port f)
  | none, none, none =>
    match (if activeUplink s = some e.port then waitVerdict s else none) with
    | some w => some w
    | none => waitRecord s e

/-! Heartbeats (R473, R474) -/

/-- The payload. -/
def heartPayload (s : State) (e : PortEnt) : Bytes :=
  let k := portAt s e.port
  let now : Int := (tb0Tick s : Int)
  let heard := (match k.hbRx with
    | some (t, src) => if openBetween s e.port ((t * 1024 : Nat) : Int) now ≤ 8000 * 1024 then 2 ^ 31 + src else 0
    | none => 0)
  toBe 4 ((k.freed + e.rxcells) % 2 ^ 32) ++ toBe 4 heard ++ toBe 4 k.hbSeq ++ toBe 4 s.ilk.bcid ++ toBe 4 s.ilk.actid ++
  toBe 1 (flag (activeUplink s == some e.port)) ++ zeros 11

/-- A heartbeat leaves now. -/
def sendHeart (s : State) (e : PortEnt) : State :=
  let k := portAt s e.port
  let s1 := depart s e ⟨tyHeart, epochNow s, flag k.pfTx + 2 * flag (s.pnl.dep != 0), 0, heartPayload s e⟩
  modPort s1 e.port (fun k => { k with hbTx := tb0Ns s, hbSeq := (k.hbSeq + 1) % 2 ^ 32, hbDue := false, pfTx := false })

/-- HEARTBEAT_SEND: the next heartbeat that falls due on a port whose link is up, at the first instant whose wire start the gate admits (R474, R479). -/
def heartbeatSendOp (s : State) (p : Nat) : State :=
  match entOfPort s p with
  | none => s
  | some e =>
    let k := portAt s p
    if mmQuiet s || !k.linkUp then s
    else
      let now : Int := (tb0Tick s : Int)
      let at0 := if k.hbDue then now else max now (afterOpen s p ((k.hbTx * 1024 : Nat) : Int) (2000 * 1024))
      let c : Int := ((txComp s p * 1024 : Nat) : Int)
      sendHeart (advanceTick s (nextAdmit s p e (at0 + c) - c)) e

/-- FRAME_TRANSMIT_START: the first waiting frame starts where the link, the gate, credits and tokens allow it (R468, R471, R479, R483). The answer
names the mailbox whose PTP message it was. -/
def transmit (s0 : State) (p : Nat) : State × Option Nat :=
  match entOfPort s0 p with
  | none => (s0, none)
  | some e =>
    let s := expireDown s0 p
    let k := portAt s p
    if mmQuiet s || !k.linkUp || !gateAdmits s p e (wireTick s p) then (s, none)
    else if k.hbDue then (sendHeart s e, none)
    else if k.lstate ≠ 2 then (s, none)
    else match firstWaiting s e with
      | none => (s, none)
      | some w =>
        if !mayDepart s e w.d then (s, none)
        else (depart w.next e w.d, w.mbx)

/-! Uplinks (R485 to R487) -/

/-- A record's bytes with RESENT set and RCRC recomputed (R485). -/
def markResent (b : Bytes) : Bytes := sealCrc (patch (patch b 6 (toBe 2 (beAt b 6 2 ||| 32))) 0x3C (zeros 4))

/-- ACK payload with flags: UPDATE, REFUSED, ORPHAN, OVERFLOW (R492). -/
def ackPayload (act : Bool) (id : Nat) (update orphan : Bool) (a : AckInfo) : Bytes :=
  toBe 4 id ++ toBe 1 (flag act) ++ toBe 1 (flag update + 2 * flag a.refused + 4 * flag orphan + 8 * flag a.overflow) ++ toBe 2 a.miss.length ++
  toBe 4 a.reached ++ toBe 4 a.joined ++ toBe 4 a.expected ++ toBe 4 a.switched ++ toBe 4 a.parent ++ zeros 4 ++ (a.miss.map (toBe 4)).flatten

/-- An ACK waits on the active uplink; ORPHAN where that is the alternate. -/
def queueAck (s : State) (act : Bool) (id : Nat) (update : Bool) (a : AckInfo) : State :=
  match activeUplink s with
  | some p => queueFrame s p 2 0 tyAck (ackPayload act id update (s.ilk.active == 1) a)
  | none => s

/-- What a node sends after it has moved to an uplink (R485): UPDATE ACKs, held verdicts, RESENT records, and then as usual. -/
def resendAll (s : State) (p : Nat) (lost : Option Nat) : State :=
  let s1 := s.ilk.bcasts.foldl (fun t b => match b.sentAck with
    | some a => queueAck t b.act b.id true a
    | none => t) s
  let s2 := s.vrd.kept.foldl (fun t v => queueFrame t p 4 0 tyVerdict (verdictBytes toBe v.2)) s1
  (sortBy (fun h => h.epoch) ((heldNow s).filter (fun h => !h.down && lost == some h.port))).foldl
    (fun t h => queueRec t ((uplinkFor t h.epoch).getD p) 7 h.epoch h.gen false (markResent h.data)) s2

/-- An uplink becomes the active one (R474, R484). -/
def makeActive (s : State) (k : Nat) : State :=
  let s1 := modIlk s (fun u => { u with active := k })
  match uplinkPort s k with
  | some p => fillLevel (modPort s1 p (fun q => { q with hbDue := true })) p
  | none => s1

/-- The switch of R485, counted. -/
def failover (s : State) (k : Nat) : State :=
  let s1 := makeActive s k
  let s2 := modIlk s1 (fun u => { u with failovers := satAdd 16 u.failovers 1, lostUp := none, resendTop := s.red.unsent.getLast?.map (·.epoch) })
  match uplinkPort s k with
  | some p => resendAll s2 p s.ilk.lostUp
  | none => s2

/-- The active uplink has been lost (R485, R486). -/
def uplinkLost (s : State) (p : Nat) : State :=
  let s1 := modIlk s (fun u => { u with lostUp := some p })
  let other := 1 - s.ilk.active
  match uplinkPort s other with
  | some q => if portUp s q then failover s1 other else modIlk s1 (fun u => { u with active := 2 })
  | none => modIlk s1 (fun u => { u with active := 2 })

/-- An uplink has become UP while the active one is not (R486). -/
def uplinkUp (s : State) (p : Nat) : State :=
  let k := if uplinkPort s 0 = some p then 0 else 1
  if kindOfPort s p ≠ 1 ∧ kindOfPort s p ≠ 2 then s
  else match activeUplink s with
    | some q => if q = p then modPort s p (fun x => { x with hbDue := true }) else if portUp s q then s else failover s k
    | none => failover s k

/-! Link state (R475 to R477) -/

/-- A child's departure mark from an epoch on (R593, R597, R599); a mark that already holds there stays. -/
def markDeparture (s : State) (i fromEp : Nat) : State :=
  if departed s fromEp i then s
  else sealNow (modSeal s (fun u => { u with departs := u.departs.filter (fun d => d.1 != i) ++ [(i, fromEp, none)] }))

/-- A child's mark clears from an epoch on (R596, R598). -/
def clearDeparture (s : State) (i fromEp : Nat) : State :=
  modSeal s (fun u => { u with
    departs := u.departs.map (fun d => if d.1 = i ∧ d.2.2.isNone then (d.1, d.2.1, some fromEp) else d), grants := u.grants.filter (fun g => g.1 != i) })

/-- The lowest epoch that the node has not sealed. -/
def lowestUnsealed (s : State) : Nat :=
  match lowestOpen s with
  | some w => w.x
  | none => epochNow s

/-- The first epoch that begins at least one full epoch from now. -/
def fullEpochLater (s : State) : Nat := epochNow s + 2

/-- The mirror buddy's port under the active image. -/
def mirrorPortNow (s : State) : Option Nat := s.img.active.bind mirrorPort

/-- The node rebuilds (R589): REBUILDING for MCU_REBUILD epochs, every entry afresh with the longer warm-up, levels at 0. -/
def rebuildNode (s : State) : State :=
  let n := rwGet s .rebuild % 2 ^ 24
  let w := max (detSec s).warmup n
  let s1 := modVrd s (fun u => { u with
    dets := u.dets.map (fun _ => { detNone with warmup := some w }), spLevel := 0, spAt := tb2Ns s, domeLevel := 0, domeAt := tb2Ns s })
  { s1 with mir := { s1.mir with sync := 5, left := n, apply := none, decided := false } }

/-- The sync is abandoned and the node rebuilds (R588, R589). -/
def abandonSync (s : State) : State :=
  let s1 := rebuildNode s
  { s1 with mir := { s1.mir with abandoned := true } }

/-- A SYNC_REQ has been sent and no SYNC_DATA is complete yet (R585, R588). -/
def syncOpen (s : State) : Bool := (s.mir.sync == 1 || s.mir.sync == 2) && s.mir.apply.isNone

/-- An UP port is lost (R475): partial reassemblies and what is in progress are dropped, and the node's other parts learn of it. -/
def portLost (s : State) (p : Nat) (cause : Nat) : State :=
  let k := portAt s p
  let c := (match k.pfailAt with
    | some t => if tb0Ns s ≤ t + 20000000 then 3 else cause
    | none => cause)
  let cells := ((k.reUp.map (·.cells)).getD 0) + ((k.reDown.map (·.cells)).getD 0)
  let s1 := freeCells (rcInc s (.ilk p .lost)) p cells
  let s2 := modPort s1 p (fun k => { k with
    lstate := if k.linkUp then 1 else 0, loss := c, reUp := none, reDown := none, recs := k.recs.filter (fun r => r.next == 0), rejoin := false,
    peerUse := false })
  let s3 := (match childOnPort (topoOf s2) p with
    | some ch => (match childIndex (topoOf s2) ch.node with
      | some i => if k.peerDepart then markDeparture s2 i (lowestUnsealed s2) else s2
      | none => s2)
    | none => s2)
  let s4 := if mirrorPortNow s3 == some p && syncOpen s3 && k.rxUp.isEmpty then abandonSync s3 else s3
  sealNow (if activeUplink s4 = some p then uplinkLost s4 p else s4)

/-- A port becomes UP (R471, R476, R484). -/
def portRises (s : State) (p : Nat) : State :=
  let s1 := modPort s p (fun k => { k with lstate := 2, sent := 0, freed := 0, misses := 0, hbRef := tb0Ns s, rejoin := true, upEpochs := 0 })
  uplinkUp (fillLevel s1 p) p

/-- R598: a heartbeat without DEPART after the link has become UP. -/
def childBack (s : State) (p : Nat) : State :=
  if !(portAt s p).rejoin then s
  else
    let s1 := modPort s p (fun k => { k with rejoin := false })
    match (childOnPort (topoOf s) p).bind (fun c => childIndex (topoOf s) c.node) with
    | some i => clearDeparture s1 i (fullEpochLater s)
    | none => s1

/-- R495: a child whose heartbeat shows an older ID is sent what it lacks. -/
def catchUp (s : State) (p bcid actid : Nat) : State :=
  if (childOnPort (topoOf s) p).isNone then s
  else s.ilk.bcasts.foldl (fun t b =>
    if newer 32 b.id (if b.act then actid else bcid) then queueFrame t p 2 (if b.act then 2 else 1) (if b.act then tyActivate else tyStart) b.payload
    else t) s

/-- A heartbeat's minor version differs from this node's 0 by more than one (R671). -/
def noteSkew (s : State) (f : Frame) : State :=
  if 1 < f.ver % 16 then rcInc { s with boot := { s.boot with skew := true } } .svcSkew else s

/-- The active uplink's LIMIT has moved since the trial's first record left (R676). -/
def noteCredits (s : State) (p limit : Nat) : State :=
  match s.boot.sentLimit with
  | some l => if activeUplink s = some p ∧ newer 32 limit l then { s with boot := { s.boot with credits := true } } else s
  | none => s

/-- HEARTBEAT_RECEIVE (R471, R475 to R477). -/
def heartbeatReceiveOp (s : State) (p : Nat) (b : Bytes) : State :=
  match rxFrame s p b tyHeart with
  | (s1, none) => s1
  | (s0, some f) =>
    let s1 := noteCredits (noteSkew s0 f) p (beAt f.payload 0 4)
    let heard := beAt f.payload 4 4
    let mine := decide (2 ^ 31 ≤ heard) && heard % 2 ^ 24 == nodeId s1
    let dep := f.flags.testBit 1
    let pf := f.flags.testBit 0
    let now := tb0Ns s1
    let was := (portAt s1 p).lstate
    let s2 := modPort s1 p (fun k => { k with
      hbRx := some (now, f.src), hbRef := now, misses := 0, limit := beAt f.payload 0 4, peerUse := (byteAt f.payload 0x14) % 2 == 1,
      peerDepart := dep, pfail := k.pfail || pf, pfailAt := if pf then some now else k.pfailAt })
    let s3 := if was = 2 ∧ !mine then portLost s2 p 1 else if was = 1 ∧ mine then portRises s2 p else s2
    let s4 := if portUp s3 p && !dep then childBack s3 p else s3
    sealNow (if portUp s4 p then catchUp s4 p (beAt f.payload 0x0C 4) (beAt f.payload 0x10 4) else s4)

/-- HEARTBEAT_MISS: just past 2,000 ns of open time since the later of the last heartbeat and the last miss; the fourth one loses the port. -/
def heartbeatMissOp (s : State) (p : Nat) : State :=
  let k := portAt s p
  if k.lstate ≠ 2 ∨ mmQuiet s then s
  else
    let t := afterOpen s p ((k.hbRef * 1024 : Nat) : Int) (2000 * 1024)
    let s1 := advanceTb0 s (t / 1024 + 1).toNat
    let s2 := modPort (rcInc s1 (.ilk p .hbMiss)) p (fun k => { k with misses := k.misses + 1, hbRef := (t / 1024).toNat })
    if 4 ≤ k.misses + 1 then portLost s2 p 1 else s2

/-- LINK_UP_FALL (R82). -/
def linkFall (s : State) (p : Nat) : State :=
  if portAbsent s p then s
  else
    let s1 := modPort s p (fun k => { k with linkUp := false, hbDue := false })
    if (portAt s p).lstate = 2 then portLost s1 p 2 else modPort s1 p (fun k => { k with lstate := 0 })

/-- LINK_UP_RISE (R82): usable only after the heartbeat exchange; the first heartbeat leaves at once. -/
def linkRise (s : State) (p : Nat) : State :=
  if portAbsent s p then s else modPort s p (fun k => { k with linkUp := true, hbDue := true, lstate := if k.lstate = 0 then 1 else k.lstate })

/-- PORT_CLOCK_STOP (R99): on a serial port whose link is down, the frames in the port's FIFO are dropped and counted. -/
def clockStop (s : State) (p : Nat) : State :=
  let k := portAt s p
  if !isSerial p || k.linkUp then s
  else rcAdd (modPort s p (fun k => { k with queue := [] })) (.ilk p .flush) k.queue.length

/-- ILK presents a first beat on the port: a heartbeat that is due, or a frame that may start. -/
def presents (s : State) (e : PortEnt) : Bool :=
  let k := portAt s e.port
  k.linkUp && (k.hbDue || (k.lstate == 2 && ((firstWaiting s e).map (fun x => mayDepart s e x.d)).getD false))

/-- GATE_WINDOW_CHANGE (R474, R478, R479): the gate's next event on TB0: an opening, at which a heartbeat is due; or the instant from which no
frame may begin before the close, at which a first beat still presented is withdrawn. -/
def gateChange (s : State) (p : Nat) : State :=
  match entOfPort s p, gateOf s p with
  | some e, some g =>
    if !gateCloses g || mmQuiet s then s
    else
      let now : Int := (tb0Tick s : Int)
      let guard : Int := ((guardNs e * 1024 : Nat) : Int)
      let ws := windowsFrom s g now 0
      let close (w : Int × Int) : Int := w.2 - guard + 1024 - ((txComp s p * 1024 : Nat) : Int)
      (match ws with
       | w :: rest =>
         if w.1 ≤ now ∧ now < close w then
           let s1 := advanceTick s (close w)
           if presents s1 e then rcInc s1 (.ilk p .withdraw) else s1
         else
           let o := (if w.1 ≤ now then (rest.head?.map (·.1)).getD now else w.1)
           modPort (advanceTick s o) p (fun k => { k with hbDue := k.linkUp })
       | [] => s)
  | _, _ => s

/-- UPLINK_REVERT (R487). -/
def uplinkRevertOp (s : State) : State :=
  let n := rwEff s .ilkRevert % 65536
  match uplinkPort s 0 with
  | some p => if s.ilk.active = 1 ∧ n ≠ 0 ∧ portUp s p ∧ n < (portAt s p).upEpochs then makeActive s 0 else s
  | none => s

/-! Resends on request (R467) -/

/-- RESEND_REQ_RECEIVE. -/
def resendReqOp (s : State) (p : Nat) (b : Bytes) : State :=
  match rxFrame s p b tyResend with
  | (s1, none) => s1
  | (s1, some f) =>
    let x := beAt f.payload 0 8 % 2 ^ 48
    let down := byteAt f.payload 8 == 2
    match (heldNow s1).filter (fun h => h.down == down && h.epoch == x) with
    | [] => rcInc s1 (.ilk p .resendMiss)
    | hs => hs.foldl (fun t h => queueRec t p (if down then 5 else 6) x h.gen false h.data) s1

/-- HELD_COPY_EXPIRY: copies are held until the edge that ends x + 8. -/
def expireHeld (s : State) : State := modIlk s (fun u => { u with held := heldNow s })

/-- RECEIVED_FRAME_DROP: a frame that fails a check of R460 is dropped and counted. -/
def frameDrop (s : State) (p : Nat) (rxErr : Bool) (b : Bytes) : State :=
  if rxClosed s p then s
  else match frameFails s p rxErr b with
    | some c => rcInc s (.ilk p c)
    | none => s

/-! Registers (R503) -/

/-- ILK_PORT_STAT of a port. -/
def portStatWord (s : State) (p : Nat) : Nat :=
  let k := portAt s p
  k.loss * 256 + flag k.pfail * 64 + flag ((entOfPort s p).isSome && gateOpenAt s p (tb0Tick s)) * 32 + kindOfPort s p * 4 + k.lstate

/-- ILK_LEVEL: whole bytes, rounded down. -/
def levelWord (s : State) (p : Nat) : Nat :=
  match entOfPort s p with
  | some e => unsigned 32 (levelNow s e (portAt s p) / 65536)
  | none => 0

/-- ILK_CREDIT. -/
def creditWord (s : State) (p : Nat) : Nat :=
  let k := portAt s p
  if k.lstate ≠ 2 ∨ newer 32 k.sent k.limit then 0 else (k.limit + 2 ^ 32 - k.sent) % 2 ^ 32

end Sys2Proof.Machine
end

