-- ==== Sys2Proof/Machine/Bcast.lean ====
section
/-!
DEFINITION. The START and ACTIVATE broadcasts (R128 to R131, R258, R488 to R496): acceptance, forwarding, ACKs, retries and outcomes, and the schedule of an
activation (R127, R130, R132).
-/
namespace Sys2Proof.Machine

/-! Payloads (R488) -/

/-- A stamp's time in ns. -/
def stampTotal (t : Stamp) : Nat := t.sec * 10 ^ 9 + t.ns

def startPayload (id job gen sel : Nat) (start ackBy : Stamp) : Bytes :=
  toBe 4 id ++ toBe 2 job ++ toBe 1 gen ++ toBe 1 sel ++ stampBytes toBe start ++ stampBytes toBe ackBy ++ zeros 4

def activatePayload (gen : Nat) (e : Int) (lPeer eA id : Nat) : Bytes :=
  toBe 2 gen ++ toBe 1 (unsigned 8 e) ++ toBe 1 lPeer ++ toBe 8 eA ++ toBe 4 id ++ zeros 16

/-! The schedule of an activation (R127 to R132) -/

def modImg (s : State) (f : ImgU → ImgU) : State := { s with img := f s.img }

/-- R127: e_A lies less than 16 epochs after the previous one. -/
def tooSoon (s : State) (eA : Nat) : Bool :=
  match s.img.lastEA with
  | some x => decide (eA < x + 16)
  | none => s.img.nextIsEA && decide (eA < epochNow s + 17)

/-- STATE once a schedule is in force: SCHEDULED but while the loader is STAGING or RELEASING (R137, R139). -/
def schedSt (st : ImgSt) : ImgSt :=
  match st with
  | .staging | .releasing => st
  | .idle | .staged | .scheduled | .rejected => .scheduled

/-- STATE once no schedule is in force any more. -/
def unschedSt (st : ImgSt) (staged : Bool) : ImgSt := if st = .scheduled then (if staged then .staged else .idle) else st

/-- An activation is scheduled for e_A; a receipt after the start of epoch e_A − 1 is late (R130). -/
def scheduleAt (s : State) (gen eA : Nat) (e : Int) (lPeer : Nat) : State :=
  let n := epochNow s
  let late := gridRuns s && decide (eA < n + 2)
  modImg s (fun u => { u with
    sched := some ⟨gen, eA, e, lPeer, if late then n + 2 else eA, late⟩,
    st := schedSt u.st })

/-- The node holds a staged image of generation `g`. -/
def stagedGen (s : State) (g : Nat) : Bool :=
  match s.img.staged with
  | some im => im.gen == g
  | none => false

/-- R129 would refuse the activation: E or L_PEER differ, and no image of G is staged. -/
def epochDiffers (s : State) (gen : Nat) (e : Int) (lPeer : Nat) : Bool :=
  !stagedGen s gen && (match s.img.active with
    | some im => im.node.e != e || im.node.lPeer != lPeer
    | none => true)

/-! Counts (R492, R493) -/

def bcNone : Bcast := ⟨false, 0, 0, [], 0, [], [], false, false, none, false, 0, false⟩

/-- A broadcast that the node holds: of a selector, or the ACTIVATE. -/
def bcastOf (s : State) (act : Bool) (sel : Nat) : Option Bcast := s.ilk.bcasts.find? (fun b => b.act == act && (act || b.sel == sel))

def sameBcast (a b : Bcast) : Bool := a.act == b.act && (a.act || a.sel == b.sel)

/-- The broadcast takes the place of the one it follows. -/
def setBcast (s : State) (b : Bcast) : State :=
  modIlk s (fun u => { u with bcasts := if u.bcasts.any (sameBcast b) then u.bcasts.map (fun x => if sameBcast b x then b else x) else u.bcasts ++ [b] })

/-- G, E and L_PEER of an ACTIVATE payload. -/
def actGen (b : Bcast) : Nat := beAt b.payload 0 2
def actE (b : Bcast) : Int := signed 8 (byteAt b.payload 2)
def actLPeer (b : Bcast) : Nat := byteAt b.payload 3
def actEA (b : Bcast) : Nat := beAt b.payload 4 8 % 2 ^ 48

/-- This node refuses (R127, R129). -/
def refuses (s : State) (b : Bcast) : Bool := b.act && (b.refused || epochDiffers s (actGen b) (actE b) (actLPeer b))

/-- Leaves expected of a child (R305, R492): its ACK's count, or what is last known of it. -/
def childExpected (s : State) (b : Bcast) (c : ChildEnt) : Nat :=
  match lookup b.acks c.node with
  | some a => a.expected
  | none => lookupD s.sealing.expects c.node c.leaves

/-- The orphans' ACKs that count for a child: those of its own orphans, when it has not acknowledged or lists an orphan as missing (R493). -/
def orphansOf (b : Bcast) (c : ChildEnt) : List (Nat × AckInfo) :=
  let mine := b.orphans.filter (fun o => o.2.parent == c.node)
  match lookup b.acks c.node with
  | none => mine
  | some a => if a.miss.isEmpty then [] else mine.filter (fun o => decide (2 ^ 32 ≤ o.1) || a.miss.any (fun m => m % 2 ^ 24 == o.1))

/-- Reached and joined of a child with its orphans, never more than is expected of it. -/
def childReached (s : State) (b : Bcast) (c : ChildEnt) : Nat × Nat :=
  let a := lookup b.acks c.node
  let os := orphansOf b c
  let r := ((a.map (·.reached)).getD 0) + sumOf (os.map (·.2.reached))
  let j := ((a.map (·.joined)).getD 0) + sumOf (os.map (·.2.joined))
  (min r (max ((a.map (·.reached)).getD 0) (childExpected s b c)), j)

/-- A list entry: REFUSED, H and node. -/
def missEntry (refused : Bool) (h node : Nat) : Nat := flag refused * 2 ^ 31 + h * 2 ^ 24 + node

/-- The list entries that say REFUSED. -/
def refusedEntries (a : AckInfo) : List Nat := a.miss.filter (fun m => decide (2 ^ 31 ≤ m))

/-- An ACK shows a refusal, its sender's or one below it. -/
def showsRefusal (a : AckInfo) : Bool := a.refused || !(refusedEntries a).isEmpty

/-- The refusals of a child's counted orphans; one whose node its relayed ACK does not name stands as its primary parent's. -/
def orphanRefusals (b : Bcast) (h : Nat) (c : ChildEnt) : List Nat :=
  (orphansOf b c).flatMap (fun o => refusedEntries o.2 ++
    (if o.2.refused then [if o.1 < 2 ^ 32 then missEntry true (h - 1) o.1 else missEntry true h c.node] else []))

/-- What the node lists for a child. -/
def childMiss (s : State) (b : Bcast) (h : Nat) (c : ChildEnt) : List Nat :=
  let short := decide ((childReached s b c).1 < childExpected s b c)
  (match lookup b.acks c.node with
   | none => if short then [missEntry false h c.node] else []
   | some a =>
     let known := (orphansOf b c).map (·.1)
     let own := if short then a.miss.filter (fun m => !known.contains (m % 2 ^ 24)) else refusedEntries a
     own ++ (if a.refused then [missEntry true h c.node] else [])) ++ orphanRefusals b h c

/-- SWITCHED of a child with its counted orphans. -/
def childSwitched (b : Bcast) (c : ChildEnt) : Nat := ((lookup b.acks c.node).map (·.switched)).getD 0 + sumOf ((orphansOf b c).map (·.2.switched))

/-- The children that are expected to answer: those not departed (R305). -/
def expectedKids (s : State) : List ChildEnt :=
  let kids := (List.range (childrenOf (topoOf s)).length).zip (childrenOf (topoOf s))
  (kids.filter (fun k => !departed s (epochNow s) k.1)).map (·.2)

/-- The node's counts for a broadcast, with at most `cap` list entries (R492, R493). -/
def ownInfo (s : State) (b : Bcast) (cap : Nat) : AckInfo :=
  let sw := if b.act then flag (stagedGen s (actGen b)) else 0
  let parent := (s.img.active.map (·.node.parentPri)).getD 0
  if roleOf s = 1 then ⟨refuses s b, false, 1, flag b.joined, 1, sw, parent, []⟩
  else
    let kids := expectedKids s
    let miss := (kids.map (childMiss s b (nodeH s - 1))).flatten
    { refused := refuses s b, overflow := decide (cap < miss.length) || b.acks.any (·.2.overflow),
      reached := sumOf (kids.map (fun c => (childReached s b c).1)), joined := sumOf (kids.map (fun c => (childReached s b c).2)),
      expected := sumOf (kids.map (childExpected s b)),
      switched := if b.act then sumOf (kids.map (childSwitched b)) + sw else 0,
      parent := parent, miss := miss.take cap }

/-- Some node below refuses, a counted orphan among them. -/
def refusalBelow (s : State) (b : Bcast) : Bool :=
  b.acks.any (fun a => showsRefusal a.2) || (childrenOf (topoOf s)).any (fun c => (orphansOf b c).any (fun o => showsRefusal o.2))

/-- REACHED has come up to EXPECTED with no refusal below (R493). -/
def fullyReached (s : State) (b : Bcast) : Bool :=
  let i := ownInfo s b 32
  decide (i.expected ≤ i.reached) && !refusalBelow s b

/-- An ACK goes to the parent and is remembered. -/
def sendAck (s : State) (b : Bcast) (update : Bool) : State :=
  let i := ownInfo s b 32
  setBcast (queueAck s b.act b.id update i) { b with sentAck := some i }

/-- ACK_BY less four µs a hop: the deadline A_h of a node at height h (R493). -/
def ackDeadline (s : State) (b : Bcast) : Nat :=
  let hm := (s.img.active.map (·.node.hmax)).getD 0
  b.ackBy - (hm - nodeH s) * 4000

/-- A broadcast's ACK, or its UPDATE, is sent when it falls due (R493). -/
def evalBcast (s : State) (b : Bcast) : State :=
  if roleOf s = 3 then s
  else match b.sentAck with
    | none => if fullyReached s b then sendAck s b false else s
    | some a => if a ≠ ownInfo s b 32 ∧ tb0Ns s < b.ackBy then sendAck s b true else s

/-- Every broadcast held is looked at again, where the counts or the staged image may have changed. -/
def evalBcasts (s : State) : State := s.ilk.bcasts.foldl evalBcast s

/-! Acceptance (R490, R491, R493) -/

/-- The broadcast is held, forwarded on every downlink, and answered by a Newt at once. -/
def takeBcast (s : State) (b : Bcast) : State :=
  let s1 := setBcast s { b with retryAt := tb0Ns s + 10000 }
  let s2 := queueAll s1 (downlinks (topoOf s)) 2 (if b.act then 2 else 1) (if b.act then tyActivate else tyStart) b.payload
  let s3 := modIlk s2 (fun u => if b.act then { u with actid := b.id }
    else { u with bcid := if newer 32 b.id u.bcid then b.id else u.bcid, selIds := setKey u.selIds b.sel b.id })
  match bcastOf s3 b.act b.sel with
  | some k => evalBcast s3 k
  | none => s3

/-- The job of a selector as the latest accepted START leaves it. -/
def latestSel (s : State) (sel : Nat) : Option (Nat × Nat) :=
  match (s.red.selPend.filter (fun p => p.sel == sel)).getLast? with
  | some p => some (p.job, p.gen)
  | none => s.red.sels.getD sel none

/-- A START comes into force at its time, or from the next edge where it came late (R258, R491). -/
def pendSel (s : State) (sel job gen start : Nat) : State :=
  modRed s (fun u => { u with selPend := u.selPend ++ [⟨sel, job, gen, start, decide (start < tb0Ns s)⟩] })

/-- A START is accepted: its ID is newer, and its job or generation is (R490). -/
def startNews (s : State) (id sel job gen : Nat) : Bool :=
  (match lookup s.ilk.selIds sel with
   | some x => newer 32 id x
   | none => true) &&
  (match latestSel s sel with
   | some (j, g) => j != job || newer 8 gen g
   | none => true)

/-- The latest ACK again (R490). -/
def repeatAck (s : State) (act : Bool) (sel : Nat) : State :=
  match bcastOf s act sel with
  | some b => (match b.sentAck with
    | some a => queueAck s act b.id false a
    | none => s)
  | none => s

/-- START_RECEIVE. -/
def startReceiveOp (s : State) (p : Nat) (f0 : Bytes) : State :=
  match rxFrame s p f0 tyStart with
  | (s1, none) => s1
  | (s1, some f) =>
    let b := f.payload
    let id := beAt b 0 4
    let sel := byteAt b 7 % 4
    let start := stampTotal (stampAt b 8)
    if !startNews s1 id sel (beAt b 4 2) (byteAt b 6) then repeatAck s1 false sel
    else
      let late := decide (start < tb0Ns s1)
      takeBcast (pendSel s1 sel (beAt b 4 2) (byteAt b 6) start)
        { bcNone with id := id, sel := sel, payload := b.take 32, ackBy := stampTotal (stampAt b 0x12), joined := late }

/-- ACTIVATE_RECEIVE (R128, R130, R142). -/
def activateReceiveOp (s : State) (p : Nat) (f0 : Bytes) : State :=
  match rxFrame s p f0 tyActivate with
  | (s1, none) => s1
  | (s1, some f) =>
    let b := f.payload
    let id := beAt b 0x0C 4
    let gen := beAt b 0 2
    let eA := beAt b 4 8 % 2 ^ 48
    if (s1.ilk.bcasts.any (·.act) && !newer 32 id s1.ilk.actid) then repeatAck s1 true 0
    else
      let refused := tooSoon s1 eA
      let s2 := rwSet (rwSet s1 (.actEpoch false) (eA % 2 ^ 32)) (.actEpoch true) (gen * 65536 + eA / 2 ^ 32 % 65536)
      let s3 := if refused then modImg s2 (fun u => { u with refused := true })
        else scheduleAt s2 gen eA (signed 8 (byteAt b 2)) (byteAt b 3)
      let late := !refused && ((s3.img.sched.map (·.late)).getD false)
      takeBcast s3 { bcNone with act := true, id := id, payload := b.take 32, ackBy := (edgeNs s.time.grid eA).toNat, joined := late, refused := refused }

/-! ACKs (R492 to R494) -/

def ackAt (b : Bytes) : AckInfo :=
  let fl := byteAt b 5
  { refused := fl.testBit 1, overflow := fl.testBit 3, reached := beAt b 8 4 % 2 ^ 21, joined := beAt b 0x0C 4, expected := beAt b 0x10 4 % 2 ^ 21,
    switched := beAt b 0x14 4, parent := beAt b 0x18 4 % 2 ^ 24, miss := (List.range (beAt b 6 2)).map (fun i => beAt b (0x20 + 4 * i) 4) }

/-- A relayed ACK with ORPHAN joins the broadcast. It names no sender: it is the update of one that came the same way for the same parent and EXPECTED
with less reached; else a further orphan's, while EXPECTED of all of them stays within what is expected of the parent; else a repeat (log entry 150). -/
def relayedOrphan (s : State) (k : Bcast) (src : Nat) (c : ChildEnt) (a : AckInfo) : Bcast :=
  let like (o : Nat × AckInfo) : Bool := decide (2 ^ 32 ≤ o.1) && o.1 % 2 ^ 32 == src && o.2.parent == a.parent && o.2.expected == a.expected
  let all := sumOf ((k.orphans.filter (fun o => o.2.parent == a.parent)).map (·.2.expected))
  match k.orphans.find? (fun o => like o && decide (o.2.reached < a.reached)) with
  | some o => { k with orphans := setKey k.orphans o.1 a }
  | none =>
    if all + a.expected ≤ childExpected s k c then { k with orphans := setKey k.orphans ((k.orphans.length + 1) * 2 ^ 32 + src) a }
    else match k.orphans.find? like with
      | some o => { k with orphans := setKey k.orphans o.1 a }
      | none => k

/-- ACK_RECEIVE. -/
def ackReceiveOp (s : State) (p : Nat) (f0 : Bytes) : State :=
  match rxFrame s p f0 tyAck with
  | (s1, none) => s1
  | (s1, some f) =>
    let b := f.payload
    let a := ackAt b
    let orphan := (byteAt b 5).testBit 2
    let t := topoOf s1
    match childNode t f.src with
    | none => s1
    | some c =>
      if orphan && c.standby && (childIndex t a.parent).isNone then
        (match activeUplink s1 with
         | some u => queueFrame s1 u 2 0 tyAck b
         | none => s1)
      else match s1.ilk.bcasts.find? (fun x => x.act == (byteAt b 4 == 1) && x.id == beAt b 0 4) with
        | none => s1
        | some k =>
          let k1 := if !orphan then (if c.standby then k else { k with acks := setKey k.acks f.src a })
            else if (childIndex t a.parent).isNone then k
            else if c.standby then { k with orphans := setKey k.orphans f.src a }
            else match childNode t a.parent with
              | some p => relayedOrphan s1 k f.src p a
              | none => k
          evalBcast (setBcast s1 k1) k1

/-- ACK_DEADLINE: the earliest deadline A_h of a broadcast without an ACK (R493). -/
def ackDeadlineOp (s : State) : State :=
  let due := s.ilk.bcasts.filter (fun b => b.sentAck.isNone)
  match (sortBy (fun b => ackDeadline s b) due).head? with
  | some b => if roleOf s = 3 ∨ roleOf s = 0 ∨ quiet s then s else sendAck (advanceTb0 s (ackDeadline s b)) b false
  | none => s

/-- START_RETRY: every 10 µs until A_h, each child that has not acknowledged is sent the broadcast again (R495). -/
def startRetryOp (s : State) : State :=
  let live := s.ilk.bcasts.filter (fun b => !b.done && decide (b.retryAt < ackDeadline s b))
  match (sortBy (fun b => b.retryAt) live).head? with
  | none => s
  | some b =>
    if roleOf s < 2 ∨ quiet s then s
    else
      let s1 := advanceTb0 s b.retryAt
      let late := (childrenOf (topoOf s1)).filter (fun c => (lookup b.acks c.node).isNone)
      let s2 := queueAll s1 (late.map (·.port)) 2 (if b.act then 2 else 1) (if b.act then tyActivate else tyStart) b.payload
      setBcast s2 { b with retryAt := max (tb0Ns s1) b.retryAt + 10000 }

/-! The Dome (R489, R496) -/

def bcWord (s : State) (r : Nat → RwReg) : Nat := (rwGet s (r 1) + rwGet s (r 2) % 65536 * 2 ^ 32) * 10 ^ 9 + rwGet s (r 0)

def modResult (s : State) (f : BcResult → BcResult) : State := modIlk s (fun u => { u with result := f u.result })

/-- A broadcast is pending. -/
def bcPending (s : State) : Bool := s.ilk.result.outcome == 3

/-- START_ISSUE: the write of ILK_BC_GO. -/
def startIssueOp (s : State) : State :=
  if roleOf s ≠ 3 then s
  else
    let ackBy := bcWord s .bcAckby
    let hm := (s.img.active.map (·.node.hmax)).getD 0
    if bcPending s || decide (ackBy < tb0Ns s + hm * 8000) then modResult s (fun r => { r with refused := true })
    else
      let j := rwGet s .bcJob
      let sel := j / 2 ^ 24 % 4
      let gen := j / 65536 % 256
      let job := j % 65536
      let id := (s.ilk.bcid + 1) % 2 ^ 32
      let start := bcWord s .bcStart
      let s1 := modResult s (fun r => { r with outcome := 3, act := false, id := id })
      takeBcast (pendSel s1 sel job gen start)
        { bcNone with id := id, sel := sel, payload := startPayload id job gen sel (stampNs start) (stampNs ackBy), ackBy := ackBy, joined := decide (start < tb0Ns s) }

/-- ACTIVATE_ISSUE: the Dome broadcasts the activation that MCU_ACT_EPOCH holds, with its own E and L_PEER, and takes part in it (R128). -/
def activateIssueOp (s : State) : State :=
  match s.img.active with
  | none => s
  | some im =>
    if im.role ≠ 3 || bcPending s || quiet s then s
    else
      let hi := rwGet s (.actEpoch true)
      let gen := hi / 65536
      let eA := rwGet s (.actEpoch false) + hi % 65536 * 2 ^ 32
      let id := (s.ilk.actid + 1) % 2 ^ 32
      let refused := tooSoon s eA
      let s1 := if refused then modImg s (fun u => { u with refused := true }) else scheduleAt s gen eA im.node.e im.node.lPeer
      let s2 := modResult s1 (fun r => { r with outcome := 3, act := true, id := id })
      let pl := activatePayload gen im.node.e im.node.lPeer eA id
      let by_ := (edgeNs s.time.grid eA).toNat
      takeBcast s2 { bcNone with act := true, id := id, payload := pl, ackBy := by_, refused := refused }

/-- BROADCAST_OUTCOME: at ACK_BY of the pending broadcast (R131, R143, R496). -/
def broadcastOutcomeOp (s : State) : State :=
  match s.ilk.bcasts.find? (fun b => b.act == s.ilk.result.act && b.id == s.ilk.result.id) with
  | none => s
  | some b =>
    if !bcPending s || roleOf s ≠ 3 then s
    else
      let s1 := advanceTb0 s b.ackBy
      let i := ownInfo s1 b 255
      let complete := decide (i.reached = i.expected) && !refusalBelow s1 b && !i.refused
      let s2 := modResult (setBcast s1 { b with done := true }) (fun r => { r with
        outcome := if complete then 1 else 2, overflow := i.overflow, reached := i.reached, joined := i.joined, expected := i.expected, miss := i.miss,
        irq := true })
      if b.act then modImg s2 (fun u => { u with outcome := if complete then 1 else 2, reached := i.reached % 2 ^ 24, switched := i.switched % 2 ^ 24 })
      else s2

/-! Selectors at an edge (R258, R491) -/

/-- The START of a selector that comes into force at the edge of `x`: the latest accepted one whose time has come, and those after it. -/
def selDue (x : Int) (l : List SelPend) : Option SelPend × List SelPend :=
  let ok (p : SelPend) : Bool := p.join || decide ((p.start : Int) * 1024 ≤ x)
  match (l.filter ok).getLast? with
  | none => (none, l)
  | some k => (some k, (l.reverse.takeWhile (fun p => p != k)).reverse)

/-- Selectors at the edge that begins epoch `x`; a late START's record carries JOIN. -/
def selStrobe (s : State) (x : Nat) : State :=
  let e := edgeTick s.time.grid x
  let due := (List.range 4).map (fun n => selDue e (s.red.selPend.filter (fun p => p.sel == n)))
  let sels := (due.zip s.red.sels).map (fun p => match p.1.1 with
    | some k => some (k.job, k.gen)
    | none => p.2)
  let pend := (due.map (·.2)).flatten
  let join := due.any (fun d => match d.1 with
    | some k => k.join
    | none => false)
  let s1 := modRed s (fun u => { u with sels := sels, selPend := pend, selHist := (u.selHist.drop (u.selHist.length - 23)) ++ [⟨x, sels⟩] })
  if join then modCap s1 (fun c => { c with join := true }) else s1

end Sys2Proof.Machine
end

