-- ==== Sys2Proof/Machine/Mirror.lean ====
section
/-!
DEFINITION. Mirrors and the sync of a spare (R579 to R589): the mirror block, MIRROR, SYNC_REQ and SYNC_DATA, the sync's application at an epoch
edge, and rebuilding. The detector pass that sends a MIRROR is here too (R428, R583).
-/
namespace Sys2Proof.Machine

def modMir (s : State) (f : MirU → MirU) : State := { s with mir := f s.mir }

/-! The block (R580, R581) -/

/-- A detector entry's 64 bytes. -/
def mirDet (k : Det) : Bytes :=
  toBe 8 k.m ++ toBe 8 k.v ++ toBe 8 k.sp ++ toBe 8 k.sn ++ toBe 8 k.u ++ toBe 2 k.w ++ toBe 6 ((k.raised.map (·.2)).foldl max 0) ++ toBe 4 k.win ++ zeros 12

/-- A stateful feature's 16 bytes. -/
def mirFeat (st : List (Nat × Nat)) (p : Nat × FeatDesc) : Bytes :=
  toBe 8 (lookupD st p.1 0) ++ toBe 1 (flag (lookup st p.1).isSome) ++ toBe 4 p.2.hash ++ zeros 3

/-- A STRAG entry's list and table. -/
def mirStrag (d : DetEnt) (k : Det) : Bytes :=
  let row (i : Nat) : Bytes := (match k.rows[i]? with
    | some r => toBe 4 r.leaf ++ toBe 4 r.map
    | none => zeros 8)
  padTo 16 (((List.range d.n).map (fun i => toBe 4 (k.sl.getD i 0))).flatten ++ ((List.range 256).map row).flatten)

def mirBody (s : State) (im : Image) : Bytes :=
  let ds := (List.range im.detect.dets.length).zip im.detect.dets
  (ds.map (fun p => mirDet (detAt s p.1))).flatten ++ ((statefulFeats im).map (mirFeat s.feat.state)).flatten ++
    ((ds.filter (fun p => p.2.kind == 4)).map (fun p => mirStrag p.2 (detAt s p.1))).flatten

/-- A block with MCRC. -/
def mirBlock (kind : Nat) (isNone : Bool) (node epoch : Nat) (stamp : Bytes) (gen sp dome dets feats : Nat) (body : Bytes) : Bytes :=
  let h := toBe 2 0x4D52 ++ toBe 1 kind ++ toBe 1 (flag isNone) ++ toBe 4 node ++ toBe 8 epoch ++ stamp ++ toBe 2 gen ++ toBe 4 (64 + body.length) ++
    toBe 8 sp ++ toBe 8 dome ++ toBe 2 dets ++ toBe 2 feats ++ zeros 8
  sealCrc (h ++ zeros 4 ++ body)

/-- A bucket's level at END(e) (R580): what TB2 had added to it by then. -/
def levelAt (s : State) (cap level at0 x : Nat) : Nat := min cap (level + (tb2Ns s - sinceEnd s x - at0))

/-- The node's MIRROR of epoch `e`. -/
def mirOwn (s : State) (im : Image) (e : Nat) : Bytes :=
  mirBlock 1 false im.nodeId e (stampBytes toBe (edgeStamp s.time.grid (e + 1))) (genAt s e) (levelAt s (spCap s) s.vrd.spLevel s.vrd.spAt e)
    (if im.role = 3 then levelAt s (domeCap s) s.vrd.domeLevel s.vrd.domeAt e else 0) im.detect.dets.length (statefulFeats im).length (mirBody s im)

/-- A block without a body: a SYNC_REQ, or a SYNC_DATA with NONE. Its other header fields are free. -/
def mirEmpty (s : State) (kind : Nat) (isNone : Bool) (node : Nat) : State × Bytes :=
  let w (k : Nat) : Nat := (Config.mirOpen (s.freeDraws + k)).toNat
  ({ s with freeDraws := s.freeDraws + 5 },
   mirBlock kind isNone node (w 0 % 2 ^ 48) (stampBytes toBe ⟨w 1 % 2 ^ 48, w 2 % 10 ^ 9⟩) (w 2 / 2 ^ 32 % 65536) (w 3) (w 4) 0 0 [])

/-- MAGIC and MCRC hold over the LENGTH bytes (R582). -/
def mirOk (b : Bytes) : Bool :=
  let n := beAt b 0x1C 4
  decide (64 ≤ n ∧ n ≤ b.length) && beAt b 0 2 == 0x4D52 && crc32c (patch (b.take n) 0x3C (zeros 4)) == beAt b 0x3C 4

def mirKind (b : Bytes) : Nat := byteAt b 2

/-! Sending -/

/-- A block waits on a buddy port, by the current epoch (R582). -/
def sendMir (s : State) (p : Nat) (b : Bytes) : State := queueRec s p 6 (epochNow s) (genAt s (epochNow s)) false b

/-- The mirror of `e` is sent where its period falls on it (R583), while the port is UP. -/
def mirrorSend (s : State) (e : Nat) : State :=
  match s.img.active with
  | none => s
  | some im =>
    match mirrorPort im with
    | some p =>
      if e % 2 ^ (rwGet s .mirCfg % 16) = 0 ∧ portUp s p ∧ !publishesRebuild s ∧ !silentFor s e then sendMir s p (mirOwn s im e) else s
    | none => s

/-- DETECTOR_PASS (R428), with its mirror. -/
def detectorPassOp (s : State) : State :=
  match passDue s with
  | (s1, some e) => mirrorSend s1 e
  | (s1, none) => s1

/-- SYNC_REQ_SEND (R585). -/
def syncReqSendOp (s : State) : State :=
  match s.img.active.bind mirrorPort with
  | some p =>
    if s.mir.sync ≠ 0 ∨ s.mir.decided ∨ !portUp s p ∨ !gridRuns s ∨ quiet s then s
    else
      let r := mirEmpty s 2 false (nodeId s)
      modMir (sendMir r.1 p r.2) (fun u => { u with sync := 1, askedAt := tb0Ns s, fails := 0 })
  | none => s

/-! Receiving (R579, R582) -/

/-- The oldest block reassembled on a buddy port is taken by the command of its kind; one whose check fails is discarded and counted by any of
them, and one of no kind by MIRROR_RECEIVE. -/
def takeBlock (s : State) (p kind : Nat) : State × Option Bytes :=
  match (portAt s p).rxUp with
  | [] => (s, none)
  | r :: rest =>
    if quiet s || kindOfPort s p != 4 || decide (roleOf s < 2) then (s, none)
    else
      let gone := freeCells (modPort s p (fun k => { k with rxUp := rest })) p r.cells
      if !mirOk r.data then (rcInc gone .mcuMirBad, none)
      else if mirKind r.data = kind then (gone, some (r.data.take (beAt r.data 0x1C 4)))
      else if kind = 1 ∧ (mirKind r.data = 0 ∨ 3 < mirKind r.data) then (gone, none)
      else (s, none)

/-- MIRROR_RECEIVE: the mirror replaces an older one of its node, or takes one of two places (R579, R583). -/
def mirrorReceiveOp (s : State) (p : Nat) : State :=
  match takeBlock s p 1 with
  | (s1, none) => s1
  | (s1, some b) =>
    let m : Mirror := ⟨beAt b 4 4 % 2 ^ 24, beAt b 8 8 % 2 ^ 48, beAt b 0x1A 2, (stampAt b 0x10).sec * 10 ^ 9 + (stampAt b 0x10).ns, b⟩
    if s1.mir.held.any (fun x => x.node == m.node) then
      modMir s1 (fun u => { u with held := u.held.map (fun x => if x.node = m.node ∧ x.epoch ≤ m.epoch then m else x) })
    else if s1.mir.held.length < 2 then modMir s1 (fun u => { u with held := u.held ++ [m] })
    else rcInc s1 .mcuMirRefused

/-- A held mirror may be sent (R586): generation and age. -/
def mirFresh (s : State) (m : Mirror) : Bool :=
  m.gen == genAt s (epochNow s) && decide (rwGet s .mirAge ≠ 0 ∧ tb0Ns s ≤ m.stamp + rwGet s .mirAge * 10 ^ 9)

/-- SYNC_REQ_RECEIVE (R586). -/
def syncReqReceiveOp (s : State) (p : Nat) : State :=
  match takeBlock s p 2 with
  | (s1, none) => s1
  | (s1, some b) =>
    let node := beAt b 4 4 % 2 ^ 24
    match s1.mir.held.find? (fun m => m.node == node && mirFresh s1 m) with
    | some m => sendMir s1 p (sealCrc (patch (patch m.data 2 (toBe 1 3)) 0x3C (zeros 4)))
    | none => let r := mirEmpty s1 3 true node; sendMir r.1 p r.2

/-- SYNC_DATA_RECEIVE (R587, R588): a mirror waits for the edge; NONE decides FRESH, or a rebuild where SPARE is 1; a second failed check abandons. -/
def syncDataReceiveOp (s : State) (p : Nat) : State :=
  let bad := (match (portAt s p).rxUp with
    | r :: _ => !mirOk r.data && kindOfPort s p == 4 && !quiet s && decide (2 ≤ roleOf s)
    | [] => false)
  match takeBlock s p 3 with
  | (s1, none) =>
    if !bad || !syncOpen s1 then s1
    else if 1 ≤ s1.mir.fails then abandonSync s1 else modMir s1 (fun u => { u with fails := u.fails + 1 })
  | (s1, some b) =>
    if !syncOpen s1 then s1
    else if (byteAt b 3).testBit 0 then
      (if (rwGet s1 .mirCfg).testBit 8 then rebuildNode s1
       else
         let s2 := modVrd s1 (fun u => { u with
           dets := u.dets.map (fun _ => detNone), spLevel := 0, spAt := tb2Ns s1, domeLevel := 0, domeAt := tb2Ns s1 })
         modMir s2 (fun u => { u with sync := 4, decided := true }))
    else modMir s1 (fun u => { u with sync := 2, apply := some b })

/-- SYNC_WAIT_EXPIRY (R588). -/
def syncWaitExpiryOp (s : State) : State :=
  if syncOpen s then abandonSync (advanceTb0 s (s.mir.askedAt + rwGet s .syncWait * 10 ^ 6)) else s

/-- The first segment of a SYNC_DATA makes the sync RECEIVING. -/
def noteReceiving (s : State) (p : Nat) : State :=
  let started := (match (portAt s p).reUp with
    | some r => mirKind r.data == 3
    | none => false)
  if s.mir.sync == 1 && kindOfPort s p == 4 && started then modMir s (fun u => { u with sync := 2 }) else s

/-! At an epoch edge (R587, R589) -/

/-- A detector entry of a mirror; `self` the subject whose last raise the block holds. -/
def detFrom (b : Bytes) (i self : Nat) : Det :=
  let o := 64 + 64 * i
  let last := beAt b (o + 42) 6
  { detNone with m := beAt b o 8, v := beAt b (o + 8) 8, sp := beAt b (o + 16) 8, sn := beAt b (o + 24) 8, u := beAt b (o + 32) 8, w := beAt b (o + 40) 2,
                 raised := if last = 0 then [] else [(self, last)], win := beAt b (o + 48) 4 }

/-- The list and rows of a STRAG entry at offset `o`. -/
def stragFrom (b : Bytes) (o : Nat) (d : DetEnt) (k : Det) : Det :=
  let sl := ((List.range d.n).map (fun i => beAt b (o + 4 * i) 4)).reverse.dropWhile (· == 0)
  let rows := (List.range 256).map (fun i => (⟨beAt b (o + 4 * d.n + 8 * i) 4, beAt b (o + 4 * d.n + 8 * i + 4) 4, i + 1⟩ : TrackRow))
  { k with sl := sl.reverse, rows := rows.filter (fun r => r.map != 0), marks := 256, raised := [] }

/-- Detector states of a mirror, entry by entry; `o` runs over the STRAG parts. -/
def detsFrom (b : Bytes) (self : Nat) : List DetEnt → Nat → Nat → List Det
  | [], _, _ => []
  | d :: ds, i, o =>
    let k := detFrom b i self
    if d.kind = 4 then stragFrom b o d k :: detsFrom b self ds (i + 1) (o + stragMirror d) else k :: detsFrom b self ds (i + 1) o

/-- Feature states of a mirror, matched by HASH. -/
def featsFrom (b : Bytes) (im : Image) (o n : Nat) : List (Nat × Nat) :=
  (statefulFeats im).filterMap (fun p =>
    ((List.range n).find? (fun i => beAt b (o + 16 * i + 9) 4 == p.2.hash && byteAt b (o + 16 * i + 8) == 1)).map (fun i => (p.1, beAt b (o + 16 * i) 8)))

/-- A SYNC_DATA that waits is applied at the edge: levels, features, baselines; the passes still due are left untested. -/
def syncApply (s : State) : State :=
  match s.mir.apply, s.img.active with
  | some b, some im =>
    let gone := tb0Ns s - ((stampAt b 0x10).sec * 10 ^ 9 + (stampAt b 0x10).ns)
    let nd := beAt b 0x30 2
    let nf := beAt b 0x32 2
    let o := 64 + 64 * nd
    let s1 := s.vrd.due.foldl (fun t d => readerVrd t d.epoch) s
    let ds := if nd = im.detect.dets.length then detsFrom b (selfSubject im) im.detect.dets 0 (o + 16 * nf) else s1.vrd.dets
    let s2 := modVrd s1 (fun u => { u with
      due := [], dets := ds, spLevel := min (spCap s) (beAt b 0x20 8 + gone), spAt := tb2Ns s,
      domeLevel := if im.role = 3 then min (domeCap s) (beAt b 0x28 8 + gone) else u.domeLevel, domeAt := tb2Ns s })
    let s3 := modFeat s2 (fun u => { u with state := featsFrom b im o nf })
    modMir s3 (fun u => { u with sync := 3, apply := none, decided := true })
  | _, _ => s

/-- The edge: the sync, and one epoch of a rebuild gone. -/
def mirStrobe (s : State) : State :=
  let s1 := syncApply s
  if s1.mir.sync = 5 then modMir s1 (fun u => { u with left := u.left - 1 }) else s1

/-- REBUILD_END: MCU_REBUILD epochs have passed; the warm-up is WARMUP again (R430). -/
def rebuildEndOp (s : State) : State :=
  if s.mir.sync = 5 ∧ s.mir.left = 0 then
    modMir (modVrd s (fun u => { u with dets := u.dets.map (fun k => { k with warmup := none }) })) (fun u => { u with sync := 6, decided := true })
  else s

/-- MCU_MIR_STAT. -/
def mirStatWord (s : State) : Nat := flag s.mir.abandoned * 65536 + s.mir.held.length * 256 + s.mir.sync

end Sys2Proof.Machine
end

