-- ==== Sys2Proof/Machine/Panel.lean ====
section
/-!
DEFINITION. The tray panel (R89, R590 to R603): settled edges, presses, the planned departure on both sides of the link, and plug-detects.
-/
namespace Sys2Proof.Machine

def modPnl (s : State) (f : PnlU → PnlU) : State := { s with pnl := f s.pnl }

/-- PANEL of the active image. -/
def panelSec (s : State) : Option PanelSec := s.img.active.bind (·.panel)

/-- A tray Spire. -/
def isTray (s : State) : Bool := (panelSec s).isSome && roleOf s == 2

/-! DEPART frames (R592) -/

def departBody (op cause node edep last leaves : Nat) : Bytes :=
  toBe 1 op ++ toBe 1 cause ++ zeros 2 ++ toBe 4 node ++ toBe 8 edep ++ toBe 8 last ++ toBe 4 leaves ++ zeros 4

/-- This node's EXPECT: its latest record's, or the leaves that TOPOLOGY gives its children. -/
def ownExpect (s : State) : Nat :=
  match s.red.own.head? with
  | some r => r.cov.expect
  | none => sumOf ((childrenOf (topoOf s)).map (·.leaves))

/-- A DEPART message waits on the primary uplink, where it leaves once that is UP (R595). -/
def sendUp (s : State) (op cause edep leaves : Nat) : State :=
  match uplinkPort s 0 with
  | some p => queueCtrl s p tyDepart (departBody op cause (nodeId s) edep 0 leaves)
  | none => s

/-- A REQUEST (R591). -/
def sendRequest (s : State) : State := sendUp (modPnl s (fun u => { u with askedAt := epochNow s })) 1 s.pnl.cause s.pnl.eD (ownExpect s)

/-- DRAIN_LEAD in force. -/
def drainLeadNow (s : State) : Nat := rwEff s .drainLead % 2048

/-- A short press, or REQUEST (R591); `cause` 1 BUTTON, 2 HOST. -/
def askDeparture (s : State) (cause : Nat) : State :=
  if !isTray s || !gridRuns s || quiet s then s
  else if s.pnl.dep = 0 then
    sendRequest (modPnl s (fun u => { u with dep := 1, cause := cause, eD := epochNow s + 1 + drainLeadNow s, rejoin := none }))
  else if s.pnl.dep = 1 then sendRequest s
  else s

/-- A long press, or CANCEL (R596); `cause` 1 BUTTON, 2 HOST. -/
def askCancel (s : State) (cause : Nat) : State := if !isTray s || s.pnl.dep == 0 || quiet s then s else sendUp s 4 cause 0 0

/-- DEPART_REQUEST_RETRY (R591). -/
def requestRetryOp (s : State) : State :=
  if isTray s && s.pnl.dep == 1 && decide (s.pnl.askedAt + drainLeadNow s ≤ epochNow s) && !quiet s then sendRequest s else s

/-- A DEPART frame of one OP, on a port that has passed R460. -/
def departIn (s : State) (p op : Nat) (b : Bytes) : State × Option Bytes :=
  if byteAt (frameAt b).payload 0 ≠ op then (s, none)
  else match rxFrame s p b tyDepart with
    | (s1, some f) => (s1, some f.payload)
    | (s1, none) => (s1, none)

def departNode (d : Bytes) : Nat := beAt d 4 4 % 2 ^ 24
def departEpoch (d : Bytes) : Nat := beAt d 8 8 % 2 ^ 48

/-- The child on the port, where the message names it: its index. -/
def departChild (s : State) (p : Nat) (d : Bytes) : Option Nat :=
  match childOnPort (topoOf s) p with
  | some c => if c.node = departNode d then childIndex (topoOf s) c.node else none
  | none => none

/-! The parent (R593, R595, R596) -/

/-- A record of the child has been asked for, may still come, and has not come. -/
def openAsk (s : State) (c : ChildEnt) : Bool :=
  (portAt s c.port).asked.any (fun a => a.1.2 == 1 && inWindow s a.1.1 && !(workAt s a.1.1).senders.contains c.node)

/-- SAFE goes to every granted child whose last epoch is sealed and of which no record is asked for (R595). -/
def safeCheck (s : State) : State :=
  s.sealing.grants.foldl (fun t g =>
    match (childrenOf (topoOf t))[g.1]? with
    | none => t
    | some c =>
      if sealedAt t (g.2.1 - 1) && !openAsk t c then
        queueCtrl (modSeal t (fun u => { u with grants := u.grants.filter (fun x => x.1 != g.1) })) c.port tyDepart (departBody 3 g.2.2 c.node 0 (g.2.1 - 1) 0)
      else t) s

/-- DEPART_REQUEST_RECEIVE (R593). -/
def departRequestOp (s : State) (p : Nat) (b : Bytes) : State :=
  match departIn s p 1 b with
  | (s1, none) => s1
  | (s1, some d) =>
    match departChild s1 p d with
    | none => s1
    | some i =>
      let e := max (departEpoch d) (epochNow s1 + 2)
      let s2 := markDeparture s1 i e
      let s3 := modSeal s2 (fun u => { u with grants := u.grants.filter (fun g => g.1 != i) ++ [(i, e, byteAt d 1)] })
      safeCheck (queueCtrl s3 p tyDepart (departBody 2 (byteAt d 1) (departNode d) e 0 0))

/-- DEPART_CANCEL_RECEIVE (R596). -/
def departCancelOp (s : State) (p : Nat) (b : Bytes) : State :=
  match departIn s p 4 b with
  | (s1, none) => s1
  | (s1, some d) =>
    match departChild s1 p d with
    | none => s1
    | some i =>
      queueCtrl (clearDeparture s1 i (fullEpochLater s1)) p tyDepart (departBody 5 (byteAt d 1) (departNode d) (fullEpochLater s1) 0 0)

/-! The departing Spire (R593, R595, R596) -/

/-- A message about this node from its parent. -/
def departOwn (s : State) (p op : Nat) (b : Bytes) : State × Option Bytes :=
  match departIn s p op b with
  | (s1, some d) => (s1, if departNode d = nodeId s1 ∧ uplinkPort s1 0 = some p then some d else none)
  | (s1, none) => (s1, none)

/-- DEPART_GRANT_RECEIVE. -/
def departGrantOp (s : State) (p : Nat) (b : Bytes) : State :=
  match departOwn s p 2 b with
  | (s1, some d) => if s1.pnl.dep = 1 then modPnl s1 (fun u => { u with dep := 2, eD := departEpoch d }) else s1
  | (s1, none) => s1

/-- DEPART_SAFE_RECEIVE. -/
def departSafeOp (s : State) (p : Nat) (b : Bytes) : State :=
  match departOwn s p 3 b with
  | (s1, some _) => if s1.pnl.dep = 2 then modPnl s1 (fun u => { u with dep := 3 }) else s1
  | (s1, none) => s1

/-- DEPART_CANCELLED_RECEIVE: IDLE again; the record of the rejoin epoch carries JOIN. -/
def departCancelledOp (s : State) (p : Nat) (b : Bytes) : State :=
  match departOwn s p 5 b with
  | (s1, some d) =>
    if s1.pnl.dep = 0 then s1
    else modPnl s1 (fun u => { u with dep := 0, rejoin := some (departEpoch d), eD := if u.dep = 1 then departEpoch d else u.eD })
  | (s1, none) => s1

/-! Settled edges and presses (R89, R590, R599) -/

/-- Cycles of a debounce, and of a long press. -/
def settleCycles : Nat := 524
def longCycles : Nat := 98304

/-- The slow cycle at which an edge that settles now began to settle, and TB0 then. -/
def settleStart (s : State) : Nat := slowCycle s - settleCycles
def settleStamp (s : State) : Stamp := stampNs (baseNs (baseAt s 0) (ceilDiv (settleStart s * 10 ^ 9) 32768))

/-- An event enters PNL_EVT, or is lost. -/
def pnlEvent (s : State) (input : Nat) (level : Bool) : State :=
  let s1 := modPnl s (fun u => { u with seq := (u.seq + 1) % 65536 })
  if 32 ≤ s.pnl.evts.length then rcInc s1 .pnlEvtLost else modPnl s1 (fun u => { u with evts := u.evts ++ [⟨input, level, s.pnl.seq, settleStamp s⟩] })

/-- A press has been held long enough (R590). -/
def pressLong (s : State) : State := askCancel (modPnl s (fun u => { u with long := true })) 1

/-- LONG_PRESS: at 98,304 cycles from the press's start, while the button is held. -/
def longPressOp (s : State) : State :=
  match s.pnl.press with
  | some c => if s.pnl.long then s else pressLong (advanceSlow s (c + longCycles))
  | none => s

/-- The attention button's edge: a press begins, or a release settles as a short press. -/
def buttonEdge (s : State) (level : Bool) : State :=
  if level then modPnl s (fun u => { u with press := some (settleStart s), long := false })
  else
    let s1 := modPnl s (fun u => { u with press := none, long := false })
    match s.pnl.press with
    | some c => if s.pnl.long then s1 else if settleStart s < c + longCycles then askDeparture s1 1 else askCancel s1 1
    | none => s1

/-- A plug-detect input falls (R599): a mapped child is marked as departed, and PNL_PULLED set for a mapped input. -/
def plugFall (s : State) (n : Nat) : State :=
  match (panelSec s).bind (fun k => k.plug[n]?) with
  | some (kind, idx) =>
    if kind = 0 then s
    else
      let s1 := if kind = 1 then markDeparture s idx (lowestUnsealed s) else s
      modPnl s1 (fun u => { u with pulled := u.pulled ||| 2 ^ n })
  | none => s

/-- PANEL_EDGE_SETTLED: buttons are inputs 0 to 3, plug-detect inputs 4 to 19. -/
def panelEdgeOp (s : State) (input : Nat) (level : Bool) : State :=
  let set (w i : Nat) : Nat := if level then w ||| 2 ^ i else w - w % 2 ^ (i + 1) + w % 2 ^ i
  let old := if input < 4 then s.pnl.btn.testBit input else s.pnl.plug.testBit (input - 4)
  if !Config.isSpireL s.integ || 20 ≤ input || old == level then s
  else
    let s1 := modPnl s (fun u => if input < 4 then { u with btn := set u.btn input } else { u with plug := set u.plug (input - 4) })
    if (panelSec s1).isNone then s1
    else
      let s2 := pnlEvent s1 input level
      if input = 0 then buttonEdge s2 level else if 4 ≤ input ∧ !level then plugFall s2 (input - 4) else s2

/-! Registers (R603, R604) -/

/-- PNL_EVT's pop: the oldest event leaves and is latched for the requester. -/
def eventPop (s : State) (rq : Requester) : State :=
  match s.pnl.evts with
  | e :: rest => modPnl s (fun u => { u with evts := rest, evtOut := aset u.evtOut rq e })
  | [] => s

/-- PNL_EVT as the pop reads it, and PNL_EVT_NS, SEC0 and SEC1 as latched. -/
def eventWord (s : State) : Nat :=
  match s.pnl.evts with
  | e :: _ => 2 ^ 31 + flag e.level * 2 ^ 30 + e.input * 65536 + e.seq
  | [] => 0

def eventStamp (s : State) (rq : Requester) (k : Nat) : Nat :=
  match aget s.pnl.evtOut rq with
  | some e => if k = 1 then e.stamp.ns else if k = 2 then e.stamp.sec % 2 ^ 32 else e.stamp.sec / 2 ^ 32
  | none => 0

/-- PNL_STAT. -/
def pnlStatWord (s : State) : Nat := s.pnl.plug * 65536 + s.pnl.btn * 256 + s.pnl.dep

/-- PNL_DEP_EPOCH: e_D in force. -/
def depEpochNow (s : State) : Nat := if s.pnl.dep = 0 then 0 else s.pnl.eD

/-- SEAL_DEPARTk: the marks in force. -/
def departWord (s : State) (k : Nat) : Nat :=
  sumOf ((List.range 32).map (fun b => if 32 * k + b < 176 ∧ departed s (epochNow s) (32 * k + b) then 2 ^ b else 0))

/-- An LED blinks: `half` slow cycles lit, as many dark. -/
def blink (s : State) (half : Nat) : Bool := slowCycle s / half % 2 == 0

/-- One LED's drive (R600); `irq0` is irq_o[0]. -/
def ledOn (s : State) (irq0 : Bool) (fn arg : Nat) : Bool :=
  match fn with
  | 1 => s.pnl.dep == 3
  | 2 => (s.pnl.dep == 1 || s.pnl.dep == 2) && blink s (if s.ilk.active = 1 then 4096 else 16384)
  | 3 => irq0
  | 4 => (portAt s arg).lstate == 2 || ((portAt s arg).lstate == 1 && blink s 4096)
  | 5 => (rwGet s .pnlLed).testBit arg
  | _ => false

/-- pnl_led_o: as PNL sets it while a PANEL section is in force, fail-silent or not (R97). -/
def ledWord (s : State) (irq0 : Bool) : Nat :=
  match panelSec s with
  | some k => sumOf ((List.range 8).map (fun i => if ledOn s irq0 ((k.led.getD i (0, 0)).1) ((k.led.getD i (0, 0)).2) then 2 ^ i else 0))
  | none => 0

end Sys2Proof.Machine
end

