-- ==== Sys2Proof/Machine/Clock.lean ====
section
/-!
DEFINITION. TIME apart from the epoch strobe: rates and steps (R147, R151 to R157), the next grid edge (R160 to R163), capture stamps (R172 to
R175), strobes and PPS (R176, R177).
-/
namespace Sys2Proof.Machine

def modTime (s : State) (f : TimeU → TimeU) : State := { s with time := f s.time }

/-- Base `n` changed; a base that the class lacks takes no change. -/
def modBase (s : State) (n : Nat) (f : Base → Base) : State := modTime s (fun t => { t with bases := t.bases.modify n f })

def hasBase (s : State) (n : Nat) : Bool := decide (n < s.time.bases.length)

/-- A refused rate, step or re-arm is counted (R151, R154, R155). -/
def refuseBase (s : State) (n : Nat) : State := modBase s n (fun b => { b with refused := satAdd 8 b.refused 1 })

/-! Rates (R147, R151, R152, R158) -/

/-- The 40-bit word of a rate. -/
def rateWord (r : Int) : Nat := unsigned 40 r

/-- The low word of a rate is held; TB1 ignores it. -/
def rateLow (s : State) (n d : Nat) : State := if n = 1 then s else modBase s n (fun b => { b with held := d })

/-- The high word commits the rate, or the write is refused and the held word discarded. Without a low word since, it goes with the low word that was last
committed, or after a refusal with that of the rate in force (log entry 135). -/
def rateHigh (s : State) (n d : Nat) : State :=
  if n = 1 then s
  else
    let b := baseAt s n
    let r := signed 40 (d % 256 * 2 ^ 32 + b.held)
    if r < -8796093022 ∨ 8796093022 < r then
      modBase (refuseBase s n) n (fun b => { b with held := rateWord b.rate % 2 ^ 32 })
    else modBase s n (fun b => { b with rateWait := b.rateWait ++ [(r, s.time.c)] })

/-- A base takes a new rate for the increment that reaches counter value `c` and for every later one; its course up to `c` − 1 stands (R147). -/
def newRate (c : Nat) (r : Int) (b : Base) : Base := { b with off := b.off + ((c - 1 : Nat) : Int) * (b.rate - r), rate := r, rateWait := b.rateWait.drop 1 }

/-- The oldest committed rate takes effect, 2 ns after its commit at the earliest (R152); TB1 follows TB0 (R158). -/
def rateApplyOp (s : State) (n : Nat) : State :=
  match (baseAt s n).rateWait with
  | [] => s
  | (r, c0) :: _ =>
    let s1 := advanceTo s (c0 + 2)
    let s2 := modBase s1 n (newRate s1.time.c r)
    if n = 0 then modBase s2 1 (newRate s2.time.c r) else s2

/-! Steps (R153 to R156) -/

/-- The delta of TIME_TBn_STEP0 to STEP2 in units of 2^-44 ns. -/
def stepDelta (s : State) (n : Nat) : Int :=
  signed 80 (rwGet s (.tbStep n 0) % 65536 + rwGet s (.tbStep n 1) * 2 ^ 16 + rwGet s (.tbStep n 2) * 2 ^ 48) * 2 ^ 28

/-- STEP_GO (R153, R154); TB2 is never armed. -/
def stepGoOp (s : State) (n : Nat) : State :=
  if !hasBase s n then s
  else if (baseAt s n).armed then modBase s n (fun b => { b with armed := false, stepWait := b.stepWait ++ [(stepDelta s n, s.time.c)] })
  else refuseBase s n

/-- REARM in view 0 (R155). -/
def rearmOp (s : State) (n : Nat) : State :=
  if !hasBase s n then s
  else if n = 2 then refuseBase s n
  else modBase s n (fun b => { b with armed := true, rearmCount := satAdd 8 b.rearmCount 1 })

/-- The oldest committed step is added to the offset (R153), 2 ns after its commit at the earliest. -/
def stepBase (s : State) (n : Nat) : State :=
  match (baseAt s n).stepWait with
  | [] => s
  | (d, c0) :: _ =>
    let s1 := advanceTo s (c0 + 2)
    modBase s1 n (fun b => { b with off := b.off + d, stepWait := b.stepWait.drop 1, stepCount := satAdd 8 b.stepCount 1, lastStep := some s1.time.c })

/-- A base's writes of one kind that still cross at a warm reset (R157), oldest first: each is applied where it has entered the FIFO of R42, a free
value; the first that has not is discarded with those behind it. -/
def warmWrites (apply cut : State → State) : List (Int × Nat) → State → State
  | [], s => s
  | _ :: l, s =>
    let t : State := { s with freeDraws := s.freeDraws + 1 }
    if Config.warmCut s.freeDraws then warmWrites apply cut l (apply t) else cut t

/-- A base across a warm reset (R157); a low rate word that waits for its high word is gone (log entry 136). -/
def warmBase (s : State) (n : Nat) : State :=
  let s1 := warmWrites (fun t => rateApplyOp t n) (fun t => modBase t n (fun x => { x with rateWait := [], warmCut := true })) (baseAt s n).rateWait s
  let s2 := warmWrites (fun t => stepBase t n) (fun t => modBase t n (fun x => { x with stepWait := [], warmCut := true, armed := true }))
    (baseAt s n).stepWait s1
  modBase s2 n (fun x => { x with held := rateWord x.rate % 2 ^ 32 })

/-! The grid (R160 to R163) -/

def modGrid (s : State) (f : Grid → Grid) : State := modTime s (fun t => { t with grid := f t.grid })

/-- The epoch that contains TB0 = `tick` (units of 2^-10 ns), for a time at or after the anchor. -/
def epochAt (g : Grid) (tick : Nat) : Nat := g.anchorE + (tick - g.anchor * 1024) / epochTicks g.e

/-- The epoch whose first edge the grid reaches next: the one after the epoch in progress, or, while WAITING, the first edge not below TB0
from T_A on (R162). -/
def nextEpoch (s : State) : Nat :=
  let g := s.time.grid
  if g.st == .waiting then
    g.anchorE + ceilDiv (tb0Tick s - g.anchor * 1024) (epochTicks g.e)
  else g.epoch + 1

/-! Capture (R172 to R175, R189) -/

/-- One byte of CAP_MAP in force for an input. -/
def capByte (s : State) (i : Nat) : Nat := rwEff s (.capCfg (i / 4)) / 256 ^ (i % 4) % 256

/-- Base of an input's stamps, where the input is enabled; tim_pps_i (0x3F) always uses TB0. An input set to a base that the class lacks takes no stamps
(log entry 139). -/
def capBase (s : State) (i : Nat) : Option Nat :=
  if i = 0x3F then some 0
  else if i < Config.capInputs s.integ && (capByte s i).testBit 2 && hasBase s (capByte s i % 4) then some (capByte s i % 4) else none

/-- A stamp taken now: the base's value less 2 ns (R100, R172). -/
def stampNow (s : State) (n : Nat) : Nat := (baseFine (baseAt s n) s.time.c + fineMod - 2 * 2 ^ 44) % fineMod / 2 ^ 44

/-- One input's edge enters the FIFO, or is lost (R174, R175). -/
def captureOne (s : State) (i : Nat) : State :=
  match capBase s i with
  | none => s
  | some n =>
    let seq := lookupD s.time.seqs i 0
    let s1 := modTime s (fun t => { t with seqs := setKey t.seqs i ((seq + 1) % 65536) })
    if 64 ≤ s.time.fifo.length then
      modTime (rcInc s1 .timeCapLost) (fun t => { t with lostIn := if t.lostIn.contains i then t.lostIn else t.lostIn ++ [i] })
    else
      let st := (match (baseAt s n).lastStep with
        | some c => decide (s.time.c ≤ c + 2)
        | none => false)
      modTime s1 (fun t => { t with fifo := t.fifo ++ [⟨i, seq, t.lostIn.contains i, st, n, stampNs (stampNow s n)⟩], lostIn := t.lostIn.filter (· != i) })

/-- Edges seen on one clk_time_i edge, in ascending input number. -/
def captureEdges (s : State) (inputs : List Nat) : State := (sortBy id inputs.eraseDups).foldl captureOne s

/-- TIME_CAP0 to TIME_CAP3 of an entry. -/
def capWords (e : CapEnt) : List Nat :=
  [2 ^ 31 + flag e.lost * 2 ^ 30 + flag e.step * 2 ^ 29 + e.input % 64 * 65536 + e.seq, e.stamp.ns, e.stamp.sec % 2 ^ 32,
   e.base * 65536 + e.stamp.sec / 2 ^ 32 % 65536]

/-! Strobes and PPS out (R176, R177) -/

/-- The time that TIME_STBn_AT holds, in ns. -/
def strobeAt (s : State) (n : Nat) : Nat :=
  (rwGet s (.stbAt n 1) + rwGet s (.stbAt n 2) * 2 ^ 32) * 10 ^ 9 + rwGet s (.stbAt n 0)

def modStrobe (s : State) (n : Nat) (f : Strobe → Strobe) : State := modTime s (fun t => { t with strobes := t.strobes.modify n f })

/-- A write of 1 to ARM; a time that TB0 reads now counts as passed (log entry 138). -/
def strobeArmOp (s : State) (n : Nat) : State :=
  modStrobe s n (fun k => { k with armed := true, late := k.late || decide (strobeAt s n ≤ tb0Ns s) })

/-- A strobe fires now: its output moves but in NO_IMAGE (R662). -/
def fireNow (s : State) (n : Nat) : State :=
  modStrobe s n (fun k => { k with armed := false, pulse := if s.boot.st = 3 then k.pulse else some s.time.c })

/-- An armed strobe fires: at its time, or on the next clk_time_i edge where that has passed. -/
def strobeFireOp (s : State) (n : Nat) : State :=
  match s.time.strobes[n]? with
  | none => s
  | some k =>
    if !k.armed then s
    else
      fireNow (if strobeAt s n ≤ tb0Ns s then advanceTo s (s.time.c + 1) else advanceTb0 s (strobeAt s n)) n

/-- tim_stb_o[n] is high (R176): 8 cycles from the firing. -/
def strobeHigh (s : State) (n : Nat) : Bool :=
  match s.time.strobes[n]? with
  | some k => (match k.pulse with
    | some c => decide (s.time.c < c + 8)
    | none => false)
  | none => false

/-- TB0 has reached its present second on the present edge. -/
def secondNow (s : State) : Bool := decide (baseNs (baseAt s 0) (s.time.c - 1) / 10 ^ 9 < tb0Ns s / 10 ^ 9)

/-- tim_pps_o rises for the second `sec`. -/
def ppsRise (s : State) (sec : Nat) : State := modTime s (fun t => { t with ppsHigh := true, ppsSec := sec })

/-- tim_pps_o rises at a whole second, reached now or next, once TB0 has taken its first step. -/
def ppsStart (s : State) : State :=
  if (baseAt s 0).stepCount = 0 then s
  else
    let sec := if secondNow s && !s.time.ppsHigh then tb0Ns s / 10 ^ 9 else tb0Ns s / 10 ^ 9 + 1
    ppsRise (advanceTb0 s (sec * 10 ^ 9)) sec

/-- What a step of TB0 past an instant starts on its own edge: strobes armed for it (R176), and the second's pulse where its 1 ms is not over too
(R177). `was` is TB0 without the step. -/
def stepOutputs (s : State) (was : Nat) : State :=
  let now := tb0Ns s
  let s1 := (List.range s.time.strobes.length).foldl (fun t n =>
    if (s.time.strobes[n]?).any (·.armed) && decide (strobeAt s n ≤ now) then fireNow t n else t) s
  if was / 10 ^ 9 < now / 10 ^ 9 ∧ now % 10 ^ 9 < 10 ^ 6 then ppsRise s1 (now / 10 ^ 9) else s1

/-- tim_pps_o falls 1 ms after its second. -/
def ppsEnd (s : State) : State :=
  if s.time.ppsHigh then modTime (advanceTb0 s (s.time.ppsSec * 10 ^ 9 + 10 ^ 6)) (fun t => { t with ppsHigh := false }) else s

/-! Register words (R188 to R190) -/

/-- TIME_TBn_NOW0 to NOW3. -/
def nowWords (s : State) (n : Nat) : List Nat :=
  let v := baseFine (baseAt s n) s.time.c
  let ns := v / 2 ^ 44
  let sec := ns / 10 ^ 9
  [v % 2 ^ 44 / 2 ^ 28, ns % 10 ^ 9, sec % 2 ^ 32, sec / 2 ^ 32 % 2 ^ 32]

/-- The rate that TIME_TBn_RATE reads: TB1 reads TB0's. -/
def rateRead (s : State) (n : Nat) : Nat := rateWord (baseAt s (if n = 1 then 0 else n)).rate

/-- TIME_TBn_STAT. -/
def tbStat (s : State) (n : Nat) : Nat :=
  let b := baseAt s n
  let kind := (match s.img.active with
    | some im => kindOf im n
    | none => 0)
  b.stepCount * 2 ^ 24 + b.rearmCount * 65536 + b.refused * 256 + kind * 4 + flag b.warmCut * 2 + flag b.armed

/-- TIME_EPOCH: the epoch in progress, from T_A on also before the first strobe. -/
def epochWord (s : State) : Nat :=
  let g := s.time.grid
  if g.st != .waiting then g.epoch
  else if hasImage s && decide (g.anchor * 1024 ≤ tb0Tick s) then min 0xFFFFFFFFFFFF (epochAt g (tb0Tick s)) else 0

/-- TIME_GRID_STAT. -/
def gridStat (s : State) : Nat :=
  let g := s.time.grid
  unsigned 8 g.e * 256 + flag g.stepped * 4 + (match g.st with
    | .waiting => 0
    | .running => 1
    | .exhausted => 2)

end Sys2Proof.Machine
end

