-- ==== Sys2Proof/Machine/Mbx.lean ====
section
/-!
DEFINITION. Mailboxes (R609 to R619) and DMA commands (R623 to R627). Mailbox m is privileged below 8, and the one of view m − 7 from 8 on.
-/
namespace Sys2Proof.Machine

def mbxNone : Mbx := ⟨none, false, false, false, 0, 0, none, none, none⟩

def mbxAt (s : State) (m : Nat) : Mbx := lookupD s.host.mboxes m mbxNone

def modHost (s : State) (f : HostU → HostU) : State := { s with host := f s.host }

def modMbx (s : State) (m : Nat) (f : Mbx → Mbx) : State := modHost s (fun h => { h with mboxes := modKey h.mboxes m mbxNone f })

/-- The view that a mailbox belongs to, 0 for a privileged one. -/
def mbxView (m : Nat) : Nat := m - 7

/-! Ownership (R610, R611) -/

/-- What a foreign read of MBX_LOCK returns. -/
def ownerWord : Requester → Nat
  | .reg r => r % 256 + 1
  | .svc => 0x101

/-- A read of MBX_LOCK acquires a free mailbox. -/
def lockRead (s : State) (m : Nat) (rq : Requester) : State × Nat :=
  match (mbxAt s m).owner with
  | none => (modMbx s m (fun k => { k with owner := some rq }), 0)
  | some o => (s, if o = rq then 0 else ownerWord o)

/-- A write of MBX_RELEASE: RELEASE by the owner, FORCE from view 0. -/
def releaseWrite (s : State) (m : Nat) (rq : Requester) (view d : Nat) : State :=
  if (d.testBit 0 ∧ (mbxAt s m).owner = some rq) ∨ (d.testBit 1 ∧ view = 0) then modMbx s m (fun k => { k with owner := none }) else s

/-! Messages (R613 to R619) -/

/-- A command completes (R615), and a tenant's interrupt follows it (R638). -/
def finishMbx (s : State) (m code : Nat) (trunc : Bool) : State :=
  let s1 := modMbx s m (fun k => { k with
    busy := false, done := true, trunc := trunc, ackSeq := (k.msg.map (·.seq)).getD 0, ackCode := code, msg := none, cmd := none })
  if mbxView m ≠ 0 ∧ (rwGet s (.tenIrqCfg (mbxView m))).testBit 0 then tenantIrq s1 (mbxView m) else s1

def setCmd (s : State) (m : Nat) (c : CmdState) : State := modMbx s m (fun k => { k with cmd := some c })

/-- Address of the message's body. -/
def bodyPtr (s : State) (m : Nat) : Nat := ((mbxAt s m).msg.map (·.ptr)).getD 0

/-- MBX_LEN stands in the table of R618. -/
def lenOk (op len : Nat) : Bool :=
  match op with
  | 0 => true
  | 1 => len % 32 == 0 && decide (len ≤ 32 * 4096)
  | 2 => len % 64 == 0 && decide (len ≤ 64 * 256)
  | 3 => len % 4 == 0 && decide (68 ≤ len) && decide (len ≤ 224)
  | 4 => len == 32
  | 8 => len == 48
  | _ => len == 16

/-- Checks 1 to 6 of R619. -/
def messageBad (s : State) (m : Nat) (x : Msg) : Option Nat :=
  let v := mbxView m
  let w := viewAt s v
  if 9 < x.op then some 0x02
  else if v ≠ 0 ∧ 2 < x.op then some 0x03
  else if x.op ≠ 0 ∧ x.len = 0 then some 0x04
  else if !lenOk x.op x.len then some 0x05
  else if v ≠ 0 ∧ x.op ≠ 0 ∧ !inWindowOf w x.ptr x.len then some 0x06
  else if v ≠ 0 ∧ w.st = 2 then some 0x0E
  else if v ≠ 0 ∧ w.st = 3 then some 0x14
  else none

/-- The message that a doorbell takes. -/
def messageOf (s : State) (m : Nat) : Msg :=
  ⟨pairBase s (.mbxPtr m), rwGet s (.mbxLen m), rwGet s (.mbxOp m) % 256, rwGet s (.mbxOp m) / 65536 % 65536⟩

/-- An accepted message runs: it fails a check, is a NOP, or has its body read (R616, R619). -/
def runMessage (s : State) (m : Nat) (x : Msg) : State :=
  if pwrBusy s then finishMbx s m 0x01 false
  else match messageBad s m x with
    | some c => finishMbx s m c false
    | none =>
      if x.op = 0 then finishMbx s m 0 false
      else mmPump (mmReadJob (setCmd s m .body) (.mbxBody m) 2 255 x.ptr x.len)

/-- A write of MBX_DOORBELL (R612 to R614). -/
def ringDoorbell (s : State) (m : Nat) (rq : Requester) (d : Nat) : State :=
  let k := mbxAt s m
  if k.owner ≠ some rq then rcInc s (.mbxIgnored m)
  else if !d.testBit 0 then s
  else if k.busy then rcInc s (.mbxIgnored m)
  else
    let x := messageOf s m
    if (k.lastSeq.map (fun q => !newer 16 x.seq q)).getD false then rcInc s (.mbxSeqDrop m)
    else runMessage (modMbx s m (fun k => { k with busy := true, done := false, trunc := false, lastSeq := some x.seq, msg := some x })) m x

/-! The units behind the views' SRAM windows (R634) -/

/-- Byte address of a pool unit of 64 KiB. -/
def unitBase (s : State) (k : Nat) : Nat := sramBytes s - 65536 * (k + 2)

/-- A pool unit is zeroed. -/
def zeroUnit (s : State) (k : Nat) : State :=
  let a := unitBase s k
  let b := a / bankBytes s
  let i := a % bankBytes s / 16
  let inIt (n : Nat) : Bool := decide (i ≤ n) && decide (n < i + 4096)
  let s1 := { s with mem := { s.mem with sram := memClear s.mem.sram (wordAddr s b i) (4096 * 19) } }
  modBank s1 b (fun k => { k with merge := k.merge.filter (fun e => !inIt e.idx), rewrite := k.rewrite.filter (fun n => !inIt n),
                                  fix := k.fix.filter (fun n => !inIt n) })

/-- The pieces of `n` bytes from window offset `o`, as address and length. -/
def winPieces (s : State) (units : List Nat) : Nat → Nat → Nat → List (Nat × Nat)
  | 0, _, _ => []
  | f + 1, o, n =>
    if n = 0 then []
    else
      let k := min n (65536 - o % 65536)
      (unitBase s (units.getD (o / 65536) 0) + o % 65536, k) :: winPieces s units f (o + k) (n - k)

/-! DMA (R623 to R627) -/

/-- One side of a descriptor: a host address, an SRAM byte address, an alias window's address (R545), or an offset in a view's window. -/
inductive Place where
  | host (a : Nat)
  | sram (a : Nat)
  | atomic (setBits : Bool) (a : Nat)
  | view (units : List Nat) (o : Nat)
deriving DecidableEq, Repr

/-- The side's place and the bytes from it to the end of its described buffer (R626); none where it starts outside. -/
def placeOf (s : State) (v space a : Nat) (units : List Nat) : Option (Place × Nat) :=
  let n := sramBytes s
  if space = 0 then
    if v = 0 then some (.host a, 2 ^ 52 - a)
    else match (viewAt s v).ent with
      | some e => if e.hbase ≤ a ∧ a < e.hbase + e.hsize then some (.host a, e.hbase + e.hsize - a) else none
      | none => none
  else if space = 1 ∧ v = 0 then
    if a < n then some (.sram a, n - a)
    else if 0x04000000 ≤ a ∧ a < 0x04000000 + n then some (.atomic true (a - 0x04000000), 0x04000000 + n - a)
    else if 0x08000000 ≤ a ∧ a < 0x08000000 + n then some (.atomic false (a - 0x08000000), 0x08000000 + n - a)
    else none
  else if a < 65536 * units.length then some (.view units a, 65536 * units.length - a) else none

/-- Bytes read at an SRAM place through port B; the flag says that every word was good. -/
def readPlace (s : State) (p : Place) (n : Nat) : State × Bytes × Bool :=
  match p with
  | .host _ => (s, [], true)
  | .sram a => sramRead s true a n
  | .atomic _ a => sramRead s true a n
  | .view us o => (winPieces s us (n / 65536 + 2) o n).foldl (fun t x =>
      let r := sramRead t.1 true x.1 x.2
      (r.1, t.2.1 ++ r.2.1, t.2.2 && r.2.2)) (s, [], true)

/-- Bytes written at an SRAM place. Bytes that an alias write does not cover are written as 0, which changes nothing. -/
def writePlace (s : State) (p : Place) (d : Bytes) : State × Bool :=
  match p with
  | .host _ => (s, true)
  | .sram a => (sramWrite s true a d, true)
  | .atomic b a => aliasSpan b (d.length + 2) (touch s 12) (a / 4 * 4) (padTo 4 (zeros (a % 4) ++ d))
  | .view us o => ((winPieces s us (d.length / 65536 + 2) o d.length).foldl (fun (t : State × Bytes) x =>
      (sramWrite t.1 true x.1 (t.2.take x.2), t.2.drop x.2)) (s, d) |>.1, true)

def descAt (b : Bytes) (o : Nat) : DmaDesc :=
  { srcSpace := leAt b o 8 / 2 ^ 60, src := leAt b o 8 % 2 ^ 52, dstSpace := leAt b (o + 8) 8 / 2 ^ 60, dst := leAt b (o + 8) 8 % 2 ^ 52,
    len := leAt b (o + 16) 3, last := leAt b (o + 20) 4 % 2 == 1, tview := leAt b (o + 20) 4 / 65536 % 512 }

/-- The descriptor keeps its stated values (R624). -/
def descOk (b : Bytes) (o : Nat) : Bool :=
  let d := descAt b o
  leAt b o 8 / 2 ^ 52 % 256 == 0 && leAt b (o + 8) 8 / 2 ^ 52 % 256 == 0 && byteAt b (o + 19) == 0 &&
  leAt b (o + 20) 4 / 2 % 2 ^ 15 == 0 && leAt b (o + 20) 4 / 2 ^ 25 == 0 && leAt b (o + 28) 4 == 0 &&
  decide (d.srcSpace ≤ 2) && decide (d.dstSpace ≤ 2) && (d.srcSpace != 0 || d.dstSpace != 0)

/-- The chain's offsets, to its first LAST (R625). -/
def chainOf (b : Bytes) : Nat → Nat → List Nat
  | 0, _ => []
  | n + 1, o => if (descAt b o).last then [o] else o :: chainOf b n (o + 32)

/-- Channels that serve commands. -/
def cmdChans (s : State) : List Nat := (List.range (Config.dmaChannels s.integ)).drop 4

/-- A view holds the channel. -/
def chanView (s : State) (c : Nat) : Option Nat := (s.host.views.find? (fun p => p.2.chan == some c)).map (·.1)

/-- A command runs on the channel. -/
def chanBusy (s : State) (c : Nat) : Bool := s.host.mboxes.any (fun p => match p.2.cmd with
  | some (.dma r) => r.chan == c
  | some (.ending _ _ k) => k == some c
  | _ => false)

def chanHalted (s : State) (c : Nat) : Bool := (lookup s.mm.halted c).isSome

/-- The channel a command of view `v` runs on now, or the code that it completes with (0: it waits). -/
def pickChan (s : State) (v : Nat) : Option Nat × Nat :=
  if v = 0 then
    let up := (cmdChans s).filter (fun c => (chanView s c).isNone && !chanHalted s c)
    if up.isEmpty then (none, 0x0B) else (up.find? (fun c => !chanBusy s c), 0)
  else match (viewAt s v).chan with
    | none => (none, 0x0C)
    | some c => if chanHalted s c then (none, 0x0B) else if chanBusy s c then (none, 0) else (some c, 0)

/-- Units of the window that a side names. -/
def sideUnits (s : State) (v space tview : Nat) : List Nat := (viewAt s (if space = 2 then tview else v)).units

/-- The run of a mailbox's DMA command. -/
def runOf (s : State) (m : Nat) : Option DmaRun :=
  match (mbxAt s m).cmd with
  | some (.dma r) => some r
  | _ => none

/-- A descriptor's DONE word is written (R624, R625). -/
def writeDone (s : State) (m : Nat) (r : DmaRun) : State :=
  mmWriteJob s (.dmaDone m) 2 r.chan (bodyPtr s m + 32 * r.idx + 0x18) (toLe 4 (r.n + flag r.cut * 2 ^ 30 + 2 ^ 31))

/-- An uncorrectable SRAM word halts the channel and ends the command (R627). -/
def haltDma (s : State) (m : Nat) (r : DmaRun) : State :=
  finishMbx { s with mm := { s.mm with halted := setKey s.mm.halted r.chan 0x0A } } m 0x0A r.trunc

/-- The descriptor's data goes to its destination, under the windows that stood at its start (R634). -/
def putData (s : State) (m : Nat) (r : DmaRun) (d : DmaDesc) (data : Bytes) : State :=
  let to0 : Option Place := if d.dstSpace = 0 then some (.host d.dst) else (placeOf s (mbxView m) d.dstSpace d.dst r.dstUnits).map (·.1)
  match to0 with
  | some (.host a) => mmWriteJob s (.dmaWrite m) 2 r.chan a data
  | some p =>
    let w := writePlace s p data
    if w.2 then writeDone w.1 m r else haltDma w.1 m r
  | none => finishMbx s m 0x06 r.trunc

/-- The run's next descriptor starts, or the command completes (R625, R626). -/
def startDesc (s : State) (m : Nat) (r : DmaRun) : State :=
  match r.descs[r.idx]? with
  | none => finishMbx s m 0 r.trunc
  | some d =>
    let v := mbxView m
    let su := sideUnits s v d.srcSpace d.tview
    let du := sideUnits s v d.dstSpace d.tview
    if d.len = 0 then finishMbx s m 0x04 r.trunc
    else match placeOf s v d.srcSpace d.src su, placeOf s v d.dstSpace d.dst du with
      | some a, some b =>
        let n := min d.len (min a.2 b.2)
        let cut := decide (n < d.len)
        let r1 := { r with n := n, cut := cut, srcUnits := su, dstUnits := du, trunc := r.trunc || cut }
        let s1 := setCmd (if cut then rcInc s .dmaTrunc else s) m (.dma r1)
        (match a.1 with
         | .host p => mmReadJob s1 (.dmaRead m) 2 r.chan p n
         | p =>
           let x := readPlace s1 p n
           if x.2.2 then putData x.1 m r1 d x.2.1 else haltDma x.1 m r1)
      | _, _ => finishMbx s m 0x06 r.trunc

/-- A DMA command that waits for its channel, or for DMA and MEM to reach ON (R48), tries again (R623). -/
def tryDma (s : State) (m : Nat) (ds : List DmaDesc) : State :=
  match pickChan s (mbxView m) with
  | (some c, _) =>
    let r : DmaRun := ⟨c, 0, 0, false, [], [], false, false, ds⟩
    let t := touch (touch s 13) 12
    if asleep t 13 || asleep t 12 then setCmd t m (.dmaWait ds) else startDesc (setCmd t m (.dma r)) m r
  | (none, code) => if code = 0 then setCmd s m (.dmaWait ds) else finishMbx s m code false

/-- The body of a DMA command has arrived: its checks, then its run. With the block busy under R105 its descriptors are discarded (R577). -/
def dmaBody (s : State) (m : Nat) (b : Bytes) : State :=
  let os := chainOf b (b.length / 32) 0
  let ds := os.map (descAt b)
  if os.any (fun o => !descOk b o) then finishMbx s m 0x07 false
  else if mbxView m ≠ 0 ∧ ds.any (fun d => d.srcSpace == 2 || d.dstSpace == 2) then finishMbx s m 0x03 false
  else if pwrBusy s then finishMbx s m 0x13 false
  else tryDma s m ds

/-- The code of an mm_ error (R64). -/
def mmCode (err : Nat) : Nat := if err = 2 then 0x09 else 0x08

/-- A DMA command's transfer has its completions: data read (0), data written (1), DONE written (2). -/
def dmaStage (s : State) (m stage : Nat) (data : Bytes) (err : Nat) : State :=
  match runOf s m with
  | none => s
  | some r =>
    if err ≠ 0 then finishMbx s m (mmCode err) r.trunc
    else match r.descs[r.idx]? with
      | none => s
      | some d =>
        if stage = 0 then putData s m r d data
        else if stage = 1 then writeDone s m r
        else if r.last ∧ r.idx + 1 < r.descs.length then finishMbx s m 0x13 r.trunc
        else startDesc s m { r with idx := r.idx + 1 }

/-! What waits -/

/-- A unit still lies under a transfer that began before its release (R634). -/
def unitInUse (s : State) (u : Nat) : Bool := s.host.mboxes.any (fun p => match p.2.cmd with
  | some (.dma r) => r.srcUnits.contains u || r.dstUnits.contains u
  | _ => false)

/-- Released units that no transfer uses any more are zeroed and return to the pool. -/
def drainUnits (s : State) : State :=
  let free := s.host.draining.filter (fun u => !unitInUse s u)
  modHost (free.foldl zeroUnit s) (fun h => { h with draining := h.draining.filter (fun u => !free.contains u) })

/-- A command that waits goes on where it can. -/
def waitStep (s : State) (m : Nat) : State :=
  match (mbxAt s m).cmd with
  | some (.dmaWait ds) => tryDma s m ds
  | some (.freezeWait v) => if (mbxAt s (7 + v)).busy then s else finishMbx s m 0 false
  | some (.cfgDrain us) => if us.any (fun u => s.host.draining.contains u) then s else finishMbx s m 0 false
  | _ => s

def waitPass : Nat → State → State
  | 0, s => s
  | n + 1, s => waitPass n ((s.host.mboxes.map (·.1)).foldl waitStep (drainUnits s))

/-- Everything that waits for a channel, a command or a unit goes on. -/
def mbxSettle (s : State) : State := mmPump (waitPass (s.host.mboxes.length + 1) s)

/-- A write of 1 to DMA_CH_STAT.HALT of the selected channel (R627). -/
def dmaHaltClearOp (s : State) : State :=
  mbxSettle { s with mm := { s.mm with halted := dropKey s.mm.halted (rwGet s .dmaChSel) } }

/-! Registers (R644, R645) -/

def ackWord (s : State) (m : Nat) : Nat := (mbxAt s m).ackSeq * 65536 + (mbxAt s m).ackCode

def mbxStatWord (s : State) (m : Nat) : Nat :=
  let k := mbxAt s m
  flag k.trunc * 4 + flag k.done * 2 + flag k.busy

def chStatWord (s : State) (c : Nat) : Nat :=
  flag (chanHalted s c) * 2 ^ 31 + flag (chanBusy s c || s.mm.jobs.any (fun j => j.chan == c)) * 2 ^ 30 +
  ((chanView s c).getD 0) * 65536 + (lookup s.mm.halted c).getD 0

end Sys2Proof.Machine
end

