-- ==== Sys2Proof/Machine/Runs.lean ====
section
/-!
DEFINITION. LEAP_RUN (R628 to R630), PTP carriage (R181 to R183, R631, R632), the squashing of a command (R642), and what becomes of commands at
the fault instants (R577, R578).
-/
namespace Sys2Proof.Machine

/-! LEAP_RUN -/

def runDescAt (b : Bytes) (o : Nat) : RunDesc := ⟨leAt b o 4, leAt b (o + 4) 4, leAt b (o + 8) 8, leAt b (o + 16) 8, leAt b (o + 24) 2⟩

/-- The code of the first check that a job descriptor fails (R628, R629). -/
def runDescBad (s : State) (v : Nat) (b : Bytes) (o : Nat) : Option Nat :=
  let d := runDescAt b o
  let feats := (s.img.active.map (·.feature.feats.length)).getD 0
  let w := viewAt s v
  let mayRun := (match w.ent with
    | some e => decide (e.bundleLo ≤ d.bundle) && decide (d.bundle ≤ e.bundleHi)
    | none => false)
  if 2 ^ 52 ≤ d.codes ∨ d.codes % 2 ≠ 0 ∨ 2 ^ 52 ≤ d.result ∨ d.result % 32 ≠ 0 ∨ d.n = 0 ∨ feats < d.n ∨ !allZero (sliceOf b (o + 0x1A) 38) then some 0x07
  else if v ≠ 0 ∧ !mayRun then some 0x03
  else if v ≠ 0 ∧ !(inWindowOf w d.codes (2 * d.n) && inWindowOf w d.result 96) then some 0x06
  else none

/-- The code of a job's STATUS (R630). -/
def statusCode (st : Nat) : Nat :=
  match st with
  | 0 => 0x00
  | 1 => 0x11
  | 3 => 0x12
  | 5 => 0x14
  | 6 => 0x10
  | _ => 0x13

/-- The result of a descriptor whose job was never created because its command ended first. -/
def emptyResult (tag st : Nat) : Bytes := toLe 1 0 ++ toLe 1 st ++ zeros 18 ++ toLe 4 tag ++ zeros 72

/-- The run of a mailbox's LEAP_RUN. -/
def leapRunOf (s : State) (m : Nat) : Option LeapRun :=
  match (mbxAt s m).cmd with
  | some (.leap r) => some r
  | _ => none

/-- The command's code: the first one that is not OK, in body order (R630); a squash gives its own (R642). -/
def leapCode (r : LeapRun) : Nat :=
  if r.stop = 5 then 0x14 else (((sortBy (·.1) r.results).map (·.2)).find? (· != 0)).getD 0

/-- A result of descriptor `i` is being written. -/
def writeResult (s : State) (m : Nat) (r : LeapRun) (i st : Nat) (b : Bytes) : State :=
  mmWriteJob (setCmd s m (.leap { r with writing := some (i, statusCode st) })) (.mbxData m) 2 255 ((r.descs[i]?.map (·.result)).getD 0) b

/-- The first of a command's jobs that has ended. -/
def endedJob (s : State) (r : LeapRun) : Option (Job × Nat) :=
  r.jobs.findSome? (fun p => match jobAt s p.1 with
    | some j => if j.status.isSome then some (j, p.2) else none
    | none => none)

/-- A descriptor's job is created on its codes, in a slot of the feature buffer. -/
def createJob (s : State) (m : Nat) (r : LeapRun) (d : RunDesc) (b : Bytes) : State :=
  let jid := s.leap.jobSeq + 1
  let v : Vec := ⟨4, jid, epochNow s, tb0Ns s, (List.range d.n).map (fun i => leAt b (2 * i) 2), []⟩
  let s1 := setCmd s m (.leap { r with next := r.next + 1, codes := none, jobs := r.jobs ++ [(jid, r.next)] })
  bufMark (hostJob { s1 with feat := { s1.feat with slots := s1.feat.slots ++ [⟨v, [], false, false⟩] } } (mbxView m) d.bundle d.tag v)

/-- What a LEAP_RUN does next, until it waits: results first, then the next job's codes and the job (R629). -/
def pumpRun : Nat → State → Nat → State
  | 0, s, _ => s
  | f + 1, s, m =>
    match leapRunOf s m with
    | none => s
    | some r =>
      if (mmJobOf s (.mbxData m)).isSome || r.writing.isSome then s
      else match endedJob s r with
        | some (j, i) =>
          let st := j.status.getD 0
          writeResult (modLeap s (fun l => { l with jobs := l.jobs.filter (fun x => x.jid != j.jid) })) m
            { r with jobs := r.jobs.filter (fun p => p.1 != j.jid) } i st (resultBytes j st j.y)
        | none =>
          match r.descs[r.next]? with
          | some d =>
            if r.stop ≠ 0 then writeResult s m { r with codes := none, next := r.next + 1 } r.next r.stop (emptyResult d.tag r.stop)
            else (match r.codes with
              | some b => if eventSlotsHeld s < eventSlots s then pumpRun f (createJob s m r d b) m else s
              | none => mmReadJob s (.mbxData m) 2 255 d.codes (2 * d.n))
          | none => if r.results.length = r.descs.length then finishMbx s m (leapCode r) false else s

/-- Every LEAP_RUN goes on where it can; a command that has ended leaves its channel-free waiters to settle. -/
def pumpRuns (s : State) : State :=
  mbxSettle ((s.host.mboxes.map (·.1)).foldl (fun a m => pumpRun 600 a m) s)

/-- The body of a LEAP_RUN has arrived. -/
def leapBody (s : State) (m : Nat) (b : Bytes) : State :=
  let os := (List.range (b.length / 64)).map (· * 64)
  match os.findSome? (runDescBad s (mbxView m) b) with
  | some c => finishMbx s m c false
  | none =>
    if pwrBusy s then finishMbx s m 0x13 false
    else pumpRun 600 (setCmd s m (.leap ⟨os.map (runDescAt b), 0, none, [], [], none, 0⟩)) m

/-- A transfer of a LEAP_RUN has its completions: codes read, or a result written. -/
def leapData (s : State) (m : Nat) (r : LeapRun) (data : Bytes) (err : Nat) : State :=
  let r1 := (match r.writing with
    | some (i, c) => { r with writing := none, results := r.results ++ [(i, if err = 0 then c else mmCode err)] }
    | none => if err = 0 then { r with codes := some data } else { r with next := r.next + 1, results := r.results ++ [(r.next, mmCode err)] })
  pumpRun 600 (setCmd s m (.leap r1)) m

/-! PTP_TX and the receive ring -/

/-- The body of a PTP_TX has arrived: its frame waits on the port (R631). -/
def ptpBody (s : State) (m : Nat) (b : Bytes) : State :=
  let p := byteAt b 0
  let base := byteAt b 1
  let n := leAt b 4 2
  let ok := (entOfPort s p).isSome && (base == 0 || (base == 2 && Config.isSpireL s.integ)) && decide (byteAt b 2 ≤ 1) && byteAt b 3 == 0 &&
    decide (34 ≤ n) && decide (n ≤ 192) && b.length == 32 + roundUp n 4
  if !ok then finishMbx s m 0x07 false
  else
    let s1 := setCmd s m (.ptp p base (byteAt b 2 == 1) ⟨leAt b 8 6, leAt b 14 4⟩ (sliceOf b 32 n))
    modPort s1 p (fun k => { k with queue := k.queue ++ [⟨2, 2, tyPtp, none, 0, [], some m⟩] })

/-- The frame of a mailbox's PTP message has begun to leave now: RFLAGS is written back, then STAMP. -/
def ptpSent (s : State) (m : Nat) : State :=
  match ptpCmd s m with
  | none => s
  | some (p, b, o, t, msg) =>
    mmPump (mmWriteJob (setCmd s m (.ptpBack (some (stampNs (ptpStamp s p b))))) (.mbxData m) 2 255 (bodyPtr s m + 6)
      (toLe 2 (1 + 2 * flag (ptpCorrect s p b o t msg).2)))

/-- The frame was dropped before it left: RFLAGS is written back with SENT 0. -/
def ptpLost (s : State) (m : Nat) : State :=
  if (ptpCmd s m).isNone then s
  else mmPump (mmWriteJob (setCmd s m (.ptpBack none)) (.mbxData m) 2 255 (bodyPtr s m + 6) (zeros 2))

/-- Frames that are dropped give their mailboxes up. -/
def ptpDropped (s : State) (fs : List TxFrame) : State := (fs.filterMap (·.mbx)).foldl ptpLost s

/-- SLOTS of the receive ring. -/
def ptpSlots (s : State) : Nat := rwGet s .ptpRxCfg % 4096

/-- The oldest received message starts its staged write (R314, R632). -/
def ptpStart (s : State) : State :=
  let a := pairBase s .ptpRxBase + 256 * s.host.ptpWr
  if s.host.ptpQ.isEmpty || (mmJobOf s .ptpRxZero).isSome || (mmJobOf s .ptpRxBody).isSome || (mmJobOf s .ptpRxSeq).isSome then s
  else mmPump (mmWriteJob s .ptpRxZero 2 3 a (zeros 8))

/-- A slot's bytes with SEQ 0; the arrival stamps are TB0's and TB2's at the frame's first beat, less RX_COMP on a serial port (R179, R183). -/
def ptpSlot (s : State) (p : Nat) (msg : Bytes) : Bytes :=
  let back := if isSerial p then rwEff s (.comp p) / 65536 else 0
  let at0 (n : Nat) : Bytes := stampBytes toLe (stampNs (baseNs (baseAt s n) s.time.c - back))
  padTo 256 (zeros 8 ++ toLe 1 p ++ zeros 1 ++ toLe 2 msg.length ++ zeros 4 ++ at0 0 ++ (if Config.isSpireL s.integ then at0 2 else zeros 10) ++
    zeros 28 ++ msg)

/-- PTP_RECEIVE. -/
def ptpReceiveOp (s : State) (p : Nat) (b : Bytes) : State :=
  match rxFrame s p b tyPtp with
  | (s1, none) => s1
  | (s1, some f) =>
    let n := beAt f.payload 0 2
    let slots := ptpSlots s1
    if slots = 0 ∨ 192 < n ∨ (s1.host.ptpWr + s1.host.ptpQ.length + 1) % slots = rwGet s1 .ptpRxRd % slots then rcInc s1 .ptpRxDrop
    else ptpStart (modHost s1 (fun h => { h with ptpQ := h.ptpQ ++ [ptpSlot s1 p (sliceOf f.payload 4 n)] }))

/-- A stage of a slot's write has its completions; an error ends the write. -/
def ptpStage (s : State) (stage err : Nat) : State :=
  let a := pairBase s .ptpRxBase + 256 * s.host.ptpWr
  match s.host.ptpQ with
  | [] => s
  | b :: rest =>
    if err ≠ 0 then ptpStart (rcInc (modHost s (fun h => { h with ptpQ := rest })) .ptpRxDrop)
    else if stage = 0 then mmPump (mmWriteJob s .ptpRxBody 2 3 (a + 8) (b.drop 8))
    else if stage = 1 then mmPump (mmWriteJob s .ptpRxSeq 2 3 a (toLe 8 (s.host.ptpSeq + 1)))
    else ptpStart (modHost s (fun h => { h with ptpQ := rest, ptpSeq := h.ptpSeq + 1, ptpWr := (h.ptpWr + 1) % max 1 (ptpSlots s) }))

/-! Squashing and discarding -/

/-- A piece of mm_ work belongs to a mailbox. -/
def mbxOwner (m : Nat) (o : MmOwner) : Bool :=
  match o with
  | .mbxBody k | .mbxData k | .dmaRead k | .dmaWrite k | .dmaDone k => k == m
  | _ => false

/-- A mailbox's transfers stop after the beats already requested. -/
def cutJobs (s : State) (m : Nat) : State :=
  let jobs := s.mm.jobs.map (fun j => if mbxOwner m j.owner then { j with len := j.issued, data := j.data.take j.issued } else j)
  { s with mm := { s.mm with jobs := jobs.filter (fun j => !mbxOwner m j.owner || j.left != 0) } }

/-- A command ends with a code once what it has requested is over. -/
def endCmd (s : State) (m code : Nat) : State :=
  let run := runOf s m
  let s1 := cutJobs s m
  let trunc := (run.map (·.trunc)).getD false
  if s1.mm.jobs.any (fun j => mbxOwner m j.owner) then setCmd s1 m (.ending code trunc (run.map (·.chan))) else finishMbx s1 m code trunc

/-- A view is squashed (R642): its jobs end DISCARDED_VIEW with their results written, any other command ends. -/
def squashView (s : State) (v : Nat) : State :=
  let m := 7 + v
  let s1 := discardJobs s 5 (fun j => j.tier == 2 && j.view == v)
  match (mbxAt s1 m).cmd with
  | some (.leap r) => pumpRun 600 (setCmd s1 m (.leap { r with stop := 5 })) m
  | some (.late _) => s1
  | some (.ending _ _ _) => s1
  | some _ => endCmd s1 m 0x14
  | none => s1

/-- The results that a discarded LEAP_RUN still owes: its jobs' and the discards of descriptors without one. -/
def owedResults (s : State) (r : LeapRun) : List (Nat × Bytes) :=
  let dest (i : Nat) : Nat := (r.descs[i]?.map (·.result)).getD 0
  let jobs := r.jobs.filterMap (fun p => (jobAt s p.1).map (fun j => (dest p.2, resultBytes j (j.status.getD 4) j.y)))
  let rest := ((List.range r.descs.length).drop r.next).map (fun i => (dest i, emptyResult ((r.descs[i]?.map (·.tag)).getD 0) 4))
  jobs ++ rest

/-- DMA descriptors that a command has not finished. -/
def descsLeft (c : CmdState) : Nat :=
  match c with
  | .dmaWait ds => ds.length
  | .dma r => r.descs.length - r.idx
  | _ => 0

/-- Host-issued jobs that a command loses: the live ones and those not yet created. -/
def jobsLeft (s : State) (c : CmdState) : Nat :=
  match c with
  | .leap r => (r.jobs.filter (fun p => (jobAt s p.1).any jobLive)).length + (r.descs.length - r.next)
  | _ => 0

/-- Every command in progress is discarded (R577), with what R578 owes kept. -/
def discardCmds (s : State) : State :=
  let cmds := s.host.mboxes.filterMap (fun p => p.2.cmd)
  let jobs := sumOf (cmds.map (jobsLeft s))
  let loads := s.leap.loads.length
  let s1 := abortLeap s
  let late (k : Mbx) : Mbx := (match k.cmd with
    | some (.leap r) => { k with cmd := some (.late (owedResults s1 r)) }
    | some (.late w) => { k with cmd := some (.late w) }
    | some _ => { k with cmd := some (.late []) }
    | none => k)
  let s2 := modHost s1 (fun h => { h with
    mboxes := h.mboxes.map (fun p => (p.1, late p.2)), discDma := h.discDma + sumOf (cmds.map descsLeft), discLoad := h.discLoad + loads,
    discJob := h.discJob + jobs, draining := [] })
  modLeap (h.foldl zeroUnit s2) (fun l => { l with jobs := l.jobs.filter (fun j => !j.host) })
where
  h := s.host.draining

/-- The results owed are written one after another, then the command is acknowledged (R578). -/
def lateNext (s : State) (m : Nat) : State :=
  match (mbxAt s m).cmd with
  | some (.late ((a, b) :: rest)) => mmPump (mmWriteJob (setCmd s m (.late rest)) (.mbxData m) 2 255 a b)
  | some (.late []) => finishMbx s m 0x13 false
  | _ => s

/-- pwr_fail_warn_i is seen (R577): jobs and loads end, the DMA descriptor in progress is the last one, chains that wait are discarded. -/
def warnCmds (s : State) : State :=
  let s1 := discardJobs (abortLoads s) 4 (·.host)
  pumpRuns ((s1.host.mboxes.map (·.1)).foldl (fun a m => match (mbxAt a m).cmd with
    | some (.leap r) => setCmd a m (.leap { r with stop := 4 })
    | some (.dma r) => setCmd a m (.dma { r with last := true })
    | some (.dmaWait _) => finishMbx a m 0x13 false
    | _ => a) s1)

end Sys2Proof.Machine
end

