-- ==== Sys2Proof/Machine/Views.lean ====
section
/-!
DEFINITION. Tenant views (R633 to R643): their resources, VIEW_CFG, freezing, saving, restoring and resetting; and what a mailbox does as its transfers
complete.
-/
namespace Sys2Proof.Machine

/-! The pool (R633 to R635) -/

/-- Units of the pool under the active image. -/
def poolUnits (s : State) : Nat := ((s.img.active.bind (·.views)).map (·.poolKib)).getD 0 / 64

/-- Units that a command has taken for its view. -/
def cmdUnits (c : CmdState) : List Nat :=
  match c with
  | .cfgEdge _ us => us
  | .restoreEdge _ us _ => us
  | _ => []

/-- Units in use. -/
def usedUnits (s : State) : List Nat :=
  (s.host.views.map (·.2.units)).flatten ++ s.host.draining ++ ((s.host.mboxes.filterMap (fun p => p.2.cmd.map cmdUnits))).flatten

/-- Free units (TEN_POOL_FREE). -/
def poolFree (s : State) : Nat := poolUnits s - (usedUnits s).length

/-- `n` units taken from the pool, zeroed; none where it lacks them. -/
def takeUnits (s : State) (n : Nat) : Option (State × List Nat) :=
  if poolFree s < n then none
  else
    let us := ((List.range 256).filter (fun u => !(usedUnits s).contains u)).take n
    some (us.foldl zeroUnit s, us)

/-- Units released: zeroed and free again once no transfer uses them. -/
def releaseUnits (s : State) (us : List Nat) : State := modHost s (fun h => { h with draining := h.draining ++ us })

/-- Views other than `v` that hold a DMA channel or are about to take one. -/
def dmaViews (s : State) (v : Nat) : Nat :=
  let soon := s.host.mboxes.filterMap (fun p => match p.2.cmd with
    | some (.cfgEdge e _) => if e.dma then some e.view else none
    | some (.restoreEdge e _ _) => if e.dma then some e.view else none
    | _ => none)
  let held := (s.host.views.filter (fun p => p.2.chan.isSome)).map (·.1)
  ((held ++ soon).eraseDups.filter (· != v)).length

/-- The entry asks for no more channels than R633 leaves to views. -/
def dmaRoom (s : State) (e : ViewEnt) : Bool := !e.dma || decide (dmaViews s e.view + 1 ≤ Config.dmaChannels s.integ - 5)

/-- A channel for a view: its own, else the lowest free one, idle if there is one. -/
def viewChan (s : State) (w : View) (e : ViewEnt) : Option Nat :=
  if !e.dma then none
  else
    let free := (cmdChans s).filter (fun c => (chanView s c).isNone)
    w.chan.orElse (fun _ => (free.find? (fun c => !chanBusy s c)).orElse (fun _ => free.head?))

/-- The view that TIMEBASE gives TB3. -/
def tb3ViewNow (s : State) : Nat := (s.img.active.map tb3View).getD 0

/-- A VIEWS entry in a body keeps its stated values, its TB3 flag included (R633, R635). -/
def bodyEntOk (s : State) (b : Bytes) (o : Nat) : Bool :=
  let e := readViewEnt b o
  (checkViewEnt s.integ.views b o).all (·.2) && e.tb3 == (tb3ViewNow s == e.view)

/-! VIEW_CFG (R634, R635) -/

def cfgBody (s : State) (m : Nat) (b : Bytes) : State :=
  let e := readViewEnt b 0
  let w := viewAt s e.view
  if !bodyEntOk s b 0 then finishMbx s m 0x07 false
  else if w.st = 3 then finishMbx s m 0x0D false
  else if !dmaRoom s e then finishMbx s m 0x0C false
  else match takeUnits s (e.sramKib / 64 - w.units.length) with
    | none => finishMbx s m 0x0C false
    | some (s1, us) => setCmd s1 m (.cfgEdge e us)

/-- The entry's resources come to the view at the edge; released units drain. -/
def applyEnt (s : State) (e : ViewEnt) (us : List Nat) (st : Nat) : State × List Nat :=
  let w := viewAt s e.view
  let all := w.units ++ us
  let gone := all.drop (e.sramKib / 64)
  let c := viewChan s w e
  (releaseUnits (modView s e.view (fun k => { k with st := st, removing := false, ent := some e, units := all.take (e.sramKib / 64), chan := c })) gone, gone)

def cfgEdge (s : State) (m : Nat) (e : ViewEnt) (us : List Nat) : State :=
  let w := viewAt s e.view
  let r := applyEnt s e us (if w.st = 0 then 1 else w.st)
  let s1 := modView r.1 e.view (fun k => { k with removing := w.removing })
  setCmd s1 m (.cfgDrain r.2)

/-! The view-operation head (R618) -/

def headView (b : Bytes) : Nat := leAt b 0 2
def headMode (b : Bytes) : Nat := byteAt b 2
def headAddr (b : Bytes) : Nat := leAt b 8 8

/-- The head keeps its stated values; MODE belongs to VIEW_RESET and ADDR to VIEW_SAVE and VIEW_RESTORE. -/
def headOkFor (s : State) (op : Nat) (b : Bytes) : Bool :=
  decide (1 ≤ headView b) && decide (headView b ≤ s.integ.views) && allZero (sliceOf b 3 5) &&
  (if op = 9 then decide (headMode b ≤ 3) else headMode b == 0) &&
  (if op = 7 ∨ op = 8 then headAddr b % 16 == 0 && decide (headAddr b < 2 ^ 52) else headAddr b == 0)

/-- VIEW_FREEZE and VIEW_THAW (R639). -/
def freezeBody (s : State) (m : Nat) (b : Bytes) : State :=
  let v := headView b
  if (viewAt s v).st ≠ 1 then finishMbx s m 0x0D false
  else setCmd (modView s v (fun k => { k with st := 2 })) m (.freezeWait v)

def thawBody (s : State) (m : Nat) (b : Bytes) : State :=
  let v := headView b
  if (viewAt s v).st ≠ 2 then finishMbx s m 0x0D false else finishMbx (modView s v (fun k => { k with st := 1 })) m 0 false

/-! VIEW_SAVE and VIEW_RESTORE (R640, R641) -/

def entBytes (e : ViewEnt) : Bytes :=
  toLe 2 e.view ++ toLe 2 (flag e.dma + 2 * flag e.tb3 + 4 * flag e.deliver) ++ toLe 4 e.sramKib ++ toLe 8 e.hbase ++ toLe 8 e.hsize ++
  toLe 4 e.bundleLo ++ toLe 4 e.bundleHi

def entNoneOf (v : Nat) : ViewEnt := ⟨v, false, false, false, 0, 0, 0, 0, 0⟩

/-- TB3 − TB0 in units of 2^-16 ns. -/
def tb3Ahead (s : State) : Int :=
  ((baseFine (baseAt s 3) s.time.c : Int) - (baseFine (baseAt s 0) s.time.c : Int)) / 2 ^ 28

/-- The blob of a view with BCRC 0. -/
def blobRaw (s : State) (v : Nat) : Bytes :=
  let w := viewAt s v
  let k := mbxAt s (7 + v)
  let e := w.ent.getD (entNoneOf v)
  let rel (a : Nat) : Bytes := toLe 8 (unsigned 64 ((a : Int) - (e.hbase : Int)))
  let held := tb3ViewNow s == v && hasBase s 3
  let t := baseAt s 3
  let d := tb3Ahead s
  let tb := if held then toLe 8 (unsigned 64 (d / 65536)) ++ toLe 2 (unsigned 16 d) ++ toLe 2 (1 + 2 * flag t.armed) ++ zeros 4 ++
      toLe 8 (unsigned 64 (t.rate - (baseAt s 0).rate)) ++ toLe 1 t.stepCount ++ toLe 1 t.rearmCount ++ zeros 6
    else zeros 32
  padTo 256 (toLe 4 0x42564E54 ++ toLe 1 3 ++ toLe 1 2 ++ toLe 2 v ++ toLe 8 s.rst.serial ++ toLe 4 256 ++ zeros 4 ++ stampBytes toLe (tb0Stamp s) ++
    zeros 2 ++ toLe 2 (k.lastSeq.getD 0) ++ toLe 2 (flag k.lastSeq.isSome + 2 * flag k.done + 4 * flag k.trunc) ++
    toLe 4 (k.ackSeq * 65536 + k.ackCode) ++ toLe 2 (rwGet s (.leapShare v)) ++ zeros 2 ++ entBytes e ++
    rel (pairBase s (.tenIrqAddr v)) ++ toLe 4 (rwGet s (.tenIrqData v)) ++ toLe 4 (rwGet s (.tenIrqCfg v)) ++
    rel (pairBase s (.dlvBase v)) ++ toLe 4 (rwGet s (.dlvCfg v)) ++ toLe 2 w.dlvWr ++ toLe 2 (rwGet s (.dlvRd v)) ++ toLe 8 w.dlvSeq ++
    tb ++ toLe 8 w.acct)

def blobOf (s : State) (v : Nat) : Bytes := patch (blobRaw s v) 0x14 (toLe 4 (crc32c (blobRaw s v)))

/-- MAGIC, FMT_MAJOR, LENGTH and BCRC hold. -/
def blobOk (b : Bytes) : Bool :=
  b.length == 256 && leAt b 0 4 == 0x42564E54 && byteAt b 5 == 2 && leAt b 0x10 4 == 256 && leAt b 0x14 4 == crc32c (patch b 0x14 (zeros 4))

def saveBody (s : State) (m : Nat) (b : Bytes) : State :=
  let v := headView b
  if (viewAt s v).st ≠ 2 then finishMbx s m 0x0D false
  else mmWriteJob (setCmd s m .saveWrite) (.mbxData m) 2 255 (headAddr b) (blobOf s v)

def restoreBody (s : State) (m : Nat) (b : Bytes) : State :=
  let e := readViewEnt b 16
  if !bodyEntOk s b 16 || e.view != headView b then finishMbx s m 0x07 false
  else if (viewAt s e.view).st ≠ 0 then finishMbx s m 0x0D false
  else if !dmaRoom s e || decide (poolFree s < e.sramKib / 64) then finishMbx s m 0x0C false
  else mmReadJob (setCmd s m (.restoreRead e)) (.mbxData m) 2 255 (headAddr b) 256

/-- The blob has arrived. -/
def restoreData (s : State) (m : Nat) (e : ViewEnt) (b : Bytes) : State :=
  if !blobOk b then finishMbx s m 0x0F false
  else if (viewAt s e.view).st ≠ 0 then finishMbx s m 0x0D false
  else if (leAt b 0x82 2).testBit 0 != e.tb3 || !dmaRoom s e then finishMbx s m 0x0C false
  else match takeUnits s (e.sramKib / 64) with
    | none => finishMbx s m 0x0C false
    | some (s1, us) => setCmd s1 m (.restoreEdge e us b)

/-- A rate within ±500 ppm (R151). -/
def clampRate (r : Int) : Int := max (-8796093022) (min 8796093022 r)

/-- TB3 goes on from TB0 as the blob says. -/
def restoreTb3 (s : State) (b : Bytes) : State :=
  let t0 := baseAt s 0
  let d : Int := (signed 64 (leAt b 0x78 8) * 65536 + (leAt b 0x80 2 : Int)) * 2 ^ 28
  let r := clampRate (t0.rate + signed 64 (leAt b 0x88 8))
  modBase s 3 (fun x => { x with
    off := t0.off + (s.time.c : Int) * (t0.rate - r) + d, rate := r, held := rateWord r % 2 ^ 32, rateWait := [], stepWait := [],
    armed := (leAt b 0x82 2).testBit 1, stepCount := byteAt b 0x90, rearmCount := byteAt b 0x91 })

/-- Two words of a 52-bit address set. -/
def setPair (s : State) (r : Bool → RwReg) (a : Nat) : State := rwSet (rwSet s (r false) (a % 2 ^ 32)) (r true) (a / 2 ^ 32 % 2 ^ 20)

/-- The view's registers take the blob's values. -/
def restoreRegs (s : State) (e : ViewEnt) (b : Bytes) : State :=
  let v := e.view
  let at0 (o : Nat) : Nat := (((e.hbase : Int) + signed 64 (leAt b o 8)) % (2 ^ 52 : Int)).toNat
  let s1 := setPair (setPair s (.tenIrqAddr v) (at0 0x50)) (.dlvBase v) (at0 0x60)
  let s2 := rwSet (rwSet s1 (.tenIrqData v) (leAt b 0x58 4)) (.tenIrqCfg v) (leAt b 0x5C 4 % 4)
  let s3 := rwSet (rwSet s2 (.dlvCfg v) (leAt b 0x68 4)) (.dlvRd v) (leAt b 0x6E 2 % 4096)
  rwSet { s3 with adj := adel s3.adj (.leapShare v) } (.leapShare v) (leAt b 0x2C 2 % 256)

/-- The restored view is FROZEN from the edge on. -/
def restoreEdge (s : State) (m : Nat) (e : ViewEnt) (us : List Nat) (b : Bytes) : State :=
  let v := e.view
  let f := leAt b 0x26 2
  let s1 := (applyEnt s e us 2).1
  let s2 := modView (restoreRegs s1 e b) v (fun k => { k with
    acct := leAt b 0x98 8, dlvWr := leAt b 0x6C 2 % 4096, dlvSeq := leAt b 0x70 8, dlvQ := [], irqs := 0 })
  let s3 := modMbx s2 (7 + v) (fun k => { k with
    owner := none, lastSeq := if f.testBit 0 then some (leAt b 0x24 2) else none, done := f.testBit 1, trunc := f.testBit 2,
    ackSeq := leAt b 0x2A 2, ackCode := leAt b 0x28 2 })
  finishMbx (if e.tb3 then restoreTb3 s3 b else s3) m 0 false

/-- VIEW_CFG and VIEW_RESTORE take effect at an epoch edge. -/
def viewsEdge (s : State) : State :=
  mbxSettle ((s.host.mboxes.map (·.1)).foldl (fun a m => match (mbxAt a m).cmd with
    | some (.cfgEdge e us) => cfgEdge a m e us
    | some (.restoreEdge e us b) => restoreEdge a m e us b
    | _ => a) s)

/-! VIEW_RESET (R642, R643) -/

/-- The view begins to reset. Slots and interrupts that have not begun are dropped. -/
def beginReset (s : State) (v : Nat) (remove : Bool) : State :=
  let busy := (mmJobOf s (.dlvZero v)).isSome || (mmJobOf s (.dlvBody v)).isSome || (mmJobOf s (.dlvSeq v)).isSome
  modView s v (fun k => { k with st := 3, removing := remove, dlvQ := if busy then k.dlvQ.take 1 else [], irqs := min 1 k.irqs })

def resetBody (s : State) (m : Nat) (b : Bytes) : State :=
  let v := headView b
  let st := (viewAt s v).st
  if st = 0 ∨ st = 3 then finishMbx s m 0x0D false
  else
    let s1 := setCmd (beginReset s v ((headMode b).testBit 1)) m (.resetWait v)
    if (headMode b).testBit 0 then squashView s1 v else s1

/-- A piece of mm_ work is issued for a view. -/
def viewOwner (v : Nat) (o : MmOwner) : Bool :=
  match o with
  | .dlvZero k | .dlvBody k | .dlvSeq k | .viewIrq k => k == v
  | _ => mbxOwner (7 + v) o

/-- A view's reset may complete: no command, no transaction, no transfer under its window. -/
def resetReady (s : State) (v : Nat) : Bool :=
  (viewAt s v).st == 3 && !(mbxAt s (7 + v)).busy && !s.mm.jobs.any (fun j => viewOwner v j.owner) && !(viewAt s v).units.any (unitInUse s)

/-- Plain registers of a view's page and mailbox. -/
def viewReg (v : Nat) (r : RwReg) : Bool :=
  match r with
  | .tenIrqAddr n _ | .tenIrqData n | .tenIrqCfg n | .dlvBase n _ | .dlvCfg n | .dlvRd n => n == v
  | .mbxPtr m _ | .mbxLen m | .mbxOp m | .mbxIrqEn m => m == 7 + v
  | _ => false

/-- Counters of a view's page and mailbox. -/
def viewCount (v : Nat) (r : RcReg) : Bool :=
  match r with
  | .tenDlvSkip n => n == v
  | .mbxSeqDrop m | .mbxIgnored m => m == 7 + v
  | _ => false

/-- TB3's step state at reset, where the view holds TB3. -/
def resetTb3 (s : State) (v : Nat) : State :=
  if tb3ViewNow s = v then
    let s1 := modBase s 3 (fun x => { x with armed := true, stepWait := [], stepCount := 0, rearmCount := 0, refused := 0, held := rateWord x.rate % 2 ^ 32 })
    { s1 with rw := s1.rw.filter (fun p => match p.1 with
      | .tbStep 3 _ => false
      | _ => true) }
  else s

/-- The view's page, mailbox and accounts at their reset values; MBX_ACK and DONE keep the last completion. -/
def clearView (s : State) (v : Nat) : State :=
  let s1 := { s with rw := s.rw.filter (fun p => !viewReg v p.1), rc := s.rc.filter (fun p => !viewCount v p.1) }
  let s2 := modMbx s1 (7 + v) (fun k => { k with owner := none, lastSeq := none })
  modView (resetTb3 s2 v) v (fun k => { k with acct := 0, dlvWr := 0, dlvSeq := 0, dlvQ := [], irqs := 0 })

/-- The reset of a view completes. -/
def completeReset (s : State) (v : Nat) : State :=
  let w := viewAt s v
  let s1 := clearView (w.units.foldl zeroUnit s) v
  let s2 := modView s1 v (fun k => if w.removing then { k with st := 0, removing := false, ent := none, units := [], chan := none }
    else { k with st := 1 })
  mbxSettle ((s2.host.mboxes.map (·.1)).foldl (fun a m => match (mbxAt a m).cmd with
    | some (.resetWait n) => if n = v then finishMbx a m 0 false else a
    | _ => a) s2)

def viewResetCompleteOp (s : State) (v : Nat) : State := if resetReady s v then completeReset s v else s

/-! Activation (R633, R635) -/

/-- The views under a new image: those it names have their entries' resources, every other one is reset and removed. -/
def viewsActivate (s : State) (im : Image) : State :=
  let ents := (im.views.map (·.ents)).getD []
  let other := (s.host.views.filter (fun p => p.2.st != 0 && !ents.any (fun e => e.view == p.1))).map (·.1)
  let s1 := other.foldl (fun a v => viewResetCompleteOp (beginReset a v true) v) s
  let s2 := ents.foldl (fun a e =>
    let w := viewAt a e.view
    let n := e.sramKib / 64 - w.units.length
    let us := ((List.range 256).filter (fun u => !(usedUnits a).contains u)).take n
    (applyEnt (us.foldl zeroUnit a) e us (if w.st = 0 then 1 else w.st)).1) s1
  mbxSettle s2

/-! The completions of a mailbox's transfers -/

/-- A body has arrived: the command's own checks, and the command. -/
def bodyDoneAt (s : State) (m : Nat) (b : Bytes) : State :=
  let op := ((mbxAt s m).msg.map (·.op)).getD 0
  if op = 1 then dmaBody s m b
  else if op = 2 then leapBody s m b
  else if op = 3 then ptpBody s m b
  else if op = 4 then cfgBody s m b
  else if !headOkFor s op b then finishMbx s m 0x07 false
  else match op with
    | 5 => freezeBody s m b
    | 6 => thawBody s m b
    | 7 => saveBody s m b
    | 8 => restoreBody s m b
    | _ => resetBody s m b

/-- The transfer of a command that is no DMA has its completions. -/
def dataDoneAt (s : State) (m : Nat) (b : Bytes) (err : Nat) : State :=
  match (mbxAt s m).cmd with
  | some (.leap r) => leapData s m r b err
  | some (.ptpBack t) =>
    if err ≠ 0 then finishMbx s m (mmCode err) false
    else (match t with
      | some t => mmWriteJob (setCmd s m (.ptpBack none)) (.mbxData m) 2 255 (bodyPtr s m + 0x12) (stampBytes toLe t)
      | none => finishMbx s m 0 false)
  | some .saveWrite => finishMbx s m (if err = 0 then 0 else mmCode err) false
  | some (.restoreRead e) => if err = 0 then restoreData s m e b else finishMbx s m (mmCode err) false
  | some (.late _) => lateNext s m
  | _ => s

/-- A command that is ending has its last transaction. -/
def endingDone (s : State) (m : Nat) : State :=
  match (mbxAt s m).cmd with
  | some (.ending c t _) => if s.mm.jobs.any (fun j => mbxOwner m j.owner) then s else finishMbx s m c t
  | _ => s

def isEnding (s : State) (m : Nat) : Bool :=
  match (mbxAt s m).cmd with
  | some (.ending _ _ _) => true
  | _ => false

/-- A piece of a mailbox's mm_ work is over. -/
def mbxDone (s : State) (o : MmOwner) (b : Bytes) (err : Nat) : State :=
  let go (m : Nat) (t : State) : State := mbxSettle (if isEnding s m then endingDone s m else t)
  match o with
  | .mbxBody m => go m (if err = 0 then bodyDoneAt s m b else finishMbx s m (mmCode err) false)
  | .mbxData m => go m (dataDoneAt s m b err)
  | .dmaRead m => go m (dmaStage s m 0 b err)
  | .dmaWrite m => go m (dmaStage s m 1 b err)
  | .dmaDone m => go m (dmaStage s m 2 b err)
  | _ => s

/-! Registers (R636, R645) -/

def viewStatWord (s : State) (v : Nat) : Nat :=
  let w := viewAt s v
  w.units.length * 65536 + flag w.chan.isSome * 8 + w.st

def denyWord (s : State) (k : Nat) : Nat := if k = 0 then s.host.denyOff else s.host.denyView * 256 + s.host.denyRid

end Sys2Proof.Machine
end

