-- ==== Sys2Proof/Machine/Activate.lean ====
section
/-!
DEFINITION. Activation (R117, R124 to R143, R166, R660): the settings that activation writes (R653, R674), the loader's checks over a slot, the
commands of MCU_IMG_CMD, and the switch of images at its instant.
-/
namespace Sys2Proof.Machine

def modBoot (s : State) (f : Boot → Boot) : State := { s with boot := f s.boot }

/-- The settings in force change, and a settings write begins (R653); `after` is what its completion starts. -/
def setSettings (s : State) (f : Settings → Settings) (after : AfterWrite) : State :=
  modBoot s (fun b => { b with cur := f b.cur, want := some (f b.cur), after := if after = .idle then b.after else after })

/-- A trial runs (R674). -/
def trialRuns (s : State) : Bool := s.boot.cur.trial != 0

/-! The loader's checks (R117, R689) -/

/-- The slot's bytes as the loader reads them: IMAGE_LEN bytes, at most the slot (R692). -/
def slotItem (s : State) (r : Region) (len : Bytes → Nat) : Bytes :=
  let p := regionAt s.integ r
  storeRead s p.1 (min p.2 (max 64 (len (storeRead s p.1 64))))

/-- ROLE agrees with the class (R6). -/
def roleOk (g : Integ) (role : Nat) : Bool := if Config.isSpireL g then role == 2 || role == 3 else role == 1

/-- LENGTH of an image: bounds of R112 and the slot. -/
def imageLenOk (s : State) (r : Region) (b : Bytes) : Bool :=
  let n := imageLen b
  n % 16 == 0 && decide (320 ≤ n) && decide (n ≤ Config.byClass s.integ 1048576 8388608) && decide (n ≤ (regionAt s.integ r).2)

/-- Codes 0x01 to 0x0A over the slot's bytes. -/
def imageHeadBad (s : State) (r : Region) (b : Bytes) : Option Reject :=
  let fails (code : Nat) (ok : Bool) : Option Reject := if ok then none else some (code, 0, 0)
  fails 1 (s.rst.keyState == 1)
  <|> fails 2 (leAt b 0 4 == 0x4D494C53)
  <|> fails 3 (byteAt b 5 == 2 && decide (byteAt b 4 ≤ 3))
  <|> fails 4 (imageLenOk s r b)
  <|> fails 5 (leAt b 0x2C 4 == crc32c (b.take 0x2C))
  <|> fails 6 (trailerOk s.rst.key b)
  <|> fails 7 (byteAt b 7 == Config.byClass s.integ 0 1 && roleOk s.integ (byteAt b 6))
  <|> fails 8 (leAt b 0x20 8 == s.rst.serial)
  <|> checkDirectory b
  <|> checkSectionCrc b

/-- Every check of R117 in order; `startup` accepts any GEN (R125). -/
def imageBad (s : State) (r : Region) (startup : Bool) (b : Bytes) : Option Reject :=
  let im := readImage s.integ b
  imageHeadBad s r b
  <|> checkSections b im.role
  <|> checkContent s.integ b
  <|> checkResource s.integ im s.img.active
  <|> checkBudget im
  <|> checkGateTimes im
  <|> (if startup || newer 16 im.gen (genAt s (epochNow s)) then none else some (0x10, 0, 0))

/-! MCU_IMG_CMD (R132, R137) -/

/-- No firmware runs (R137): phases 6.1 and 6.2, and RECOVERY. -/
def noFirmware (s : State) : Bool := decide (s.rst.step < 6) || decide (s.boot.phase < 3) || s.boot.st == 5

def imgBusy (s : State) : State := modImg s (fun u => { u with busy := true })

/-- STAGE of slot 0 (A) or 1 (B). -/
def stageOp (s : State) (slot : Nat) : State :=
  let blocked := noFirmware s || quiet s || (trialRuns s && slot != s.boot.cur.imgSlot) || s.img.st == .staging || s.img.st == .scheduled ||
    (s.img.st == .releasing && s.img.old.isSome)
  if blocked then imgBusy s
  else
    let s1 := if s.img.st == .staged then unstageModels (modImg s (fun u => { u with staged := none, slot := 0 })) else s
    modImg s1 (fun u => { u with st := .staging, loading := some (slot, false) })

/-- Staging is interrupted (R137). -/
def abortStaging (s : State) : State :=
  if s.img.st == .staging then modImg s (fun u => { u with st := .rejected, loading := none, reject := 0x11, detail := 0 }) else s

/-- DISCARD_STAGED. -/
def discardStagedOp (s : State) : State :=
  if quiet s then s
  else match s.img.st with
    | .staging => abortStaging s
    | .staged => unstageModels (modImg s (fun u => { u with st := .idle, staged := none, slot := 0 }))
    | .scheduled => unstageModels (modImg s (fun u => { u with staged := none, slot := 0 }))
    | _ => s

/-! The switch (R133, R134) -/

/-- The registers that adjust an image (R135). -/
def adjustable (r : RwReg) : Bool :=
  match r with
  | .leapShare _ | .leapSchedCfg | .ilkCap _ | .ilkRevert | .redCfg | .sealWin | .sealDue | .capObs | .capStale | .capProfMask | .vrdSpBucket
  | .vrdDomeBudget | .vrdVoteWait | .drainLead | .capCfg _ | .comp _ | .detH _ | .detMute _ => true
  | _ => false

/-- The value written is one that the register takes: a field's range does not turn it away. -/
def taken (r : RwReg) (d : Nat) : Bool := rwWrite r 0 d != 0 || rwWrite r 0xFFFFFFFF d == 0

/-- Values of the adjustment registers that an image gives; the others take their reset values. -/
def imageRegs (g : Integ) (im : Image) : List (RwReg × Nat) :=
  let cap := capMapOf (Config.capInputs g) im
  let d := im.detect
  ([(.ilkRevert, im.topo.revert), (.redCfg, im.schema.summaryAt), (.sealWin, im.node.wH), (.sealDue, im.topo.due),
   (.vrdSpBucket, d.spCap * 2 ^ 24 + d.spRefill), (.vrdDomeBudget, d.domeCap * 65536 + d.domeRate), (.vrdVoteWait, d.voteWait)] : List (RwReg × Nat)) ++
  (match im.capture with
   | some c => [(.capObs, c.obsCap), (.capStale, c.stale), (.capProfMask, c.profKinds)]
   | none => []) ++
  (match im.epochtab with
   | some t => (.leapSchedCfg, t.reserve) :: t.shares.map (fun p => (.leapShare p.1, p.2))
   | none => []) ++
  (match im.panel with
   | some p => [(.drainLead, p.drainLead)]
   | none => []) ++
  im.topo.ports.map (fun p => (RwReg.ilkCap p.port, p.cap)) ++
  (List.range (Config.capInputs g / 4)).map (fun k => (RwReg.capCfg k, leNat (((cap.drop (4 * k)).take 4).map (BitVec.ofNat 8)))) ++
  ((List.range 48).zip (portCompOf im)).map (fun p => (RwReg.comp (128 + p.1), p.2)) ++
  ((List.range d.dets.length).zip d.dets).map (fun p => (RwReg.detH p.1, p.2.h))

/-- Tokens and levels brought up to date before the registers that set their rates change. -/
def settleRates (s : State) : State :=
  settleBudgets (settleLevels { s with mm := fillBucket (rwEff s .capObs % 256) (hostCycle s) s.mm })

/-- Budgets and levels cut to their new depths (R451, R484); without an image no depth is known. -/
def cutRates (s : State) : State :=
  if !hasImage s then s
  else modVrd (settleLevels s) (fun u => { u with spLevel := min (spCap s) u.spLevel, domeLevel := min (domeCap s) u.domeLevel })

/-- The adjustment registers reloaded from an image, writes that wait discarded (R134). -/
def loadRegs (s : State) (im : Image) : State :=
  let s1 := settleRates s
  let kept := s1.rw.filter (fun p => !adjustable p.1)
  { s1 with rw := kept ++ imageRegs s1.integ im, adj := [], img := { s1.img with adjDrop := s1.img.adjDrop || !s1.adj.isEmpty } }

/-- A port begins anew with its link as it stands; `held` keeps the records and received records of epochs before e_A (R133). -/
def freshPort (s : State) (p : Nat) (inUse held : Bool) : State :=
  let k := portAt s p
  ptpDropped (modPort s p (fun k => { portNone with
    linkUp := k.linkUp, lstate := if k.linkUp then 1 else 0, hbDue := inUse && k.linkUp, pfTx := k.pfTx, loss := k.loss, pfail := k.pfail,
    recs := if held then (k.recs.filter (fun r => r.row != 5)).map (fun r => { r with next := 0, seq := none }) else [],
    rxUp := if held then k.rxUp else [], used := if held then sumOf (k.rxUp.map (·.cells)) else 0 })) k.queue

/-- One port under a new TOPOLOGY: it goes on where its neighbour stays, and, while the old image is held, where the old image alone names it (R133);
else it begins anew. -/
def switchPort (old new : TopoSec) (held : Bool) (p : Nat) (s : State) : State :=
  match portEnt old p, portEnt new p with
  | some a, some b => if a.peer = b.peer then s else freshPort s p true held
  | some _, none => if held then s else freshPort s p false false
  | none, some _ => freshPort s p true false
  | none, none => s

/-- Departure marks and grants under the new indices of their children. -/
def switchMarks (old new : TopoSec) (u : SealU) : SealU :=
  let moved (i : Nat) : Option Nat := ((childrenOf old)[i]?).bind (fun c => childIndex new c.node)
  { u with departs := u.departs.filterMap (fun d => (moved d.1).map (fun i => (i, d.2.1, d.2.2))),
           grants := u.grants.filterMap (fun g => (moved g.1).map (fun i => (i, g.2))) }

/-- Cores that the new TRC_MAP leaves out close their blocks (R509). -/
def switchTraces (s : State) (im : Image) : State :=
  let on := (im.capture.map (·.traces)).getD []
  (List.range s.trc.length).foldl (fun t c => if trcEnabled t c && !on.contains c then closeBlock t c else t) s

/-- The active uplink's port has changed: a heartbeat falls due on it (R474). -/
def heartActive (s : State) : State :=
  match activeUplink s with
  | some p => modPort s p (fun q => { q with hbDue := true })
  | none => s

/-- The uplink in use after a switch: the primary (R485), but the alternate where it alone is UP (R486); a node that had lost both still waits for the
first that becomes UP (log entry 144). -/
def switchUplink (s : State) (old : Option TopoSec) (new : TopoSec) : Nat :=
  let up (k : Nat) : Bool := (portsOfKind new k).any (portUp s)
  let had := old.any (fun t => !(portsOfKind t 1).isEmpty)
  if (portsOfKind new 1).isEmpty then 2
  else if up 1 then 0
  else if up 2 then 1
  else if had && s.ilk.active == 2 then 2 else 0

/-- The role uses the unit (R23): all but PNL, which a tray Spire alone has. -/
def unitUsed (im : Image) (u : Nat) : Bool := u != 18 || (im.role == 2 && im.panel.isSome)

/-- At an activation the units that the role uses leave OFF and the others enter it, with nothing kept (R45, R51): PNL is the one that a role can
leave out. -/
def powerRole (s : State) (im : Image) : State :=
  { s with pnl := if unitUsed im 18 then s.pnl else initPnl, pow := ((List.range 18).zip s.pow).map (fun p =>
      let u := p.1 + 1
      if alwaysOn u || coreUnit u then p.2
      else if unitUsed im u then (if p.2.st == .off then raiseReq s.time.c p.2 else p.2)
      else { p.2 with st := .off, req := false, retain := false, reqAt := none, late := false }) }

/-- Every part follows the new image from e_A on (R133). `held` keeps the old image for the epochs before it (R136). -/
def switchTo (s : State) (im : Image) (held : Bool) : State :=
  let old := s.img.active
  let oldTopo := topoOf s
  let s := carryAll s
  let regs := s.rw.filterMap (fun p => if adjustable p.1 then some (p.1, rwEff s p.1) else none)
  let s1 := loadRegs (switchTraces s im) im
  let s2 := cutRates <| modImg s1 (fun u => { u with
    active := some im, staged := none, slot := 0, st := if held && old.isSome then .releasing else .idle,
    old := if held then old else none, oldRegs := if held then regs else [], featDue := [], detDue := held && old.isSome })
  let s3 := capRemap s2
  let s3' := switchFeats s3 old im held
  let s4 := if held && old.isSome then s3' else modVrd s3' (fun u => { u with dets := carryDets old im u.dets })
  let s5 := (List.range (Config.ports s.integ)).foldl (fun t p => switchPort oldTopo im.topo held p t) s4
  let s6 := modIlk s5 (fun u => { u with
    active := switchUplink s5 (old.map (·.topo)) im.topo,
    gates := if held then im.gates.filterMap (fun n => gateOf s n.port) else im.gates,
    gatesNext := if held then im.gates else [], gatesAt := s.img.eA })
  let s6' := if activeUplink s6 = activeUplink s then s6 else heartActive s6
  let s7 := modSeal s6' (switchMarks oldTopo im.topo)
  let s8 := im.topo.ports.foldl (fun t p => fillLevel t p.port) s7
  viewsActivate (activateModels (powerRole s8 im)) im

/-- R166: a switch that changes E is adopted only when the image's anchor is the edge that begins e_A and a whole number of the longer lengths after
the grid origin. -/
def gridFits (s : State) (im : Image) (eA : Nat) : Bool :=
  let g := s.time.grid
  let a := anchorOf im
  let t := a.1 * 10 ^ 9 + a.2.1
  im.node.e == g.e ||
    (im.timebase.isSome && ((t * 1024 : Nat) : Int) == edgeTick g eA && a.2.2 == eA &&
      (t - gridOrigin * 10 ^ 9) * 1024 % max (epochTicks im.node.e) (epochTicks g.e) == 0)

/-- The anchor moves to the edge that begins e_A (R166). -/
def moveAnchor (s : State) (im : Image) (eA : Nat) : State :=
  if im.node.e = s.time.grid.e then s
  else
    let a := anchorOf im
    modGrid s (fun g => { g with anchor := a.1 * 10 ^ 9 + a.2.1, anchorE := eA, e := im.node.e, eOld := g.e })

/-- The grid restarts on an image's anchor (R161, R165). -/
def anchorGrid (s : State) (im : Image) : State :=
  let a := anchorOf im
  modGrid s (fun g => { g with st := .waiting, anchor := a.1 * 10 ^ 9 + a.2.1, anchorE := a.2.2, e := im.node.e, eOld := im.node.e,
                               epoch := 0, forming := false, tstep := false })

/-- What an EXHAUSTED grid left of its epochs goes when the grid restarts. -/
def clearEpochs (s : State) : State :=
  let s1 := modCap s (fun c => { c with frozen := [] })
  let s2 := modRed s1 (fun u => { u with own := [], unsent := [], downs := [], selHist := [] })
  let s3 := modSeal s2 (fun u => { u with works := [], lates := [], top := none, ready := [], merged := [] })
  modFeat (modVrd s3 (fun u => { u with due := [], kept := [] })) (fun u => { u with lastEp := none, queue := [] })

/-- The generation in force changes at epoch `eA` (R124, R126). -/
def takeGen (s : State) (g eA : Nat) (msgEA : Nat) : State :=
  modImg s (fun u => { u with genPrev := u.gen, gen := g, eA := eA, hasAct := true, lastEA := some msgEA, nextIsEA := false, sched := none })

/-- The same at once, with no image active or the grid not RUNNING (R660). -/
def takeGenNow (s : State) (g : Nat) : State :=
  modImg s (fun u => { u with
    genPrev := g, gen := g, hasAct := false, lastEA := none, nextIsEA := true, sched := none, st := unschedSt u.st u.staged.isSome })

/-- Epoch numbering may go on under the image: the grid as it stands, or one that the image restarts (R165, R166). -/
def immediateFits (s : State) (im : Image) : Bool :=
  if gridRuns s then gridFits s im (nextEpoch s) else true

/-- The grid at an immediate activation: WAITING takes the image's anchor, EXHAUSTED restarts on the anchor of a TIMEBASE section, RUNNING goes on. -/
def immediateGrid (s : State) (im : Image) : State :=
  match s.time.grid.st with
  | .waiting => anchorGrid s im
  | .running => moveAnchor s im (nextEpoch s)
  | .exhausted =>
    (match im.timebase with
     | some t => if t.anchorEpoch < 0xFFFFFFFFFFFF then anchorGrid (clearEpochs s) im else s
     | none => s)

/-- An immediate activation of the staged image (R660). -/
def switchNow (s : State) (im : Image) : State :=
  if !immediateFits s im then modImg s (fun u => { u with mismatch := true })
  else
    let s1 := switchTo (immediateGrid (takeGenNow s im.gen) im) im false
    modBoot { s1 with flt := { s1.flt with service := tb2Ns s1 } } (fun b => { b with st := 4 })

/-- SCHEDULE_LOCAL (R132). -/
def scheduleLocalOp (s : State) : State :=
  if s.flt.active then s
  else if !hasImage s && s.img.staged.isNone then imgBusy s
  else if noFirmware s then s
  else
    let hi := rwGet s (.actEpoch true)
    let g := hi / 65536
    let eA := rwGet s (.actEpoch false) + hi % 65536 * 2 ^ 32
    if !hasImage s || !gridRuns s then
      (match s.img.staged with
       | some im => if im.gen = g then switchNow s im else takeGenNow s g
       | none => takeGenNow s g)
    else if tooSoon s eA then modImg s (fun u => { u with refused := true })
    else match s.img.active with
      | some im => scheduleAt s g eA im.node.e im.node.lPeer
      | none => s

/-! The edge that begins e_A (R129, R130) -/

/-- A trial of the image in the other slot begins (R674). -/
def imageTrial (s : State) (slot : Nat) : State :=
  if slot = 0 ∨ slot = s.boot.cur.imgSlot + 1 then s
  else modBoot (setSettings s (fun x => { x with imgSlot := slot - 1, trial := 2 }) .idle) (fun b => { b with
    trialAt := slowCycle s, sentLimit := none, credits := false, snapSince := false })

/-- A late activation's marks (R130). -/
def lateMarks (s : State) (late : Bool) : State :=
  if late then modCap (modImg s (fun u => { u with lateAct := true })) (fun c => { c with join := true }) else s

/-- The schedule is refused at its edge (R129). -/
def refuseSched (s : State) : State :=
  modImg s (fun u => { u with sched := none, mismatch := true, st := unschedSt u.st u.staged.isSome })

/-- A generation adopted without an image (R129). -/
def adoptGen (s : State) (k : Sched) (x : Nat) : State :=
  let s1 := takeGen s k.gen x k.eA
  let s2 := modImg s1 (fun u => { u with st := unschedSt u.st u.staged.isSome })
  lateMarks ((topoOf s2).ports.foldl (fun t p => fillLevel t p.port) s2) k.late

/-- The edge that begins epoch `x`: a schedule that has come due acts. -/
def activateAt (s : State) (x : Nat) : State :=
  match s.img.sched, s.img.active with
  | some k, some cur =>
    if x < k.actAt then s
    else
      (match s.img.staged with
       | some im =>
         if im.gen = k.gen then
           if gridFits s im x then
             let slot := s.img.slot
             lateMarks (imageTrial (switchTo (moveAnchor (takeGen s k.gen x k.eA) im x) im true) slot) k.late
           else refuseSched s
         else if cur.node.e = k.e ∧ cur.node.lPeer = k.lPeer then adoptGen s k x else refuseSched s
       | none => if cur.node.e = k.e ∧ cur.node.lPeer = k.lPeer then adoptGen s k x else refuseSched s)
  | _, _ => s

/-! OLD_IMAGE_RELEASE (R136) -/

/-- The epoch whose first edge releases the old image, once it is known. -/
def releaseEpoch (s : State) : Option Nat :=
  match s.img.old with
  | none => none
  | some o =>
    if o.role = 1 then some (s.img.eA + 8)
    else match workOf s (s.img.eA - 1) with
      | some w => if w.isSealed then some (w.sealIn + 2) else if w.opened then none else some (s.img.eA + 2)
      | none => some (s.img.eA + 2)

/-- The ports that the old image alone names are in use no more. -/
def dropPorts (s : State) : State :=
  let old := (s.img.old.map (·.topo.ports)).getD []
  (old.filter (fun e => (portEnt (topoOf s) e.port).isNone)).foldl (fun t e => freshPort t e.port false false) s

def oldReleaseOp (s : State) : State :=
  match releaseEpoch s with
  | some x =>
    if x ≤ epochNow s then
      modImg (dropPorts (carryAll (carryDetsFor s s.img.eA))) (fun u => { u with old := none, oldRegs := [], st := if u.st == .releasing then (if u.sched.isSome then .scheduled else .idle) else u.st })
    else s
  | none => s

/-! Registers (R139 to R143) -/

def imgStWord : ImgSt → Nat
  | .idle => 0
  | .staging => 1
  | .staged => 2
  | .scheduled => 3
  | .rejected => 4
  | .releasing => 5

/-- MCU_IMG_STAT. -/
def imgStatWord (s : State) : Nat :=
  let u := s.img
  u.reject * 2 ^ 24 + flag u.busy * 8192 + flag u.mismatch * 4096 + flag u.adjDrop * 2048 + flag u.adjReject * 1024 + flag u.lateAct * 512 +
    flag u.refused * 256 + u.slot * 16 + imgStWord u.st

/-- W1C bits of MCU_IMG_STAT. -/
def imgStatWrite (s : State) (d : Nat) : State :=
  modImg s (fun u => { u with
    busy := u.busy && !d.testBit 13, mismatch := u.mismatch && !d.testBit 12, adjDrop := u.adjDrop && !d.testBit 11,
    adjReject := u.adjReject && !d.testBit 10, lateAct := u.lateAct && !d.testBit 9, refused := u.refused && !d.testBit 8 })

/-- MCU_IMG_GEN. -/
def imgGenWord (s : State) : Nat := ((s.img.staged.map (·.gen)).getD 0) * 65536 + genAt s (epochNow s)

/-- MCU_IMG_SCHEMA. -/
def imgSchemaWord (s : State) : Nat := ((s.img.staged.map (·.schemaNo)).getD 0) * 65536 + (s.img.active.map (·.schemaNo)).getD 0

end Sys2Proof.Machine
end

