-- ==== Sys2Proof/Machine/Complete.lean ====
section
/-!
DEFINITION. The responses of the memory master port (R59 to R64): what a read beat or a write completion does to its transaction, and what the end of a
piece of mm_ work starts.
-/
namespace Sys2Proof.Machine

/-- Bytes of a job that a transaction carries. -/
def txBytes (j : MmJob) (x : MmTx) : Nat := min (j.addr + j.len) (x.addr + 32 * x.beats) - (j.addr + x.first)

/-- A beat's bytes laid into the job's. -/
def takeBeat (j : MmJob) (x : MmTx) (data : Bytes) : MmJob :=
  let a := x.addr + 32 * x.got
  let lo := max a j.addr
  let hi := min (a + 32) (j.addr + j.len)
  { j with data := patch j.data (lo - j.addr) (sliceOf (data ++ zeros 32) (lo - a) (hi - lo)) }

/-- A job changed. -/
def modJobMm (s : State) (o : MmOwner) (f : MmJob → MmJob) : State :=
  { s with mm := { s.mm with jobs := s.mm.jobs.map (fun j => if j.owner == o then f j else j) } }

/-- An error halts the DMA channel (R64), the profile channel with CAP_PROF_STAT.HALT (R234). On trace writes HALT is the core's own (R513); a body, a bundle or a result is on no channel. -/
def haltChannel (s : State) (chan err : Nat) : State :=
  if err = 0 ∨ chan = 1 ∨ Config.dmaChannels s.integ ≤ chan then s
  else
    let s1 : State := { s with mm := { s.mm with halted := setKey s.mm.halted chan (mmCode err) } }
    if chan = 0 then modCap s1 (fun c => { c with prof := { c.prof with halt := true } }) else s1

/-- What the end of a piece of mm_ work starts. -/
def mmStage (s : State) (o : MmOwner) (d : Bytes) (len err : Nat) : State :=
  match o with
  | .snapZero => snapStage s 0 err
  | .snapBody => snapStage s 1 err
  | .snapSeq => snapStage s 2 err
  | .profBody => profDone s err
  | .trcBlock c => blockDone s c err
  | .ercChunk b => ercChunkDone s b len err
  | .ercEnd _ => s
  | .vrdZero => ringStage s 0 err
  | .vrdBody => ringStage s 1 err
  | .vrdSeq => ringStage s 2 err
  | .ptpRxZero => ptpStage s 0 err
  | .ptpRxBody => ptpStage s 1 err
  | .ptpRxSeq => ptpStage s 2 err
  | .dlvZero v => dlvStage s v 0 err
  | .dlvBody v => dlvStage s v 1 err
  | .dlvSeq v => dlvStage s v 2 err
  | .viewIrq v => irqDone s v
  | .bundleTable l => tableDone s l d err
  | .bundleHead l => headDone s l d err
  | .bundleBody l => bodyDone s l d err
  | o => mbxDone s o d err

/-- A job with nothing outstanding that is complete, or ended by an error, is over. -/
def endJobs (s : State) (o : MmOwner) : State :=
  match mmJobOf s o with
  | none => s
  | some j =>
    if j.left = 0 ∧ (j.len ≤ j.issued ∨ j.err ≠ 0) then
      mmStage { s with mm := { s.mm with jobs := s.mm.jobs.erase j } } o j.data j.len j.err
    else s

/-- A transaction is over: its tag is free, its bytes are no longer outstanding, an error is kept. -/
def endTx (s : State) (tag : Nat) (x : MmTx) (err : Nat) : State :=
  let chan := ((mmJobOf s x.owner).map (·.chan)).getD 255
  let s1 := { s with mm := { s.mm with tags := dropKey s.mm.tags tag } }
  let s2 := modJobMm (haltChannel s1 chan err) x.owner (fun j => { j with left := j.left - txBytes j x, err := if j.err = 0 then err else j.err })
  mmPump (pumpRuns (endJobs s2 x.owner))

/-- A read beat arrives (R61, R62): data of an erroneous beat is never used. -/
def readBeat (s : State) (tag : Nat) (x : MmTx) (data : Bytes) (last : Bool) (err : Nat) : State :=
  let e := err % 4
  let s1 := modJobMm s x.owner (fun j => if e = 0 then takeBeat j x data else { j with err := if j.err = 0 then e else j.err })
  if last || x.got + 1 == x.beats then endTx s1 tag { x with got := x.got + 1 } e
  else
    let chan := ((mmJobOf s x.owner).map (·.chan)).getD 255
    let s2 := haltChannel s1 chan e
    { s2 with mm := { s2.mm with tags := setKey s2.mm.tags tag { x with got := x.got + 1 } } }

/-- The outstanding transaction of a tag, of the kind asked for (R60). -/
def txAt (s : State) (tag : Nat) (write : Bool) : Option MmTx :=
  match lookup s.mm.tags tag with
  | some x => if x.write == write then some x else none
  | none => none

/-- MM_READ_BEAT: a beat of a read that is outstanding; any other is accepted (R61) and belongs to nothing (DEDUCED, log entry 125). -/
def readBeatOp (s : State) (tag : Nat) (data : Bytes) (last : Bool) (err : Nat) : State :=
  match txAt s tag false with
  | some x => readBeat s tag x data last err
  | none => s

/-- MM_WRITE_COMPLETION: the completion of a write that is outstanding; any other is accepted (R61) and belongs to nothing. -/
def writeCompletionOp (s : State) (tag err : Nat) : State :=
  match txAt s tag true with
  | some x => endTx s tag x (err % 4)
  | none => s

end Sys2Proof.Machine
end

