-- ==== Sys2Proof/Machine/Power.lean ====
section
/-!
DEFINITION. The units' power (R45 to R51, R94, R681 to R684), the power-fail warning (R105 to R108) and fail-silence (R571, R572).
-/
namespace Sys2Proof.Machine

/-! Units -/

/-- The host's switch has closed: the unit lowers pwr_ret_o and resumes (R94). A unit that leaves OFF starts from its reset: it lost its state on the
way in (R45). -/
def pwrAck (s : State) (u : Nat) : State :=
  modPow s u (fun p => if p.req then { p with st := if p.st == .gated then .gated else .on, retain := false, reqAt := none, late := false } else p)

/-- 4 µs have passed since the request (R684). -/
def ackLateOp (s : State) (u : Nat) : State :=
  let p := powOf s u
  match p.reqAt with
  | some t =>
    if p.req && !p.late && (p.st == .ret || p.st == .off) then
      rcInc (modPow (advanceTo s (t + 4000)) u (fun q => { q with late := true })) .svcPwrAckLate
    else s
  | none => s

/-- MEM, DMA, ERC and SVC stay ON until the power-fail flush is complete (R50). -/
def heldOn (s : State) (u : Nat) : Bool := flushRuns s && (u == 10 || u == 13 || u == 12 || u == 17)

/-- A mailbox has a DMA chain in hand. -/
def dmaWork (s : State) : Bool := s.host.mboxes.any (fun p => match p.2.cmd with
  | some (.dma _) | some (.dmaWait _) => true
  | _ => false)

/-- Work in hand in unit `u`: it is not idle (DESIGN CHOICE, log entry 117). -/
def unitWork (s : State) (u : Nat) : Bool :=
  match u with
  | 2 => s.feat.cur.isSome || !s.feat.queue.isEmpty
  | 3 => s.leap.jobs.any jobLive || !s.leap.loads.isEmpty || !s.leap.fixes.isEmpty
  | 4 => !s.sealing.ready.isEmpty
  | 5 => !s.sealing.writes.isEmpty
  | 6 => !s.vrd.due.isEmpty || !s.vrd.ringQ.isEmpty || s.vrd.flying.isSome
  | 7 => s.ilk.ports.any (fun p => !p.2.queue.isEmpty || !p.2.recs.isEmpty)
  | 9 => s.trc.any (fun k => !k.closed.isEmpty || k.flying.isSome)
  | 10 => s.erc.flushing || s.erc.chunk.isSome || s.erc.bbWrite.isSome || !s.erc.waits.isEmpty
  | 11 => !s.cmp.queue.isEmpty
  | 12 => s.mem.banks.any (fun b => !b.merge.isEmpty) || dmaWork s || s.boot.cmd.isSome
  | 13 => !s.mm.jobs.isEmpty || dmaWork s
  | 14 => s.img.st == .staging || s.boot.want.isSome
  | 15 => s.host.mboxes.any (fun p => p.2.cmd.isSome)
  | 16 => s.host.views.any (fun p => p.2.st == 3)
  | 17 => s.boot.cmd.isSome || s.boot.want.isSome
  | _ => false

/-- UNIT_GATE: 16 idle cycles are over (R45). -/
def gateOp (s : State) (u : Nat) : State :=
  if heldOn s u || unitWork s u then s
  else modPow s u (fun p => if p.st == .on then { p with st := .gated, gatedAt := slowCycle s, gThresh := p.thresh } else p)

/-- What keeps a unit out of RET (R48, R517): an unfinished host request, a DMA descriptor, a Leap job or load, other work in hand, and in TRC a core
that TRC_MAP enables. -/
def busyUnit (s : State) (u : Nat) : Bool :=
  unitWork s u || s.bus.deferred.any (fun d => d.1 == u) ||
  (u == 9 && !((s.img.active.bind (·.capture)).map (·.traces)).getD [] == [])

/-- UNIT_RETAIN (R682). -/
def retainOp (s : State) (u : Nat) : State :=
  let p := powOf s u
  if p.st != .gated || alwaysOn u || !p.retEn || busyUnit s u then s
  else modPow (advanceSlow s (p.gatedAt + p.gThresh + 1)) u (fun q => { q with st := .ret, retain := true, req := false, reqAt := none, late := false })

/-- Units with epoch work (R47): FEAT, LEAP, RED, SEAL, VRD. -/
def epochUnits : List Nat := [2, 3, 4, 5, 6]

/-- WAKE_AHEAD: 3 µs before the next edge (R47). -/
def wakeAheadOp (s : State) : State :=
  if s.time.grid.st == .exhausted then s
  else
    let s1 := advanceTick s (edgeTick s.time.grid (nextEpoch s) - 3000 * 1024)
    epochUnits.foldl (fun t u => if (powOf t u).st == .ret then touch t u else t) s1

/-- Every gated unit starts its clock at an epoch strobe (R45). -/
def ungateAll (s : State) : State := { s with pow := s.pow.map (fun p => if p.st == .gated then { p with st := .on } else p) }

/-- SVC_PWRn's unit is absent from the class (R681). -/
def unitAbsent (g : Integ) (u : Nat) : Bool := u == 18 && !Config.isSpireL g

/-- A write of SVC_PWRn (R681, R683). -/
def powerWrite (s : State) (u d : Nat) : State :=
  if unitAbsent s.integ u then s
  else
    let wake := !alwaysOn u && !d.testBit 28 && (powOf s u).st == .ret
    let s1 := modPow s u (fun p => { p with
      retEn := if alwaysOn u then p.retEn else d.testBit 28, thresh := if 3 ≤ d % 256 then d % 256 else p.thresh })
    if wake then touch s1 u else s1

def stateCode : PState → Nat
  | .on => 0
  | .gated => 1
  | .ret => 2
  | .off => 3

/-- SVC_PWRn. -/
def powerWord (s : State) (u : Nat) : Nat :=
  if unitAbsent s.integ u then 0
  else
    let p := powOf s u
    stateCode p.st * 2 ^ 30 + flag (alwaysOn u) * 2 ^ 29 + flag (p.retEn && !alwaysOn u) * 2 ^ 28 + p.thresh

/-! pwr_fail_warn_i -/

/-- Phase A of R105 is over once every accepted write has its data out and phase B once the flush is. -/
def settleFlush (s : State) : State :=
  { s with rst := { s.rst with flushA := false, flushB := s.rst.flushB && (!s.erc.waits.isEmpty || (s.erc.flushing && ercArmed s && !mmQuiet s)) } }

/-- Chunks on their way are taken over by the power-fail flush (R528). -/
def powerChunks (s : State) : State :=
  let up (j : MmJob) : MmJob := (match j.owner with
    | .ercChunk _ | .ercEnd _ => { j with qos := 3 }
    | _ => j)
  { s with mm := { s.mm with jobs := s.mm.jobs.map up },
           erc := { s.erc with chunk := s.erc.chunk.map (fun c => { c with power := true }) } }

/-- PWR_FAIL_WARN (R105, R577): a second rise during a flush starts nothing. -/
def warnOp (s : State) : State :=
  let seen : State := { s with rst := { s.rst with pfw := true } }
  if pwrBusy s then { seen with rst := { seen.rst with warn := true } }
  else
    let s1 : State := { seen with rst := { seen.rst with warn := true, flushA := true, flushB := true, flushC := true } }
    let s2 := [10, 13, 12, 17].foldl (fun t u => touch t u) s1
    let s3 := abortStaging (warnCmds (drainAll s2))
    let s4 := modBoot s3 (fun b => match b.cmd with
      | some _ => { b with cmd := none, result := 6, detail := 0 }
      | none => b)
    let s5 := modIlk s4 (fun u => { u with ports := u.ports.map (fun p => (p.1, { p.2 with pfTx := true })) })
    ercFlush (powerChunks s5) 3 0

/-- Start-up staging that a warning ended begins again (R664). -/
def restage (s : State) : State :=
  if s.boot.st = 2 ∧ !hasImage s ∧ s.img.loading = none ∧ !pwrBusy s then
    modImg s (fun u => { u with st := .staging, loading := some (if s.boot.triedImg then 1 - s.boot.cur.imgSlot else s.boot.cur.imgSlot, true) })
  else s

/-- PWR_FAIL_WARN_FALL (R107). -/
def warnFallOp (s : State) : State := mmPump (restage { s with rst := { s.rst with warn := false } })

/-- POWER_FAIL_FLUSH_DONE: phases A and B have nothing left; phase C ends with its last page (R107). -/
def flushDoneOp (s : State) : State := mmPump (restage (settleFlush s))

/-! Fail-silence -/

/-- Entry to fail-silence (R572): the fault record, ACTIVE and CAUSE, the end of epoch work and of host work (R577); the ports go quiet. -/
def enterFailSilent (s : State) (cause loc : Nat) : State :=
  if s.flt.active then s
  else
    let s1 : State := { s with flt := { s.flt with active := true, cause := cause } }
    let s2 := discardCmds (abortStaging s1)
    let s3 : State := { s2 with trc := s2.trc.map (fun k => { k with pwrAck := k.pwrReq }) }
    raiseFault s3 cause loc

/-- CHECKER_SELF_TEST: step 5 of R103, with the units of R51 ON; `failed` names the first memory that fails a vector: a bank, or past the banks the warden's instruction and
data memories (R560, R561). -/
def selfTestOp (s : State) (failed : Option Nat) : State :=
  if s.rst.step ≠ 5 ∨ !coreUp s then s
  else
    let s1 := selfTestWords s
    let n := s.mem.banks.length
    match failed with
    | none => { s1 with rst := { s1.rst with step := 6, selftest := 1 } }
    | some k =>
      let wdn := decide (n ≤ k)
      let which := if wdn then min 1 (k - n) else k
      let s2 : State := { s1 with rst := { s1.rst with step := 6, selftest := 2, failWdn := wdn, failBank := which } }
      enterFailSilent s2 3 (if wdn then locWord s2 3 14 (which + 1) 0 0 else locWord s2 3 12 which 0 0)

/-- SRAM_INITIALISATION: step 4 of R103, with MEM, MCU, DMA and ERC ON (R51). -/
def sramInitOp (s : State) : State :=
  if s.rst.step = 4 ∧ coreUp s then { s with mem := { s.mem with sram := [] }, rst := { s.rst with step := 5 } } else s

/-- The watchdog's period on TB2: the longer of 100 ms and four epochs (R571). -/
def watchdogNs (s : State) : Nat :=
  match s.img.active with
  | some im => max 100000000 (4 * epochTicks im.node.e / 1024)
  | none => 100000000

/-- WARDEN_WATCHDOG_EXPIRY. -/
def watchdogOp (s : State) : State :=
  if quiet s || !hasImage s || !gridRuns s then s
  else enterFailSilent (advanceTb2 s (s.flt.service + watchdogNs s)) 12 (locWord s 4 14 0 0 0)

/-- A write of MCU_FS_CMD (R571). -/
def failSilentWrite (s : State) (d : Nat) : State := if d % 65536 = 0xF5F5 then enterFailSilent s 13 (locWord s 5 0 0 0 0) else s

end Sys2Proof.Machine
end

