-- ==== Sys2Proof/Machine/Boot.lean ====
section
/-!
DEFINITION. Start-up from the boot store (R646 to R664), the boot-store commands (R666 to R668), the service buffer (R665), firmware switches and trials
(R673 to R678).
-/
namespace Sys2Proof.Machine

/-! Phase 6.1 (R651, R652, R677) -/

/-- Settings taken over: SVC_FLASH_CFG follows them (R654). -/
def takeSettings (s : State) (x : Settings) (copy : Nat) : State :=
  modBoot (rwSet s .flashCfg (x.flash / 4 * 4)) (fun b => { b with cur := x, copy := copy })

/-- The settings of an abandoned trial (R677): the previous slot, no trial, one fallback more. -/
def abandoned (x : Settings) : Settings :=
  { x with
    fwSlot := if x.trial % 2 = 1 then 1 - x.fwSlot else x.fwSlot, imgSlot := if x.trial / 2 % 2 = 1 then 1 - x.imgSlot else x.imgSlot,
    trial := 0, fallbacks := inc32 x.fallbacks }

def modPhase (s : State) (n : Nat) : State := modBoot s (fun b => { b with phase := n })

/-- The settings in force, and whether they are defaults to be written; with the copy a write leaves alone. -/
def readSettings (s : State) : State × Bool :=
  let d := settingsDefault s.integ
  match settingsCopy s with
  | none => (takeSettings s { d with sseq := 0 } 1, true)
  | some (k, v, x) =>
    if v = 3 then (takeSettings s x k, false)
    else (modBoot (takeSettings s { d with sseq := x.sseq } k) (fun b => { b with reset := true }), true)

/-- SETTINGS_READ. -/
def settingsReadOp (s : State) : State :=
  if s.rst.step ≠ 6 || s.boot.phase ≠ 1 || s.flt.active || s.boot.want.isSome then s
  else
    let r := readSettings s
    if r.2 then modPhase (setSettings r.1 id .idle) 2
    else if r.1.boot.cur.trial ≠ 0 ∧ !r.1.boot.switching then setSettings r.1 abandoned (.restart true)
    else modPhase r.1 2

/-! Phase 6.2 (R657, R658) -/

/-- The firmware checks of a slot, with the codes of R117; none where every one passes. -/
def firmwareBad (s : State) (slot : Nat) : Option Nat :=
  let b := slotItem s (.fw slot) (fun h => leAt h 0x0C 4)
  let n := leAt b 0x0C 4
  if s.rst.keyState ≠ 1 then some 0x01
  else if leAt b 0 4 ≠ 0x4E445257 then some 0x02
  else if byteAt b 5 ≠ 2 ∨ 3 < byteAt b 4 ∨ 3 < byteAt b 7 then some 0x03
  else if n % 16 ≠ 0 ∨ n < 288 ∨ (regionAt s.integ (.fw slot)).2 < n then some 0x04
  else if crc32c (b.take 0x3C) ≠ leAt b 0x3C 4 then some 0x05
  else if !trailerOk s.rst.key b then some 0x06
  else if byteAt b 6 ≠ Config.byClass s.integ 0 1 then some 0x07
  else if crc32c (sliceOf b 0x40 (n - trailerLen - 0x40)) ≠ leAt b 0x10 4 then some 0x0A
  else none

/-- Firmware runs: phase 6.3 takes the other black-box bank, writes the settings and stages IMG_SLOT (R659); a firmware trial begins (R674). -/
def startFirmware (s : State) (slot : Nat) : State :=
  let s1 := setSettings s (fun x => { x with bbBank := 1 - x.bbBank }) .idle
  let s2 := modBoot s1 (fun b => { b with
    phase := 3, st := 2, fwVer := leAt (storeRead s (regionAt s.integ (.fw slot)).1 16) 8 4, trialAt := slowCycle s, switching := false, triedImg := false })
  restage { s2 with erc := { s2.erc with bbErased := [], bbSets := 0, bbNext := 1 } }

/-- FIRMWARE_LOAD: FW_SLOT, else the other slot with FALLBACK, else RECOVERY (R658, R659, R663). -/
def firmwareLoadOp (s : State) : State :=
  if s.rst.step ≠ 6 || s.boot.phase ≠ 2 || s.flt.active || s.boot.st == 5 || s.rst.keyState == 0 then s
  else
    let a := s.boot.cur.fwSlot
    let b := 1 - a
    if s.rst.keyState = 2 then modBoot s (fun k => { k with st := 5 })
    else if (firmwareBad s a).isNone then startFirmware s a
    else if (firmwareBad s b).isNone then
      let s1 : State := { s with rst := { s.rst with fallback := true } }
      startFirmware (setSettings s1 (fun x => { x with fwSlot := b, trial := x.trial / 2 * 2 }) .idle) b
    else modBoot s (fun k => { k with st := 5 })

/-! Phases 6.3 and 6.4: the end of staging (R117, R659, R662) -/

/-- A slot's image passes or fails its checks. -/
def stagedOk (s : State) (slot : Nat) (b : Bytes) : State :=
  stageModels (modImg s (fun u => { u with st := if u.sched.isSome then .scheduled else .staged, loading := none, reject := 0, staged := some (readImage s.integ b), slot := slot + 1 }))

/-- STATE reads REJECTED, also while a schedule is in force (log entry 142). -/
def stagedBad (s : State) (r : Reject) : State :=
  modImg s (fun u => { u with st := .rejected, loading := none, reject := r.1, detail := r.2.1 * 2 ^ 24 + r.2.2 % 2 ^ 24 })

/-- Start-up's image: activated at once, else the other slot, else NO_IMAGE. -/
def startupStaged (s : State) (slot : Nat) (b : Bytes) (ue : Bool) : State :=
  match if ue then some (0x11, 0, 0) else imageBad s (.img slot) true b with
  | none =>
    let s1 := stagedOk s slot b
    let s2 := switchNow s1 (readImage s.integ b)
    if hasImage s2 then s2 else modBoot s2 (fun k => { k with st := 3 })
  | some r =>
    let s1 := stagedBad s r
    if s1.boot.triedImg then modBoot s1 (fun k => { k with st := 3 })
    else
      let s2 : State := { s1 with rst := { s1.rst with fallback := true } }
      let s3 := setSettings s2 (fun x => { x with imgSlot := 1 - slot }) .idle
      modImg (modBoot s3 (fun k => { k with triedImg := true })) (fun u => { u with st := .staging, loading := some (1 - slot, true) })

/-- Staging ends: its checks are done, or, with `ue`, an uncorrectable memory error has hit the staging area (R137, R562), at start-up as a slot
that fails. -/
def stagingEnd (s : State) (ue : Bool) : State :=
  match s.img.loading with
  | none => s
  | some (slot, startup) =>
    if quiet s then s
    else
      let b := slotItem s (.img slot) imageLen
      if startup then startupStaged s slot b ue
      else if ue then abortStaging s
      else match imageBad s (.img slot) false b with
        | none => stagedOk s slot b
        | some r => stagedBad s r

/-- STAGING_DONE. -/
def stagingDoneOp (s : State) : State := stagingEnd s false

/-! Settings writes (R653) -/

/-- A settings record goes into the copy not in force: its sector is erased and the record programmed with SSEQ advanced. -/
def programSettings (s : State) (x : Settings) : State :=
  let k := 1 - s.boot.copy
  let y := { x with sseq := (x.sseq + 1) % 2 ^ 32 }
  modBoot s (fun b => { b with
    store := memWrite 0xFF (memClear b.store (0x1000 * k) 4096) (0x1000 * k) (settingsBytes y), copy := k, cur := { b.cur with sseq := y.sseq } })

/-! The service buffer (R665) -/

/-- SVC_BUF_ADDR: the buffer's place in SRAM, which the integration fixes. -/
def bufAddr (s : State) : Nat := sramBytes s - 65536

/-- BUF_WRITE. -/
def bufWriteOp (s : State) (a : Nat) (d : Bytes) : State :=
  if earlyStart s then s
  else if s.boot.cmd.isSome then modBoot s (fun b => { b with conflict := true })
  else
    let o := a % 2 ^ 20 / 4 * 4
    let whole := d.take (d.length / 4 * 4)
    if 65536 ≤ o then s else sramWrite s false (bufAddr s + o) (whole.take (65536 - o))

/-- Words read over the service port, the word order of R85. -/
def bytesToWords (b : Bytes) : Nat → List Nat
  | 0 => []
  | n + 1 => leAt b 0 4 :: bytesToWords (b.drop 4) n

/-- BUF_READ. -/
def bufReadOp (s : State) (a words : Nat) : State :=
  if earlyStart s then modBoot s (fun b => { b with svcOut := List.replicate words 0 })
  else
    let o := a % 2 ^ 20 / 4 * 4
    let n := min (4 * words) (65536 - o)
    let r := sramRead s false (bufAddr s + o) n
    modBoot r.1 (fun b => { b with svcOut := bytesToWords (r.2.1 ++ zeros (4 * words - n)) words })

/-- BUF_WRITE and BUF_READ reach SRAM once MEM is ON (R48). -/
def bufWriteCmd (s : State) (a : Nat) (d : Bytes) : State :=
  if earlyStart s then bufWriteOp s a d else awaitUnit s 12 (.bufWrite a d) (fun t => bufWriteOp t a d)

def bufReadCmd (s : State) (a words : Nat) : State :=
  if earlyStart s then bufReadOp s a words else awaitUnit s 12 (.bufRead a words) (fun t => bufReadOp t a words)

/-! Boot-store commands (R666 to R668) -/

/-- A write of OP starts a command. -/
def bstCommand (s : State) (op : Nat) : State :=
  if s.boot.cmd.isSome then modBoot s (fun b => { b with conflict := true })
  else if 1 ≤ op ∧ op ≤ 5 then modBoot s (fun b => { b with cmd := some ⟨op, rwGet s .bstAddr, rwGet s .bstLen⟩ })
  else s

/-- ERASE and PROGRAM may not touch the region (R667). In RECOVERY either firmware slot is open (R663). -/
def protectedRegion (s : State) (r : Region) : Bool :=
  let c := s.boot.cur
  match r with
  | .settings _ | .reserved | .bb _ => true
  | .fw k => s.boot.st != 5 && k == c.fwSlot
  | .img k => k == c.imgSlot || s.img.slot == k + 1 || (match s.img.loading with
      | some (l, _) => l == k
      | none => false) || (s.img.st == .releasing && s.img.old.isSome && k != c.imgSlot)
  | .pack k => k == c.packSlot

/-- The range rules of a command (R666), PROTECTED (R667) and RANGE. -/
def rangeBad (s : State) (c : BstCmd) : Option Nat :=
  let aligned := (match c.op with
    | 1 => c.addr % 4096 == 0 && c.len % 4096 == 0
    | 2 => c.addr % 256 == 0 && c.len % 256 == 0 && decide (c.len ≤ 65536)
    | 3 => decide (1 ≤ c.len ∧ c.len ≤ 65536)
    | _ => true)
  if !aligned then some 3
  else if c.op ≠ 3 ∧ (regionsHit s.integ c.addr c.len).any (protectedRegion s) then some 1
  else if (regionOf s.integ c.addr c.len).isNone then some 2
  else none

/-- A command completes. -/
def bstDone (s : State) (result detail : Nat) : State := modBoot s (fun b => { b with cmd := none, result := result, detail := detail })

/-- What a failed erase or program leaves in its range is free (R668). -/
def flashFails (s : State) (a n : Nat) : State :=
  let d := (List.range n).map (fun i => Config.flashOpen (s.freeDraws + i))
  bstDone (modBoot { s with freeDraws := s.freeDraws + n } (fun b => { b with store := memWrite 0xFF b.store a d })) 4 0

/-- The first entry of a pack that fails, with its code of R401; an HCRC that fails is code 0x07 of entry 0. -/
def packBad (s : State) (slot : Nat) : Option (Nat × Nat) :=
  let a := (regionAt s.integ (.pack slot)).1
  let fs := ((s.img.active.map (·.feature))).getD ⟨[], []⟩
  if s.rst.keyState ≠ 1 then some (0, 1)
  else if !packOk s a then some (0, 7)
  else
    let es := packDir s a
    ((List.range es.length).zip es).findSome? (fun p =>
      match bundleBad s.integ s.rst.key fs none p.2.1 p.2.2.2 (storeRead s p.2.2.1 p.2.2.2) with
      | some c => if c ≤ 9 then some (p.1, c) else none
      | none => none)

/-- CHECK of the slot that SVC_BST_ADDR names (R666). -/
def checkSlot (s : State) (a : Nat) : State :=
  let fails (o : Option Nat) : State := (match o with
    | none => bstDone s 0 0
    | some d => bstDone s 5 d)
  match regionOf s.integ a 1 with
  | some (.fw k) => fails (firmwareBad s k)
  | some (.img k) => fails ((imageHeadBad s (.img k) (slotItem s (.img k) imageLen)).map (·.1))
  | some (.pack k) => fails ((packBad s k).map (fun p => p.1 * 256 + p.2))
  | _ => bstDone s 2 0

/-- The end of a boot-store command with MEM ON: `flashErr` what the flash reports. -/
def bstDoneNow (s : State) (flashErr : Bool) : State :=
  match s.boot.cmd with
  | none => s
  | some c =>
    if c.op = 4 then checkSlot s c.addr
    else if c.op = 5 then
      (if flashErr then bstDone s 4 0
       else bstDone (programSettings (modBoot s (fun b => { b with cur := { b.cur with flash := rwGet s .flashCfg } }))
          { s.boot.cur with flash := rwGet s .flashCfg }) 0 0)
    else match rangeBad s c with
      | some r => bstDone s r 0
      | none =>
        if c.op = 1 then
          (if flashErr then flashFails s c.addr c.len
           else bstDone (modBoot s (fun b => { b with store := memClear b.store c.addr c.len })) 0 0)
        else if c.op = 2 then
          (if flashErr then flashFails s c.addr c.len
           else
             let r := sramRead s false (bufAddr s) c.len
             let st := flashProgram r.1.boot.store c.addr r.2.1
             bstDone (modBoot r.1 (fun b => { b with store := st })) (if memRead 0xFF st c.addr c.len = r.2.1 then 0 else 4) 0)
        else bstDone (sramWrite s false (bufAddr s) (storeRead s c.addr c.len)) 0 0

/-- BOOT_STORE_COMMAND_DONE: the service buffer is in MEM, which the command wakes (R48). -/
def bstDoneOp (s : State) (flashErr : Bool) : State := if s.boot.cmd.isNone then s else whenOn s 12 (fun t => bstDoneNow t flashErr)

/-- SVC_BST_STAT. -/
def bstStatWord (s : State) : Nat := s.boot.detail * 65536 + s.boot.result * 256 + 2 * flag s.boot.conflict + flag s.boot.cmd.isSome

/-! The black-box bank (R648) -/

/-- BLACK_BOX_SET_ERASED: set 0 first, then the others in order. -/
def setErasedOp (s : State) : State :=
  let n := s.erc.bbSets
  if s.boot.phase < 3 ∨ 16 ≤ n then s
  else { modBoot s (fun b => { b with store := memClear b.store (bbAddr s n) 0x4000 }) with
         erc := { s.erc with bbErased := s.erc.bbErased ++ [n], bbSets := n + 1 } }

/-! Firmware switch (R673) -/

/-- EPOCH of SVC_FW_SCHED. -/
def schedEpoch (s : State) : Nat := rwGet s .fwEpochLo + s.boot.schedHi * 2 ^ 32

/-- A write of SVC_FW_SCHED's high word: REFUSED (W1C), SLOT and EPOCH high, and ARM (W1S). -/
def fwSchedWrite (s : State) (d : Nat) : State :=
  let s1 := modBoot s (fun b => { b with refused := b.refused && !d.testBit 30, schedSlot := d / 2 ^ 29 % 2, schedHi := d % 65536 })
  if !d.testBit 31 then s1
  else if s1.boot.schedSlot = s1.boot.cur.fwSlot ∨ trialRuns s1 ∨ schedEpoch s1 ≤ epochNow s1 then modBoot s1 (fun b => { b with refused := true })
  else modBoot s1 (fun b => { b with arm := true })

def fwSchedWord (s : State) : Nat :=
  flag s.boot.arm * 2 ^ 31 + flag s.boot.refused * 2 ^ 30 + s.boot.schedSlot * 2 ^ 29 + s.boot.schedHi

/-- The edge that begins `x`: an armed switch writes its settings; the restart follows their write. -/
def fwSwitchAt (s : State) (x : Nat) : State :=
  if s.boot.arm ∧ schedEpoch s ≤ x then
    modBoot (setSettings s (fun c => { c with fwSlot := s.boot.schedSlot, trial := 1 }) (.restart false)) (fun b => { b with arm := false, switching := true })
  else s

/-! Trials (R674 to R677) -/

def trialCycles : Nat := 983040

/-- SVC_TRIAL.LEFT. -/
def trialLeft (s : State) : Nat :=
  if !trialRuns s || decide (s.boot.phase < 3) then 0 else (s.boot.trialAt + trialCycles - slowCycle s) * 1000 / 32768

/-- The trial is confirmed: TRIAL clears in the settings. -/
def confirmTrial (s : State) : State := if trialRuns s then setSettings s (fun c => { c with trial := 0 }) .idle else s

/-- The trial is abandoned: the previous slot, and a restart with FALLBACK. -/
def abandonTrial (s : State) : State := if trialRuns s then setSettings s abandoned (.restart true) else s

/-- A write of MCU_CONFIRM (R676, R677, R680). -/
def confirmWrite (s : State) (d : Nat) : State :=
  if d / 65536 ≠ 0x5C0F || decide (s.boot.phase < 3) then s
  else if d.testBit 0 then confirmTrial s
  else if d.testBit 1 then abandonTrial s
  else s

/-- What the firmware asks for before it confirms itself (R676). -/
def healthy (s : State) : Bool :=
  hasImage s && s.rst.selftest == 1 && !s.flt.active &&
  (if roleOf s = 3 then s.boot.snapSince
   else (match activeUplink s with
     | some p => portUp s p && s.boot.credits
     | none => false))

/-- TRIAL_SELF_CONFIRM. -/
def selfConfirmOp (s : State) : State :=
  if trialRuns s && decide (3 ≤ s.boot.phase) && rwGet s .confirmHold == 0 && healthy s then confirmTrial s else s

/-- TRIAL_EXPIRY: 983,040 slow cycles after its beginning. -/
def trialExpiryOp (s : State) : State :=
  if trialRuns s && decide (3 ≤ s.boot.phase) then abandonTrial (advanceSlow s (s.boot.trialAt + trialCycles)) else s

/-! Packs (R678) -/

/-- A write of SVC_PACK_SEL waits for the next epoch edge. -/
def packWrite (s : State) (d : Nat) : State := modBoot s (fun b => { b with packWant := some (d % 2) })

/-- The edge: PACK_SLOT is written. -/
def packAtEdge (s : State) : State :=
  match s.boot.packWant with
  | some k =>
    let s1 := modBoot s (fun b => { b with packWant := none })
    if k = s.boot.cur.packSlot then s1 else setSettings s1 (fun c => { c with packSlot := k }) .idle
  | none => s

/-! SVC_BOOT_STAT (R679) -/

def bootStatWord (s : State) : Nat :=
  let b := s.boot
  let c := b.cur
  flag b.bbSkipped * 2 ^ 19 + flag b.skew * 2 ^ 18 + flag b.reset * 2 ^ 17 + c.bbBank * 2 ^ 16 + c.trial * 2 ^ 14 + flag (s.erc.bbSets == 16) * 2 ^ 13 +
    c.packSlot * 4096 + c.imgSlot * 2048 + c.fwSlot * 1024 + b.st

/-- W1C bits of SVC_BOOT_STAT. -/
def bootStatWrite (s : State) (d : Nat) : State :=
  modBoot s (fun b => { b with bbSkipped := b.bbSkipped && !d.testBit 19, skew := b.skew && !d.testBit 18, reset := b.reset && !d.testBit 17 })

end Sys2Proof.Machine
end

