-- ==== Sys2Proof/Machine/Strobe.lean ====
section
/-!
DEFINITION. The epoch strobe (R162 to R171): the end of one epoch and the beginning of the next, in every unit; and the steps and rates of TB0 that
move it.
-/
namespace Sys2Proof.Machine

/-! The parts of a strobe -/

/-- The strobe ends epoch `x`: CAP's frozen copy (R194), the recorder's EPOCH record (R519), the detector pass that falls due (R280, R428). -/
def endEpoch (s : State) (x : Nat) : State :=
  let g := s.time.grid
  let s1 := capFreeze s x (edgeStamp g x) (edgeStamp g (x + 1))
  let s2 := vrdStrobe (ercEpoch s1 x g.tstep) x
  if 2 ≤ roleOf s2 && s2.red.own.any (fun r => r.epoch == x) then queueSample s2 x else s2

/-- A strobe that ends no epoch of this node (R162, R195, R690): what was tallied before it belongs to none. -/
def firstStrobe (s : State) : State :=
  let s1 := capBegin s
  { s1 with erc := { s1.erc with tally := tallyNone, readyCov := none } }

/-- Epoch `x` is in progress. -/
def enterEpoch (s : State) (x : Nat) (forming : Bool) : State :=
  modGrid s (fun g => { g with st := .running, epoch := x, forming := forming, tstep := false })

/-- Adjustment writes take effect (R135). -/
def applyAdjust (s : State) : State :=
  if s.adj.isEmpty then s
  else
    let s1 := settleRates s
    cutRates { s1 with adj := [] }

/-- An immediate activation counts with the first epoch that begins after it (R660). -/
def noteFirstEpoch (s : State) (x : Nat) : State :=
  if s.img.nextIsEA then modImg s (fun u => { u with lastEA := some x, nextIsEA := false }) else s

/-- The Dome's outcome of an activation whose e_A has come (R131). -/
def activationOutcome (s : State) (x : Nat) : State :=
  if s.ilk.result.act && s.ilk.bcasts.any (fun b => b.act && b.id == s.ilk.result.id && decide (actEA b ≤ x)) then broadcastOutcomeOp s else s

/-- The edges each UP port has seen since it rose: one more than its full epochs (R487). -/
def countEpochs (s : State) : State :=
  modIlk s (fun u => { u with ports := u.ports.map (fun p => if p.2.lstate = 2 then (p.1, { p.2 with upEpochs := p.2.upEpochs + 1 }) else p) })

/-- The edge in the units that wait for it: adjustments, the sync, model copies, views, the pack, a firmware switch. -/
def edgeWaiters (s : State) (x : Nat) : State :=
  fwSwitchAt (packAtEdge (viewsEdge (switchCopies (mirStrobe s)))) x

/-- The warden serves the epoch (R571). -/
def serveEpoch (s : State) : State := { s with flt := { s.flt with service := tb2Ns s } }

/-- The strobe of the edge that begins `x`, at its instant. -/
def beginEpoch (s : State) (x : Nat) : State :=
  if s.flt.active then enterEpoch s x false
  else if !hasImage s then ercPump (ercStart (enterEpoch (ungateAll s) x false))
  else
    let s1 := ungateAll s
    let s2 := if s1.time.grid.forming then endEpoch s1 s1.time.grid.epoch else firstStrobe s1
    let s3 := ercStart (noteFirstEpoch (enterEpoch s2 x true) x)
    let s4 := applyAdjust (activateAt (activationOutcome s3 x) x)
    let s5 := edgeWaiters (openWork (selStrobe s4 x) x) x
    ercPump (pumpRuns (serveEpoch (countEpochs s5)))

/-- The strobe that ends the last epoch (R164): no epoch begins, and the grid is EXHAUSTED. -/
def exhaustGrid (s : State) : State :=
  let on := !s.flt.active && hasImage s
  let s1 := if on then ungateAll s else s
  let s2 := if on && s1.time.grid.forming then endEpoch s1 s1.time.grid.epoch else s1
  let s3 := if on then edgeWaiters (applyAdjust s2) 0xFFFFFFFFFFFF else s2
  raiseFault (modGrid s3 (fun g => { g with st := .exhausted, epoch := 0xFFFFFFFFFFFF, forming := false, tstep := false })) 9 (locWord s 3 8 5 0 0)

/-- The strobe of the edge that begins `x`, or that ends the last epoch. -/
def strobe (s : State) (x : Nat) : State := if 0xFFFFFFFFFFFF ≤ x then exhaustGrid s else beginEpoch s x

/-- EPOCH_STROBE: on the first clk_time_i edge on which TB0 has reached the next edge (R163). Without an image no anchor is known, and a grid that
waits goes on waiting. -/
def epochStrobeOp (s : State) : State :=
  match s.time.grid.st with
  | .exhausted => s
  | .waiting =>
    if hasImage s then
      let x := nextEpoch s
      strobe (advanceTick s (edgeTick s.time.grid x)) x
    else s
  | .running =>
    let x := nextEpoch s
    strobe (advanceTick s (edgeTick s.time.grid x)) x

/-! Steps and rates -/

/-- A step of TB0 in a RUNNING grid (R168 to R171): marked, and one strobe where it passes an edge. -/
def stepGrid (s : State) : State :=
  if !gridRuns s then s
  else
    let s1 := modGrid s (fun g => { g with stepped := true, tstep := g.tstep || g.forming })
    let g := s1.time.grid
    if edgeTick g (g.epoch + 1) ≤ (tb0Tick s1 : Int) then strobe s1 (epochAt g (tb0Tick s1)) else s1

/-- STEP_APPLY. -/
def stepApplyOp (s : State) (n : Nat) : State :=
  match (baseAt s n).stepWait with
  | [] => s
  | (_, c0) :: _ =>
    let s1 := stepBase s n
    if n = 0 then stepGrid (stepOutputs s1 (tb0Ns (advanceTo s (c0 + 2)))) else s1

/-- RATE_APPLY: what TB0's rate has filled so far is settled first (R482). -/
def rateApplyTop (s : State) (n : Nat) : State :=
  match (baseAt s n).rateWait with
  | [] => s
  | (_, c0) :: _ => rateApplyOp (if n = 0 then settleLevels (advanceTo s (c0 + 2)) else s) n

end Sys2Proof.Machine
end

