-- ==== Sys2Proof/Machine/Reset.lean ====
section
/-!
DEFINITION. The two resets (R91, R92, R97, R101 to R103), what a warm reset keeps (R101, R157, R408, R451, R523, R533, R553) and reports (R576 to
R578), the restarts that a settings write starts (R653, R673, R677), and the capture of the key anchor (R92).
-/
namespace Sys2Proof.Machine

/-- The ports after a reset: their link pins as they stand. -/
def pinPorts (s : State) : List (Nat × IPort) :=
  (s.ilk.ports.filter (fun p => p.2.linkUp)).map (fun p => (p.1, { portNone with linkUp := true, lstate := 1 }))

/-- The core inputs after a reset: a power-down request that stands is acknowledged, since no core is captured (R75). -/
def pinCores (s : State) : List TCore := s.trc.map (fun k => { coreNone with pwrReq := k.pwrReq, pwrAck := k.pwrReq })

/-- POWER_ON_RESET: everything afresh, counting from 0, on the boot store as it stands. -/
def powerOnResetOp (s : State) (p : Straps) : State :=
  let z := State.initial s.integ p s.boot.store
  { z with pending := s.pending, freeDraws := s.freeDraws, ilk := { z.ilk with ports := pinPorts s }, trc := pinCores s }

/-- TIME's registers and counter (R101). -/
def timeRw (r : RwReg) : Bool :=
  match r with
  | .tbStep _ _ | .stbAt _ _ | .capCfg _ | .comp _ => true
  | _ => false

/-- A step that crossed into a warm reset moves the grid, though no epoch is formed (R157, R168, R170). -/
def crossStep (old s : State) : State :=
  if (baseAt old 0).stepCount = (baseAt s 0).stepCount ∨ !gridRuns s then s
  else
    let g := s.time.grid
    if (tb0Tick s : Int) < edgeTick g (g.epoch + 1) then modGrid s (fun g => { g with stepped := true })
    else
      let x := epochAt g (tb0Tick s)
      if 0xFFFFFFFFFFFF ≤ x then modGrid s (fun g => { g with stepped := true, st := .exhausted, epoch := 0xFFFFFFFFFFFF })
      else modGrid s (fun g => { g with stepped := true, epoch := x })

/-- TIME across a warm reset: it never stops; writes that cross are applied or discarded, base by base. -/
def warmTime (s : State) : State :=
  crossStep s ((List.range s.time.bases.length).foldl warmBase s)

/-- Mailboxes across a warm reset: the commands that R578 reports. -/
def lateMboxes (s : State) : List (Nat × Mbx) :=
  s.host.mboxes.filterMap (fun p => match p.2.cmd with
    | some (.late w) => some (p.1, { mbxNone with busy := true, msg := p.2.msg, cmd := some (.late w) })
    | _ => none)

/-- The counters that a warm reset leaves: TIME's, and what it discards (R578), saturating (R18). -/
def warmCounts (s d : State) : List (RcReg × Nat) :=
  (([(.timeCapLost, rcGet s .timeCapLost), (.mcuDiscardMbx, (lateMboxes d).length), (.mcuDiscardDma, d.host.discDma), (.mcuDiscardLoad, d.host.discLoad),
    (.mcuDiscardJob, d.host.discJob), (.leapLoadRefused, d.host.discLoad), (.leapDiscard, rcGet d .leapDiscard - rcGet s .leapDiscard)] :
    List (RcReg × Nat)).map (fun p => (p.1, add32 0 p.2))).filter (fun p => p.2 != 0)

/-- The port across a warm reset: no work, an empty bucket that gains from the present host cycle on (R235), and a tag that stays taken until its
response has come (R60). -/
def warmMm (s : State) : Mm :=
  { jobs := [], tags := s.mm.tags.map (fun t => (t.1, { t.2 with owner := .ended })), bucket := 0, bucketH := hostCycle s, lastObs := 0, halted := [] }

/-- The state right after a warm reset, before its reports are written. A black-box page cut off by it stays erased (log entry 122), and
pwr_fail_warn_i counts as low until its next PWR_FAIL_WARN (log entry 123). A boot-store command that the reset ends reads ABORTED (R668; DEDUCED, log
entry 152). -/
def warmState (s : State) (fallback : Bool) : State :=
  let d := discardCmds s
  let t := warmTime d
  let z := State.initial s.integ ⟨s.rst.serial, s.rst.pkg, s.rst.die⟩ s.boot.store
  { z with
    pending := s.pending
    freeDraws := t.freeDraws
    rst := { z.rst with key := s.rst.key, keyState := s.rst.keyState, por := s.rst.por, warm := true, pfw := s.rst.pfw,
                        fallback := s.rst.fallback || fallback, step := 5 }
    pow := z.pow.map (fun p => if p.reqAt.isSome then { p with reqAt := some t.time.c } else p)
    time := { t.time with grid := { t.time.grid with forming := false, tstep := false } }
    mm := warmMm t
    rw := s.rw.filter (fun p => timeRw p.1)
    rc := warmCounts s d
    mem := { z.mem with
             sram := d.mem.sram
             banks := d.mem.banks.map (fun b => { bankNone with erased := b.erased, passes := b.passes, dueAt := tb2Ns t * Config.bankWords s.integ }) }
    leap := if d.host.discLoad = 0 then { z.leap with quar := s.leap.quar, scrubAt := tb2Ns t }
      else { z.leap with quar := s.leap.quar, scrubAt := tb2Ns t, refCode := d.leap.refCode, refModel := d.leap.refModel, refBundle := d.leap.refBundle }
    vrd := { z.vrd with spLevel := spLevelNow s, spAt := tb2Ns t, domeLevel := domeLevelNow s, domeAt := tb2Ns t, spUnit := spUnitNow s,
                        domeUnit := domeUnitNow s }
    ilk := { z.ilk with ports := pinPorts s }
    trc := pinCores s
    erc := { z.erc with ring := s.erc.ring, rseq := s.erc.rseq, flushed := s.erc.flushed, scanning := true }
    cmp := { z.cmp with fails := s.cmp.fails, disabled := s.cmp.disabled }
    host := { z.host with mboxes := lateMboxes d }
    boot := { z.boot with switching := s.boot.switching, result := if s.boot.cmd.isSome then 6 else 0 } }

/-- The block restarts warm; what it discarded is reported before anything new is taken (R578). -/
def warmRestart (s : State) (fallback : Bool) : State :=
  let z := warmState s fallback
  (lateMboxes z).foldl (fun a p => lateNext a p.1) z

/-- WARM_RESET: a restart that the host makes is no firmware switch. -/
def warmResetOp (s : State) : State := warmRestart (modBoot s (fun b => { b with switching := false })) false

/-- KEY_ANCHOR_CAPTURE: once after a power-on reset. -/
def keyCaptureOp (s : State) (anchor : Nat) : State :=
  if s.rst.keyState ≠ 0 then s
  else
    let k := anchor % 2 ^ 384
    { s with rst := { s.rst with key := k, keyState := if keyUsable k then 1 else 2 } }

/-- SETTINGS_WRITE_DONE: the record is programmed, and what waited for it restarts the block. -/
def settingsWriteDoneOp (s : State) : State :=
  match s.boot.want with
  | none => s
  | some x =>
    let s1 := modBoot (programSettings s x) (fun b => { b with want := none, after := .idle })
    match s.boot.after with
    | .idle => s1
    | .restart fb => warmRestart s1 fb

/-- RECORDER_RING_SCAN_DONE: every record in the kept ring counts as unflushed (R523). -/
def ringScanDoneOp (s : State) : State :=
  if !s.erc.scanning then s
  else
    let low := (s.erc.ring.head?.map (·.1)).getD (s.erc.rseq + 1)
    { s with erc := { s.erc with scanning := false, flushed := (low + 2 ^ 32 - 1) % 2 ^ 32 } }

end Sys2Proof.Machine
end

