-- ==== Sys2Proof/Machine/Map.lean ====
section
/-!
DEFINITION. The register window (R14, R605 to R608, R687): which register, unit and page a view finds at an offset, and what a register's word reads
(the register tables of every chapter), apart from what the read itself does.
-/
namespace Sys2Proof.Machine

/-! Where an access lands -/

/-- What a view finds at an offset: nothing it may reach, no register, or a register of the unit with a code (R37); `page` is the view whose page
holds it, 0 for a unit's own registers. -/
inductive Target where
  | forbidden
  | hole
  | reg (unit page : Nat) (r : Reg)
deriving DecidableEq, Repr

/-- Serial ports of the instance, which have a TIME_COMP (R190). -/
def serialPorts (g : Integ) : Nat := Config.ports g - Config.localPorts g

/-- A unit's register, with its code, at an offset below 0x8_0000 (R687). -/
def unitReg (g : Integ) (o : Nat) : Option (Nat × Reg) :=
  let u := o % 0x1000
  if 0x28000 ≤ o then none
  else if 0x20000 ≤ o then (mbxReg g.views (o - 0x20000)).map (15, ·)
  else if 0x10000 ≤ o then (capReg g.counters (o - 0x10000)).map (1, ·)
  else match o / 0x1000 with
    | 0 => (svcReg u).map (17, ·)
    | 1 => (timeReg 4 (Config.capInputs g) (serialPorts g) u).map (8, ·)
    | 2 => (regIn featMap u).map (2, ·)
    | 3 => (leapReg g.views u).map (3, ·)
    | 4 => (regIn redMap u).map (4, ·)
    | 5 => (regIn sealMap u).map (5, ·)
    | 6 => (regIn vrdMap u).map (6, ·)
    | 7 => (regIn ilkMap u).map (7, ·)
    | 8 => (trcReg g.traces u).map (9, ·)
    | 9 => (ercReg u).map (10, ·)
    | 10 => (regIn cmpMap u).map (11, ·)
    | 11 => (regIn memMap u).map (12, ·)
    | 12 => (regIn dmaMap u).map (13, ·)
    | 13 => (regIn mcuMap u).map (14, ·)
    | 14 => (regIn tenMap u).map (16, ·)
    | _ => (regIn pnlMap u).map (18, ·)

/-- The unit that holds a page's register: MBX, TIME, CAP, SVC for VERSION, else TEN. -/
def pageUnit : Reg → Nat
  | .tb3 _ _ => 8
  | .cap _ => 1
  | .svc _ => 17
  | .host (.tenSelf _) | .host (.sramKib _) | .host (.dlvWr _) | .host (.viewAcct _ _) | .rc (.tenDlvSkip _) => 16
  | .rw (.tenIrqAddr _ _) | .rw (.tenIrqData _) | .rw (.tenIrqCfg _) | .rw (.dlvBase _ _) | .rw (.dlvCfg _) | .rw (.dlvRd _) => 16
  | _ => 15

/-- What the page of view `v` holds at a page offset, for a request of view 0 or of `v` itself (R607, R636). -/
def pageTarget (s : State) (tenant : Bool) (v o : Nat) : Target :=
  if o = 0 then .reg 17 v (.svc .version)
  else if s.integ.views < v then (if tenant then .forbidden else .hole)
  else if tenant && (viewAt s v).st == 0 then .forbidden
  else match pageReg s.integ.counters v o with
    | some r => .reg (pageUnit r) v r
    | none => .hole

/-- What view `v` finds at window offset `o` (R605 to R607). -/
def targetAt (s : State) (v o : Nat) : Target :=
  let pos := (o - 0x80000) / 0x10000
  if v = 0 then
    (if o < 0x80000 then (match unitReg s.integ o with
      | some p => .reg p.1 0 p.2
      | none => .hole)
     else if o < 0x100000 then pageTarget s false (8 * (rwGet s .tenAperture % 32) + pos + 1) (o % 0x10000)
     else .hole)
  else if o < 0x80000 ∨ 0x100000 ≤ o then .forbidden
  else if o % 0x10000 = 0 then .reg 17 v (.svc .version)
  else if pos = (v - 1) % 8 then pageTarget s true v (o % 0x10000)
  else .forbidden

/-! Registers that read 0 and ignore writes -/

/-- The register of a time base that the class may lack. -/
def baseOf : Reg → Option Nat
  | .time (.now b _) | .time (.rate b _) | .time (.ctl b) | .time (.stat b) | .rw (.tbStep b _) => some b
  | _ => none

/-- The START and ACTIVATE broadcast registers (R503). -/
def bcReg : Reg → Bool
  | .rw .bcJob | .rw (.bcStart _) | .rw (.bcAckby _) | .rw .bcMissSel => true
  | .link .bcGo | .link .bcResult | .link .bcId | .link .bcReached | .link .bcJoined | .link .bcExpected | .link .bcMiss => true
  | _ => false

/-- The tray panel's registers (R603). -/
def pnlReg : Reg → Bool
  | .host .pnlStat | .host .pulled | .host .pnlCmd | .host (.evt _) | .host (.depEpoch _) => true
  | .rw .pnlLed | .rw .drainLead | .rc .pnlEvtLost => true
  | _ => false

/-- The register an access acts on: none where it reads 0 and ignores writes, by R158, R503 and R603, by R636 for TB3 of another view, and by R198 for
a lane that the page's view may not read. -/
def actOn (s : State) (page : Nat) (r : Reg) : Option Reg :=
  match r with
  | .tb3 v x => if tb3ViewNow s = v && hasBase s 3 then some x else none
  | .cap (.laneSnap n _) => if laneVisible s n page then some r else none
  | _ =>
    let lacks := (match baseOf r with
      | some b => !hasBase s b
      | none => false)
    if lacks || (bcReg r && roleOf s != 3) || (pnlReg r && (panelSec s).isNone) then none else some r

/-! Words, unit by unit -/

/-- Word `hi` of a pair. -/
def wordOf (hi : Bool) (v : Nat) : Nat := if hi then v / 2 ^ 32 % 2 ^ 32 else v % 2 ^ 32

def nodeCode : NodeClass → Nat
  | .n3 => 0
  | .n6 => 1
  | .n12 => 2

/-- SVC (R8, R11, R32, R33, R96, R679, R681). -/
def svcWord (s : State) : SvcReg → Nat
  | .version => 0x00020300
  | .cls => roleOf s * 256 + nodeCode s.integ.node * 16 + flag (Config.isSpireL s.integ)
  | .param0 => s.integ.views / 8 * 2 ^ 24 + s.integ.lanes * 65536 + s.integ.cam / 4096 * 256 + s.integ.sramMib
  | .param1 => s.integ.traces * 2 ^ 24 + s.integ.engines / 8 * 65536 + s.integ.rings / 1024 * 256 + s.integ.counters / 64
  | .idSerial hi => wordOf hi s.rst.serial
  | .position => s.rst.pkg % 256 * 256 + s.rst.die % 256
  | .rstCause => flag s.rst.fallback * 8 + flag s.rst.pfw * 4 + flag s.rst.warm * 2 + flag s.rst.por
  | .keyStat => s.rst.keyState
  | .bootStat => bootStatWord s
  | .fwVer => s.boot.fwVer
  | .trial => trialLeft s
  | .fwSchedHi => fwSchedWord s
  | .bstCmd => 0
  | .bstStat => bstStatWord s
  | .bufAddr => bufAddr s
  | .packSel => s.boot.packWant.getD s.boot.cur.packSlot
  | .pwr u => powerWord s u

/-- TIME (R188 to R190); TIME_CAP0 as its read pops it. -/
def timeWord (s : State) : TimeReg → Nat
  | .now b k => (nowWords s b).getD k 0
  | .rate b hi => wordOf hi (rateRead s b)
  | .ctl _ => 0
  | .stat b => tbStat s b
  | .grid => gridStat s
  | .epoch hi => wordOf hi (epochWord s)
  | .anchorNs => s.time.grid.anchor % 10 ^ 9
  | .anchorSec hi => wordOf hi (s.time.grid.anchor / 10 ^ 9)
  | .anchorEpoch hi => wordOf hi s.time.grid.anchorE
  | .cap 0 => (match s.time.fifo with
    | e :: _ => (capWords e).getD 0 0
    | [] => 0)
  | .cap _ => 0
  | .stbCtl n => (match s.time.strobes[n]? with
    | some k => flag k.late * 2 + flag k.armed
    | none => 0)

/-- LEAP_BADLOG0 (R394). -/
def badlogWord (l : LeapU) : Nat :=
  match l.badlog with
  | some b => flag l.badValid * 2 ^ 31 + b.kind * 2 ^ 28 + b.lane % 16 * 2 ^ 24 + b.model * 2 ^ 18 + b.base % 2 ^ 18
  | none => 0

/-- The epoch of the latest completed epoch vector. -/
def codeEpochNow (s : State) : Nat := (s.feat.latest.map (·.epoch)).getD 0

/-- CAP, FEAT and LEAP (R239, R356, R394, R425). -/
def capWord (s : State) : CapReg → Nat
  | .profWr => s.cap.prof.wr
  | .profStat => flag (profHeld s) * 2 + flag s.cap.prof.halt
  | .ringClr => 0
  | .stepNum => 0
  | .stepStat => sumOf ((List.range s.cap.slots.length).map (fun i => if ((s.cap.slots.getD i slotNone).openStep).isSome then 2 ^ i else 0))
  | .laneSnap n hi => wordOf hi (laneSnap s n)
  | .featStat => featStatWord s
  | .lastSat => (match s.feat.lastSat with
    | some i => 2 ^ 31 + i
    | none => 0)
  | .code => featCodeWord s
  | .codeEpoch hi => wordOf hi (codeEpochNow s)
  | .laneEn => s.leap.laneEn
  | .leapStat => lanesIn s * 65536 + min 255 (s.leap.jobs.filter jobLive).length
  | .badlog0 => badlogWord s.leap
  | .badlog1 => (s.leap.badlog.map (·.tree)).getD 0
  | .leapInj => 0
  | .scrubCfg => flag s.leap.scrubLate * 2 ^ 31 + rwGet s .leapScrubPeriod
  | .hotStat => hotStatWord s (rwGet s .leapHotSel)
  | .hotId => (modelAt s (rwGet s .leapHotSel)).bundle
  | .hotOrigin => (match (modelAt s (rwGet s .leapHotSel)).serving with
    | some c => (copyAt s c).origin
    | none => 0)
  | .hotCmd => 0
  | .loadStat => s.leap.refCode * 2 ^ 24 + s.leap.refModel * 65536 + flag s.leap.cmdRefused
  | .loadId => s.leap.refBundle
  | .schedStat => flag s.leap.overcommit * 2 ^ 31 + s.leap.quar.length * 256 + (slotsNow s).length
  | .acct hi => wordOf hi (lookupD s.leap.acct (rwGet s .leapAcctSel) 0)

/-- A level in 1/256 token: floor(256 × level ÷ cost), 0 where the budget has no cost (R457). -/
def tokenLevel (level cost : Nat) : Nat := 256 * level / cost

/-- ceil((64 + worst LENGTH of R244) ÷ 1,024) of the active image (R319). -/
def snapNeedWord (s : State) : Nat :=
  match s.img.active with
  | some im => ceilDiv (64 + worstOf im) 1024
  | none => 0

/-- Threshold of the selected detector entry. -/
def detHNow (s : State) : Nat := rwGet s (.detH (rwGet s .vrdDetSel))

/-- RED, SEAL, VRD and ILK (R289, R319, R457, R503, R604). -/
def linkWord (s : State) : LinkReg → Nat
  | .redStat => min 255 s.red.unsent.length * 256 + flag s.red.lastForm
  | .jobSel n => selWord (s.red.sels.getD n none)
  | .snapNeed => snapNeedWord s
  | .snapSeq hi => wordOf hi s.sealing.snapSeq
  | .depart k => departWord s k
  | .vrdStat => (detSec s).dets.length * 2 ^ 14 + flag s.vrd.peerGap * 2 ^ 13 + flag s.vrd.overflow * 2 ^ 12 + min 4095 s.vrd.queue.length
  | .spLevel => tokenLevel (spLevelNow s) (spUnitNow s)
  | .domeLevel => tokenLevel (domeLevelNow s) (domeUnitNow s)
  | .detCtl => rwGet s (.detMute (rwGet s .vrdDetSel)) * 2 ^ 31
  | .detH hi => wordOf hi (detHNow s)
  | .ringWr => s.vrd.ringWr
  | .portStat => portStatWord s (rwGet s .ilkPortSel)
  | .level => levelWord s (rwGet s .ilkPortSel)
  | .credit => creditWord s (rwGet s .ilkPortSel)
  | .uplink => s.ilk.failovers * 65536 + s.ilk.active
  | .bcGo => 0
  | .bcResult =>
    let b := s.ilk.result
    b.outcome * 2 ^ 30 + flag b.act * 2 ^ 29 + flag b.refused * 2 ^ 28 + flag b.overflow * 2 ^ 27 + min 255 b.miss.length
  | .bcId => s.ilk.result.id
  | .bcReached => min (2 ^ 21 - 1) s.ilk.result.reached
  | .bcJoined => min (2 ^ 21 - 1) s.ilk.result.joined
  | .bcExpected => min (2 ^ 21 - 1) s.ilk.result.expected
  | .bcMiss => s.ilk.result.miss.getD (rwGet s .bcMissSel) 0

/-- The ring record that ERC_WIN_SEQ names (R524), where it can be read (R562). -/
def winRecord (s : State) : Option Bytes := (s.erc.ring.find? (fun p => p.1 == rwGet s .ercWinSeq && !p.2.isEmpty)).map (·.2)

/-- TRC, ERC, CMP and MEM (R535 to R537, R566). -/
def memWord (s : State) : MemReg → Nat
  | .trcSize c => rwGet s (.trcSize c)
  | .trcWr c => (coreAt s c).wr
  | .trcStat c => trcStatWord s c
  | .trcBseq c => (coreAt s c).bseq
  | .freeze => flag s.erc.freeze
  | .ercStat => min 65535 s.erc.frozenN * 65536 + flag s.erc.bbWrite.isSome * 4 + flag s.erc.flushing * 2 + flag (ercHeldUp s)
  | .ercCmd => 0
  | .rseq => s.erc.rseq
  | .flushed => s.erc.flushed
  | .winStat => flag (winRecord s).isSome
  | .bufFill b => (ercBuf s.erc (b == 1)).fill
  | .chain => flag s.erc.cur * 4 + flag s.erc.bufB.arm * 2 + flag s.erc.bufA.arm
  | .win k => leAt ((winRecord s).getD []) (4 * k) 4
  | .cmpStat => cmpStatWord s
  | .memStat => s.rst.selftest * 65536 + flag s.rst.failWdn * 2 ^ 13 + s.rst.failBank * 256 + Config.banks s.integ
  | .scrubStat => scrubPasses s * 65536 + flag s.mem.late
  | .lastCe hi => wordOf hi s.mem.lastCe
  | .lastUe hi => wordOf hi s.mem.lastUe
  | .bankStat => bankStatWord s
  | .inj => injWord s.mem.inj

/-- MCU, PNL, MBX, TEN and DMA (R138 to R143, R602, R603, R636, R644, R645, R680); `rq` reads PNL_EVT's stamp, and MBX_LOCK as it stands. -/
def hostWord (s : State) (rq : Requester) : HostReg → Nat
  | .imgCmd => 0
  | .imgStat => imgStatWord s
  | .imgDetail => s.img.detail
  | .imgGen => imgGenWord s
  | .imgSchema => imgSchemaWord s
  | .actResult hi => if hi then s.img.switched else s.img.outcome * 2 ^ 30 + s.img.reached
  | .fltStat => s.flt.fifo.length
  | .fsCmd => 0
  | .fsStat => flag s.flt.active * 256 + s.flt.cause
  | .fltPop => 0
  | .fltEnt k => (match s.flt.ent with
    | some f => leAt (faultBytes f) (4 * k) 4
    | none => 0)
  | .mirStat => mirStatWord s
  | .rebuildLeft => s.mir.left
  | .confirm => 0
  | .pnlStat => pnlStatWord s
  | .pulled => s.pnl.pulled
  | .pnlCmd => 0
  | .evt 0 => eventWord s
  | .evt k => eventStamp s rq k
  | .depEpoch hi => wordOf hi (depEpochNow s)
  | .mbxLock m => (match (mbxAt s m).owner with
    | some o => if o = rq then 0 else ownerWord o
    | none => 0)
  | .mbxRelease _ => 0
  | .mbxDoorbell _ => 0
  | .mbxAck m => ackWord s m
  | .mbxStat m => mbxStatWord s m
  | .ptpRxWr => s.host.ptpWr
  | .viewStat => viewStatWord s (rwGet s .tenViewSel)
  | .poolFree => poolFree s
  | .denyLast k => denyWord s k
  | .chStat => chStatWord s (rwGet s .dmaChSel)
  | .tenSelf v => v * 65536 + (viewAt s v).st
  | .sramKib v => 64 * (viewAt s v).units.length
  | .dlvWr v => (viewAt s v).dlvWr
  | .viewAcct v hi => wordOf hi (viewAt s v).acct

/-- The current value of a register (R20); TB3's of a page are read as the base's own. -/
def regWord (s : State) (rq : Requester) : Reg → Nat
  | .rc r => rcGet s r
  | .rw .sealDue => rwGet s .sealDue % 2 ^ 24
  | .rw r => rwGet s r % 2 ^ 32
  | .ilkCnt c => rcGet s (.ilk (rwGet s .ilkPortSel) c)
  | .ilkCapSel => rwGet s (.ilkCap (rwGet s .ilkPortSel))
  | .svc r => svcWord s r
  | .time r => timeWord s r
  | .cap r => capWord s r
  | .link r => linkWord s r
  | .mem r => memWord s r
  | .host r => hostWord s rq r
  | .tb3 _ _ => 0

end Sys2Proof.Machine
end

