-- ==== Sys2Proof/Machine/Access.lean ====
section
/-!
DEFINITION. A register access (R14 to R21, R54 to R58, R87, R605 to R608): what a read does (R15, R16, R20, R150, R189, R356, R603, R610), what a write
of each register starts, and the access of a requester with its acknowledge.
-/
namespace Sys2Proof.Machine

/-- The view of an access: the service requester acts in view 0 (R87). -/
def viewOf (a : Access) : Nat :=
  match a.rq with
  | .reg _ => a.view
  | .svc => 0

/-! Reads -/

def modBus (s : State) (f : Bus → Bus) : State := { s with bus := f s.bus }

/-- The latch of R15: requester `rq` will next read `v` in `r`. -/
def latch (rq : Requester) (s : State) (p : Reg × Nat) : State := modBus s (fun b => { b with latches := aset b.latches (rq, p.1) p.2 })

/-- What a read of `r` latches for its requester: the high word of a pair (R15), NOW1 to NOW3 (R150), the rest of a capture entry (R189), the epoch of
a code (R356). -/
def latchesOf (s : State) (rq : Requester) (r : Reg) : List (Reg × Nat) :=
  match r with
  | .time (.now b 0) => [1, 2, 3].map (fun k => (Reg.time (.now b k), (nowWords s b).getD k 0))
  | .time (.cap 0) => (match s.time.fifo with
    | e :: _ => [1, 2, 3].map (fun k => (Reg.time (.cap k), (capWords e).getD k 0))
    | [] => [])
  | .cap .code => [(Reg.cap (.codeEpoch false), wordOf false (codeEpochNow s)), (Reg.cap (.codeEpoch true), wordOf true (codeEpochNow s))]
  | _ => (match pairHigh r with
    | some h => [(h, regWord s rq h)]
    | none => [])

/-- Registers that keep showing what the read of their head latched. -/
def keepsLatch : Reg → Bool
  | .time (.cap _) => true
  | .cap (.codeEpoch _) => true
  | _ => false

/-- What a read changes besides latches: counters that clear, entries that pop, a mailbox that is acquired. -/
def readEffect (s : State) (rq : Requester) (r : Reg) : State :=
  match r with
  | .rc .featBufHwm => bufMark (rcClear s .featBufHwm)
  | .rc c => rcClear s c
  | .ilkCnt c => rcClear s (.ilk (rwGet s .ilkPortSel) c)
  | .time (.stat b) => modBase s b (fun k => { k with refused := 0 })
  | .time (.cap 0) => modTime s (fun t => { t with fifo := t.fifo.drop 1 })
  | .cap (.acct false) => modLeap s (fun l => { l with acct := dropKey l.acct (rwGet s .leapAcctSel) })
  | .host (.evt 0) => eventPop s rq
  | .host (.mbxLock m) => (lockRead s m rq).1
  | _ => s

/-- A read of register `r` (R15, R20): the value latched for its requester, or the current value with what the read does. -/
def readReg (s : State) (rq : Requester) (r : Reg) : State × Nat :=
  match aget s.bus.latches (rq, r) with
  | some v => (if keepsLatch r then s else modBus s (fun b => { b with latches := adel b.latches (rq, r) }), v)
  | none => (readEffect ((latchesOf s rq r).foldl (latch rq) s) rq r, regWord s rq r)

/-! Writes of plain registers -/

/-- A plain register takes a value; one that adjusts an image takes effect at the next edge while the grid is RUNNING, else at once (R135). -/
def putRw (s : State) (r : RwReg) (v : Nat) : State :=
  if !adjustable r then rwSet s r v
  else if gridRuns s && hasImage s then
    rwSet { s with adj := if (aget s.adj r).isSome then s.adj else aset s.adj r (rwGet s r) } r v
  else cutRates (rwSet (settleRates s) r v)

/-- The plain write of `d` by the register's own table; an adjustment that the register does not take leaves nothing pending (R134). -/
def plainWrite (s : State) (r : RwReg) (d : Nat) : State := if adjustable r && !taken r d then s else putRw s r (rwWrite r (rwGet s r) d)

def adjReject (s : State) : State := modImg s (fun u => { u with adjReject := true })

/-- A cap of the selected port: refused below its demand (R122); a port that the instance lacks takes none. -/
def capWrite (s : State) (d : Nat) : State :=
  let p := rwGet s .ilkPortSel
  let v := rwWrite (.ilkCap p) (rwGet s (.ilkCap p)) d
  let isOver := (match s.img.active with
    | some im => (match portEnt im.topo p with
      | some e => overBudget im e v (rwGet s .mirCfg % 16)
      | none => false)
    | none => false)
  if Config.ports s.integ ≤ p || !taken (.ilkCap p) d then s
  else if isOver then adjReject s
  else putRw s (.ilkCap p) v

/-- MCU_MIR_CFG: MP stays where the mirror port could not carry it (R584). -/
def mirWrite (s : State) (d : Nat) : State :=
  let old := rwGet s .mirCfg
  let v := rwWrite .mirCfg old d
  let isOver := (match s.img.active with
    | some im => im.topo.ports.any (fun e => overBudget im e (rwGet s (.ilkCap e.port)) (v % 16) && !overBudget im e (rwGet s (.ilkCap e.port)) (old % 16))
    | none => false)
  if isOver then adjReject (rwSet s .mirCfg (v / 256 * 256 + old % 16)) else rwSet s .mirCfg v

/-- A view's ring or interrupt address is in use and lies outside its window (R636). -/
def ringOutside (s : State) (v : Nat) : Bool :=
  let c := rwGet s (.dlvCfg v)
  c / 65536 != 0 && !inWindowOf (viewAt s v) (pairBase s (.dlvBase v)) (c / 65536 * (c % 256) * 1024)

def irqOutside (s : State) (v : Nat) : Bool :=
  rwGet s (.tenIrqCfg v) != 0 && !inWindowOf (viewAt s v) (pairBase s (.tenIrqAddr v)) 4

/-- A denied access is counted with its offset, view and requester (R608). -/
def deny (s : State) (a : Access) (off : Nat) : State :=
  modHost (rcInc s .tenDeny) (fun h => { h with denyOff := off, denyView := viewOf a, denyRid := (match a.rq with
    | .reg r => r
    | .svc => 0) })

/-- A write of a view's ring or interrupt register is taken back, and counted, where it would place what is in use outside the window (R636). -/
def windowWrite (s : State) (bad : State → Bool) (r : RwReg) (d : Nat) : State :=
  let t := plainWrite s r d
  if bad t then rcInc s .tenDeny else t

/-- MBX_PTR, MBX_LEN and MBX_OP take the owner's writes alone (R612). -/
def mailWrite (s : State) (rq : Requester) (m : Nat) (r : RwReg) (d : Nat) : State :=
  if (mbxAt s m).owner = some rq then plainWrite s r d else rcInc s (.mbxIgnored m)

/-- The value a write would leave lies within those R453 gives the field for the node's role; without an image, for any role (R456). -/
def budgetOk (s : State) (r : RwReg) (v : Nat) : Bool :=
  let role := roleOf s
  match r with
  | .vrdSpBucket =>
    (role != 2 && v == 0) ||
    ((role == 0 || role == 2) && decide (1 ≤ v / 2 ^ 24) && decide (v / 2 ^ 24 ≤ 16) && decide (1 ≤ v % 2 ^ 24) && decide (v % 2 ^ 24 ≤ 86400))
  | .vrdDomeBudget =>
    (role != 3 && v == 0) ||
    ((role == 0 || role == 3) && decide (1 ≤ v / 65536) && decide (v / 65536 ≤ 512) && decide (1 ≤ v % 65536) && decide (v % 65536 ≤ 10000))
  | .vrdVoteWait =>
    (!(detSec s).quorum && v == 0) || ((role == 0 || (detSec s).quorum) && decide (100 ≤ v) && decide (v ≤ 5000))
  | _ => true

/-- A write of a plain register. -/
def rwWriteReg (s : State) (rq : Requester) (r : RwReg) (d : Nat) : State :=
  match r with
  | .sealWin => if roleOf s = 1 then s else plainWrite s r d
  | .sealDue => if d % 2 ^ 24 < 4000 then s else plainWrite s r d
  | .mirCfg => mirWrite s d
  | .tenIrqAddr v _ | .tenIrqCfg v => windowWrite s (fun t => irqOutside t v) r d
  | .dlvBase v _ | .dlvCfg v => windowWrite s (fun t => ringOutside t v) r d
  | .mbxPtr m _ | .mbxLen m | .mbxOp m => mailWrite s rq m r d
  | .capObs => mmPump (plainWrite s r d)
  | .sealCfg => sealNow (plainWrite s r d)
  | .vrdSpBucket | .vrdDomeBudget | .vrdVoteWait => if budgetOk s r (rwWrite r 0 d) then plainWrite s r d else s
  | _ => plainWrite s r d

/-! Writes of the other registers, unit by unit -/

/-- VRD_DET_H: the low word is held, the high word commits both where R454 allows the value; an entry that the image lacks takes none. -/
def detHWrite (s : State) (hi : Bool) (d : Nat) : State :=
  let k := rwGet s .vrdDetSel
  if !hi then modVrd s (fun u => { u with hHeld := some (k, d) })
  else
    let lo := (match s.vrd.hHeld with
      | some (j, w) => if j = k then w else wordOf false (detHNow s)
      | none => wordOf false (detHNow s))
    let h := lo + d * 2 ^ 32
    let s1 := modVrd s (fun u => { u with hHeld := none })
    match (detSec s).dets[k]? with
    | some e => if limitOk e h then putRw s1 (.detH k) h else s1
    | none => s1

def muteWrite (s : State) (d : Nat) : State :=
  let k := rwGet s .vrdDetSel
  if k < (detSec s).dets.length then putRw s (.detMute k) (d / 2 ^ 31 % 2) else s

/-- ERC_FREEZE (R525). -/
def freezeWrite (s : State) (d : Nat) : State :=
  if d % 2 = 0 then ercPump (ercUnfreeze s)
  else if s.erc.freeze then s
  else { s with erc := { s.erc with freeze := true, frozen := tallyNone, frozenN := 0, frozenStep := false } }

/-- A host buffer is armed (R527): not while it is, nor with SIZE 0. -/
def armBuf (s : State) (b : Bool) : State :=
  let n := if b then 1 else 0
  if (ercBuf s.erc b).arm || rwGet s (.ercBufSize n) == 0 then s
  else { s with erc := setErcBuf s.erc b (fun _ => ⟨true, pairBase s (.ercBufBase n), rwGet s (.ercBufSize n), 0⟩) }

/-- ERC_CHAIN (R527). -/
def chainWrite (s : State) (d : Nat) : State :=
  let s1 := if d.testBit 0 then armBuf s false else s
  ercPump (if d.testBit 1 then armBuf s1 true else s1)

/-- The profile channel goes on (R234). -/
def profHaltClear (s : State) : State :=
  profCopy (modCap { s with mm := { s.mm with halted := dropKey s.mm.halted 0 } } (fun c => { c with prof := { c.prof with halt := false } }))

/-- A trace ring's SIZE (R514, R535). -/
def trcSizeWrite (s : State) (c d : Nat) : State := sizeWrite (plainWrite s (.trcSize c) d) c (rwWrite (.trcSize c) 0 d)

/-- LEAP_HOT_CMD (R425): LOAD of LEAP_HOT_ARG, or a command on LEAP_HOT_SEL. -/
def hotWrite (s : State) (d : Nat) : State :=
  let n := rwGet s .leapHotSel
  match d % 8 with
  | 1 => leapSettle s (loadCmd s (rwGet s .leapHotArg))
  | 2 => pumpRuns (leapSettle s (evictCmd s n))
  | 3 => pinCmd s n true
  | 4 => leapSettle s (pinCmd s n false)
  | 5 => leapSettle s (repairCmd s n)
  | _ => s

/-- LEAP_LANE_EN (R391). -/
def laneWrite (s : State) (d : Nat) : State := pumpRuns (leapSettle s (laneEnable s (d % 65536)))

/-- MCU_IMG_CMD (R138). -/
def imgWrite (s : State) (d : Nat) : State :=
  match d % 16 with
  | 1 => stageOp s 0
  | 2 => stageOp s 1
  | 3 => leapSettle s (discardStagedOp s)
  | 4 => pumpRuns (leapSettle s (scheduleLocalOp s))
  | _ => s

/-- MCU_FLT_POP (R602). -/
def faultPop (s : State) : State := { s with flt := { s.flt with ent := s.flt.fifo.head?, fifo := s.flt.fifo.drop 1 } }

def svcWrite (s : State) (r : SvcReg) (d : Nat) : State :=
  match r with
  | .rstCause => { s with rst := { s.rst with
      fallback := s.rst.fallback && !d.testBit 3, pfw := s.rst.pfw && !d.testBit 2, warm := s.rst.warm && !d.testBit 1, por := s.rst.por && !d.testBit 0 } }
  | .bootStat => bootStatWrite s d
  | .fwSchedHi => fwSchedWrite s d
  | .bstCmd => bstCommand s (d % 16)
  | .bstStat => modBoot s (fun b => { b with conflict := b.conflict && !d.testBit 1 })
  | .packSel => packWrite s d
  | .pwr u => powerWrite s u d
  | .version | .cls | .param0 | .param1 | .idSerial _ | .position | .keyStat | .fwVer | .trial | .bufAddr => s

/-- TIME_TBn_CTL: REARM first, refused on a view's page, then STEP_GO (R153 to R155, R158). -/
def ctlWrite (s : State) (page b d : Nat) : State :=
  let s1 := if d.testBit 1 then (if page = 0 then rearmOp s b else refuseBase s b) else s
  if d.testBit 0 then stepGoOp s1 b else s1

def timeWrite (s : State) (page : Nat) (r : TimeReg) (d : Nat) : State :=
  match r with
  | .rate b hi => if hi then rateHigh s b d else rateLow s b d
  | .ctl b => ctlWrite s page b d
  | .stat b => modBase s b (fun k => { k with warmCut := k.warmCut && !d.testBit 1 })
  | .grid => modGrid s (fun g => { g with stepped := g.stepped && !d.testBit 2 })
  | .stbCtl n =>
    let s1 := modStrobe s n (fun k => { k with late := k.late && !d.testBit 1 })
    if d.testBit 0 then strobeArmOp s1 n else s1
  | .now _ _ | .epoch _ | .anchorNs | .anchorSec _ | .anchorEpoch _ | .cap _ => s

def capWriteReg (s : State) (r : CapReg) (d : Nat) : State :=
  match r with
  | .profStat => if d.testBit 0 then profHaltClear s else s
  | .ringClr => ringClear s (d % 65536)
  | .stepNum => stepMarkOp s d
  | .laneEn => laneWrite s d
  | .badlog0 => modLeap s (fun l => { l with badValid := l.badValid && !d.testBit 31 })
  | .leapInj => leapInjectOp s (d / 65536 % 16) (d % 8)
  | .scrubCfg => plainWrite (modLeap s (fun l => { l with scrubLate := l.scrubLate && !d.testBit 31 })) .leapScrubPeriod d
  | .hotCmd => hotWrite s d
  | .loadStat => modLeap s (fun l => { l with cmdRefused := l.cmdRefused && !d.testBit 0 })
  | .schedStat => modLeap s (fun l => { l with overcommit := l.overcommit && !d.testBit 31 })
  | .profWr | .stepStat | .laneSnap _ _ | .featStat | .lastSat | .code | .codeEpoch _ | .leapStat | .badlog1 | .hotStat | .hotId | .hotOrigin
  | .loadId | .acct _ => s

def linkWrite (s : State) (r : LinkReg) (d : Nat) : State :=
  match r with
  | .vrdStat => modVrd s (fun u => { u with peerGap := u.peerGap && !d.testBit 13, overflow := u.overflow && !d.testBit 12 })
  | .detCtl => muteWrite s d
  | .detH hi => detHWrite s hi d
  | .portStat =>
    let p := rwGet s .ilkPortSel
    modIlk s (fun u => { u with ports := u.ports.map (fun q => if q.1 = p then (p, { q.2 with pfail := q.2.pfail && !d.testBit 6 }) else q) })
  | .bcGo => if d.testBit 0 then startIssueOp s else s
  | .bcResult => modResult s (fun b => { b with refused := b.refused && !d.testBit 28 })
  | .redStat | .jobSel _ | .snapNeed | .snapSeq _ | .depart _ | .spLevel | .domeLevel | .ringWr | .level | .credit | .uplink | .bcId | .bcReached
  | .bcJoined | .bcExpected | .bcMiss => s

def memWrite1 (s : State) (r : MemReg) (d : Nat) : State :=
  match r with
  | .trcSize c => trcSizeWrite s c d
  | .trcStat c => if d.testBit 0 then trcHaltClear s c else s
  | .freeze => freezeWrite s d
  | .ercCmd => if d.testBit 0 then ercFlush s 1 0 else s
  | .chain => chainWrite s d
  | .scrubStat => { s with mem := { s.mem with late := s.mem.late && !d.testBit 0 } }
  | .bankStat => if d.testBit 31 then erasureEndOp s else s
  | .inj => injWrite s d
  | .trcWr _ | .trcBseq _ | .ercStat | .rseq | .flushed | .winStat | .bufFill _ | .win _ | .cmpStat | .memStat | .lastCe _ | .lastUe _ => s

def hostWrite (s : State) (a : Access) (r : HostReg) (d : Nat) : State :=
  match r with
  | .imgCmd => imgWrite s d
  | .imgStat => imgStatWrite s d
  | .fsCmd => failSilentWrite s d
  | .fltPop => if d.testBit 0 then faultPop s else s
  | .mirStat => modMir s (fun u => { u with abandoned := u.abandoned && !d.testBit 16 })
  | .confirm => confirmWrite s d
  | .pulled => modPnl s (fun u => { u with pulled := u.pulled - (u.pulled &&& d) })
  | .pnlCmd => (match d % 4 with
    | 1 => askDeparture s 2
    | 2 => askCancel s 2
    | _ => s)
  | .mbxRelease m => releaseWrite s m a.rq (viewOf a) d
  | .mbxDoorbell m => ringDoorbell s m a.rq d
  | .mbxStat m => if d.testBit 1 then modMbx s m (fun k => { k with done := false }) else s
  | .chStat => if d.testBit 31 then dmaHaltClearOp s else s
  | .imgDetail | .imgGen | .imgSchema | .actResult _ | .fltStat | .fsStat | .fltEnt _ | .rebuildLeft | .pnlStat | .evt _ | .depEpoch _ | .mbxLock _
  | .mbxAck _ | .ptpRxWr | .viewStat | .poolFree | .denyLast _ | .tenSelf _ | .sramKib _ | .dlvWr _ | .viewAcct _ _ => s

/-- A write of `d` to register `r` by an access, on the page of view `page` (0: a unit's own register). -/
def writeReg (s : State) (a : Access) (page : Nat) (r : Reg) (d : Nat) : State :=
  match r with
  | .rw r => rwWriteReg s a.rq r d
  | .ilkCapSel => capWrite s d
  | .svc r => svcWrite s r d
  | .time r => timeWrite s page r d
  | .cap r => capWriteReg s r d
  | .link r => linkWrite s r d
  | .mem r => memWrite1 s r d
  | .host r => hostWrite s a r d
  | .rc _ | .ilkCnt _ | .tb3 _ _ => s

/-! The access -/

/-- Writes that a page still takes while its view is FROZEN: the doorbell, which completes with ERR_FROZEN (R639). -/
def takenFrozen : Reg → Bool
  | .host (.mbxDoorbell _) => true
  | _ => false

/-- Writes that a fail-silent block takes (R572). -/
def takenSilent : Reg → Bool
  | .host .fltPop => true
  | _ => false

/-- A write that reaches a register of unit `u`: ignored while the block is fail-silent (R572), ignored and counted on a FROZEN view's page (R639), kept
until the unit reaches ON while it is in RET or OFF (R49), else done. -/
def writeAt (s : State) (a : Access) (u page : Nat) (r : Reg) (d : Nat) : State :=
  if s.flt.active && !takenSilent r then s
  else if page ≠ 0 ∧ (viewAt s page).st = 2 ∧ !takenFrozen r then rcInc s .tenDeny
  else match actOn s page r with
    | none => s
    | some x =>
      let s1 := touch s u
      if asleep s u then modBus s1 (fun b => { b with deferred := b.deferred ++ [(u, .write a x d)] }) else writeReg s1 a page x d

/-- A read that reaches a register. -/
def readAt (s : State) (a : Access) (page : Nat) (r : Reg) : State × Nat :=
  match actOn s page r with
  | some x => readReg s a.rq x
  | none => (s, 0)

/-- An access at a window offset, with the data it reads (0 for a write): by where it lands (R21, R608). During steps 3 to 5 of R103 only SVC's registers
answer, and nothing is counted (R104). -/
def accessAt (s : State) (a : Access) (off : Nat) (wr : Option Nat) : State × Nat :=
  let o := off / 4 * 4
  match targetAt s (viewOf a) o with
  | .forbidden => (if earlyStart s then s else deny s a o, 0)
  | .hole => (if earlyStart s then s else rcInc s .tenHole, 0)
  | .reg u page r =>
    if earlyStart s && u != 17 then (s, 0)
    else match wr with
      | some d => (writeAt s a u page r d, 0)
      | none => readAt s a page r

/-- The port takes no further request (R56). -/
def portFull (s : State) : Bool := decide (8 ≤ s.bus.queue.length)

/-- The acknowledge of a request of the register port (R54, R56). -/
def ackReg (s : State) (rq : Requester) (data : Nat) : State :=
  match rq with
  | .reg rid => modBus s (fun b => { b with queue := b.queue ++ [⟨rid, data⟩] })
  | .svc => modBoot s (fun b => { b with svcOut := [data] })

/-- A register access: accepted while fewer than 8 requests are outstanding, and acknowledged after it. -/
def accessOp (s : State) (a : Access) (off : Nat) (wr : Option Nat) : State :=
  match a.rq with
  | .reg _ =>
    if portFull s then s
    else
      let r := accessAt s a off wr
      ackReg r.1 a.rq r.2
  | .svc =>
    let r := accessAt s a off wr
    match wr with
    | some _ => r.1
    | none => ackReg r.1 a.rq r.2

/-- The oldest outstanding request is acknowledged (R54, R56). -/
def acknowledgeOp (s : State) : State :=
  match s.bus.queue with
  | k :: rest => modBus s (fun b => { b with queue := rest, ackOut := some k })
  | [] => modBus s (fun b => { b with ackOut := none })

/-! The service port (R85 to R87) -/

/-- Words read at consecutive offsets over the service port; an address past the window finds no register. -/
def svcWords : Nat → State → Nat → State × List Nat
  | 0, s, _ => (s, [])
  | n + 1, s, o =>
    let r := accessAt s ⟨.svc, 0⟩ o none
    let t := svcWords n r.1 (o + 4)
    (t.1, r.2 :: t.2)

/-- SVC_REGISTER_READ: `words` words from a register offset. -/
def svcReadOp (s : State) (addr words : Nat) : State :=
  let r := svcWords words s addr
  modBoot r.1 (fun b => { b with svcOut := r.2 })

/-- Whole words of a service transaction, most significant byte first; a word cut short is discarded (R85, R87). -/
def wordsOf : Nat → Bytes → List Nat
  | 0, _ => []
  | n + 1, b => if b.length < 4 then [] else beAt b 0 4 :: wordsOf n (b.drop 4)

def svcPuts : List Nat → State → Nat → State
  | [], s, _ => s
  | w :: ws, s, o => svcPuts ws (accessAt s ⟨.svc, 0⟩ o (some w)).1 (o + 4)

/-- SVC_REGISTER_WRITE: words written at consecutive offsets. -/
def svcWriteOp (s : State) (addr : Nat) (data : Bytes) : State := svcPuts (wordsOf data.length data) s addr

/-- SVC_STATUS_READ: SVC_BOOT_STAT bits [19:0] (R679). -/
def svcStatusOp (s : State) : State := modBoot s (fun b => { b with svcOut := [bootStatWord s % 2 ^ 20] })

/-- The opcodes of R86 and R665. -/
def svcOpcodes : List Nat := [0x0B, 0x02, 0x05, 0x12, 0x1B]

/-- SVC_UNKNOWN_OPCODE: ignored to its end, the data line at 0. -/
def svcUnknownOp (s : State) (op : Nat) : State := if svcOpcodes.contains (op % 256) then s else modBoot s (fun b => { b with svcOut := [] })

end Sys2Proof.Machine
end

