-- ==== Sys2Proof/Machine/Places.lean ====
section
/-!
DEFINITION. Window offsets of the registers that have a command of their own (R188, R190, R239, R457, R566, R602, R609, R636, R644, R645, R679 to R681,
R687), and the access of such a command.
-/
namespace Sys2Proof.Machine

/-- A write of `d` at an offset. -/
def putAt (s : State) (a : Access) (off d : Nat) : State := accessOp s a off (some d)

/-- A read at an offset. -/
def getAt (s : State) (a : Access) (off : Nat) : State := accessOp s a off none

/-- The page of a view as the view's own requests find it (R606). -/
def pageOff (v : Nat) : Nat := 0x80000 + 0x10000 * ((v - 1) % 8)

/-- A time base's register: TB3 through the page of a tenant, the others at TIME's offsets (R188, R636). -/
def tbOff (a : Access) (b o : Nat) : Nat :=
  if viewOf a ≠ 0 ∧ b = 3 then pageOff (viewOf a) + 0x100 + o else 0x1000 + 0x40 * b + o

/-- A mailbox's register: through the view's own page, else at MBX's offsets (R609). -/
def mbxOff (a : Access) (m o : Nat) : Nat :=
  if viewOf a ≠ 0 ∧ m = 7 + viewOf a then pageOff (viewOf a) + 0x40 + o
  else if m < 8 then 0x20000 + 0x40 * m + o
  else 0x20400 + 0x40 * (m - 8) + o

/-- Strobe `n`'s registers (R190). -/
def stbOff (n o : Nat) : Nat := 0x1300 + 0x10 * n + o

/-- SVC_PWRn (R681). -/
def pwrOff (u : Nat) : Nat := 0x200 + 4 * (u - 1)

/-- Trace core `c`'s registers (R535). -/
def trcOff (c o : Nat) : Nat := 0x8400 + 0x20 * c + o

/-- A doorbell of mailbox `m` whose message has opcode `op` (R613, R618): the row of another opcode changes nothing. -/
def bellOp (s : State) (a : Access) (m : Nat) (d : Word) (op : Nat) : State :=
  if (messageOf s m).op = op then putAt s a (mbxOff a m 0x18) d.toNat else s

/-- A doorbell whose opcode R618 does not list (R619). -/
def bellUnknown (s : State) (a : Access) (m : Nat) (d : Word) : State :=
  if 9 < (messageOf s m).op then putAt s a (mbxOff a m 0x18) d.toNat else s

/-- A command that may have ended jobs, degraded models or freed feature slots: the hot set and the LEAP_RUN commands go on. -/
def settled (old s : State) : State := pumpRuns (leapSettle old s)

end Sys2Proof.Machine
end

