-- ==== Sys2Proof/Machine/Serve.lean ====
section
/-!
DEFINITION. A unit that reaches ON (R94): what waited for it is served in the order of arrival (R48, R49), and its work goes on.
-/
namespace Sys2Proof.Machine

/-- A command that waited for its unit. -/
def serveCommand (s : State) (i : Instr) : State :=
  match i with
  | .bufWrite a d => bufWriteOp s a d
  | .bufRead a words => bufReadOp s a words
  | .verdictReceive p b => verdictReceiveOp s p b
  | .voteProposeReceive p b => proposeReceive s p b
  | .ballotReceive p b => ballotReceiveOp s p b
  | .startReceive p b => startReceiveOp s p b
  | .activateReceive p b => activateReceiveOp s p b
  | .ackReceive p b => ackReceiveOp s p b
  | .mirrorReceive p => mirrorReceiveOp s p
  | .syncReqReceive p => syncReqReceiveOp s p
  | .syncDataReceive p => syncDataReceiveOp s p
  | .departRequestReceive p b => departRequestOp s p b
  | .departGrantReceive p b => departGrantOp s p b
  | .departSafeReceive p b => departSafeOp s p b
  | .departCancelReceive p b => departCancelOp s p b
  | .departCancelledReceive p b => departCancelledOp s p b
  | _ => s

/-- A request that waited. -/
def serveHeld (s : State) (w : HeldReq) : State :=
  match w with
  | .write a r d => writeReg s a 0 r d
  | .command i => serveCommand s i

/-- What goes on in a unit that has reached ON, once what waited is served: ERC's records and flushes, LEAP's loads, the memory master port and the
commands that move data. -/
def wakeWork (s : State) (u : Nat) : State :=
  if u = 3 then loadPump s
  else if u = 10 then ercWake s
  else if u = 12 ∨ u = 13 then ercPump (mbxSettle s)
  else s

/-- PWR_ON_ACK. -/
def powerAckOp (s : State) (u : Nat) : State :=
  let s1 := pwrAck s u
  if asleep s1 u then s1
  else
    let ws := s1.bus.deferred.filter (fun w => w.1 == u)
    wakeWork (ws.foldl (fun t w => serveHeld t w.2) (modBus s1 (fun b => { b with deferred := b.deferred.filter (fun w => w.1 != u) }))) u

end Sys2Proof.Machine
end

