-- ==== Sys2Proof/Machine/CmdPort.lean ====
section
/-!
DEFINITION. The commands of resets and start-up, power, the register and service ports, and the memory master port (R14 to R21, R45 to R64, R84 to R107,
R560, R571, R605 to R608, R665, R681 to R684).
-/
namespace Sys2Proof.Machine

abbrev Result := Host.Outcome State Fault Refusal

def execPowerOnReset (p : Straps) (s : State) : Result := .next (powerOnResetOp s p)

def execWarmReset (s : State) : Result := .next (warmResetOp s)

def execSramInitialisation (s : State) : Result := .next (sramInitOp s)

def execCheckerSelfTest (failed : Option Nat) (s : State) : Result := .next (selfTestOp s failed)

def execKeyAnchorCapture (anchor : Nat) (s : State) : Result := .next (keyCaptureOp s anchor)

def execPwrFailWarn (s : State) : Result := .next (warnOp s)

def execPwrFailWarnFall (s : State) : Result := .next (warnFallOp s)

def execPowerFailFlushDone (s : State) : Result := .next (flushDoneOp s)

def execPwrOnAck (u : Nat) (s : State) : Result := .next (powerAckOp s u)

def execPwrAckLate (u : Nat) (s : State) : Result := .next (ackLateOp s u)

def execUnitGate (u : Nat) (s : State) : Result := .next (gateOp s u)

def execUnitRetain (u : Nat) (s : State) : Result := .next (retainOp s u)

def execWakeAhead (s : State) : Result := .next (wakeAheadOp s)

def execPowerRegisterWrite (a : Access) (u : Nat) (d : Word) (s : State) : Result := .next (putAt s a (pwrOff u) d.toNat)

def execRegisterWrite (a : Access) (off : Nat) (d : Word) (s : State) : Result := .next (putAt s a off d.toNat)

def execPairLowRead (a : Access) (off : Nat) (s : State) : Result := .next (getAt s a off)

def execRcRead (a : Access) (off : Nat) (s : State) : Result := .next (getAt s a off)

def execRegAcknowledge (s : State) : Result := .next (acknowledgeOp s)

def execForbiddenAccess (a : Access) (off : Nat) (d : Option Word) (s : State) : Result := .next (accessOp s a off (d.map (·.toNat)))

def execSvcRegisterRead (addr words : Nat) (s : State) : Result := .next (svcReadOp s addr words)

def execSvcRegisterWrite (addr : Nat) (data : Bytes) (s : State) : Result := .next (svcWriteOp s addr data)

def execSvcStatusRead (s : State) : Result := .next (svcStatusOp s)

def execSvcUnknownOpcode (op : Nat) (s : State) : Result := .next (svcUnknownOp s op)

def execBufWrite (addr : Nat) (data : Bytes) (s : State) : Result := .next (bufWriteCmd s addr data)

def execBufRead (addr words : Nat) (s : State) : Result := .next (bufReadCmd s addr words)

def execMmReadBeat (tag : Nat) (data : Bytes) (last : Bool) (err : Nat) (s : State) : Result := .next (readBeatOp s tag data last err)

def execMmWriteCompletion (tag err : Nat) (s : State) : Result := .next (writeCompletionOp s tag err)

end Sys2Proof.Machine
end

