-- ==== Sys2Proof/Machine/CmdCapture.lean ====
section
/-!
DEFINITION. The commands of the capture taps, of step marks, rings and profile buffers (R65 to R77, R191 to R239), and of the trace port (R504 to R517).
-/
namespace Sys2Proof.Machine

def execCounterIncrement (l : List IncSlot) (s : State) : Result := .next (incSlots s l)

def execEngineEvent (l : List EngSlot) (s : State) : Result := .next (engSlots s l)

def execRingEvent (l : List RingSlot) (s : State) : Result := .next (ringSlots s l)

def execEccEvent (l : List EccSlot) (s : State) : Result := .next (l.foldl eccSlot s)

def execSensorSample (l : List SensorSlot) (s : State) : Result := .next (l.foldl snsSlot s)

def execLinkErrorReport (l : List LinkSlot) (s : State) : Result := .next (l.foldl lnkSlot s)

def execTraceEvent (l : List TraceSlot) (s : State) : Result := .next (l.foldl traceOne s)

def execTracePowerDownRequest (c : Nat) (s : State) : Result := .next (powerDown s c)

def execTracePowerUp (c : Nat) (s : State) : Result := .next (powerUp s c)

def execTracePowerAckTimeout (c : Nat) (s : State) : Result := .next (ackTimeout s c)

def execStepMark (a : Access) (d : Word) (s : State) : Result := .next (putAt s a 0x10064 d.toNat)

def execRingClear (a : Access) (d : Word) (s : State) : Result := .next (putAt s a 0x10058 d.toNat)

def execProfileBufferCopy (s : State) : Result := .next (profCopy s)

def execProfileHaltClear (a : Access) (s : State) : Result := .next (putAt s a 0x10054 1)

end Sys2Proof.Machine
end

