-- ==== Sys2Proof/Machine/CmdEngine.lean ====
section
/-!
DEFINITION. The commands of FEAT, record formation in a Newt, detectors, LEAP and resident models (R28, R320 to R436, R443).
-/
namespace Sys2Proof.Machine

def execEpochSampleTakeUp (poisoned : List Nat) (s : State) : Result := .next (whenOn s 2 (fun t => settled t (takeEpoch t poisoned)))

def execEventSampleTakeUp (poisoned : List Nat) (s : State) : Result := .next (whenOn s 2 (fun t => settled t (takeEvent t poisoned)))

def execFeatureVectorComplete (s : State) : Result := .next (whenOn s 2 (fun t => settled t (vectorDone t)))

def execNewtRecordReady (poisoned : List Nat) (s : State) : Result := .next (whenOn s 4 (fun t => settled t (newtReady t poisoned)))

def execDetectorPass (s : State) : Result := .next (whenOn s 6 (fun t => settled t (detectorPassOp t)))

def execPeerGapNote (s : State) : Result := .next (whenOn s 6 (fun t => peerGapNote t))

def execStrandDispatch (lane ctx : Nat) (s : State) : Result := .next (whenOn s 3 (fun t => dispatch t lane ctx))

def execLeap (l : List LeapIssue) (s : State) : Result := .next (whenOn s 3 (fun t => settled t (leapCycle t l)))

def execJobComplete (job : Nat) (s : State) : Result := .next (whenOn s 3 (fun t => settled t (completeJob t job)))

def execLeapScrubRead (index upset : Nat) (s : State) : Result := .next (whenOn s 3 (fun t => settled t (scrubEntry t index upset)))

def execLeapScrubWriteback (index : Nat) (s : State) : Result := .next (whenOn s 3 (fun t => scrubEntryBack t index))

def execLaneEnableWrite (a : Access) (d : Word) (s : State) : Result := .next (putAt s a 0x3000 d.toNat)

def execLeapInject (a : Access) (d : Word) (s : State) : Result := .next (putAt s a 0x3040 d.toNat)

def execLoad (a : Access) (s : State) : Result := .next (putAt s a 0x3120 1)

def execEvict (a : Access) (s : State) : Result := .next (putAt s a 0x3120 2)

def execPin (a : Access) (s : State) : Result := .next (putAt s a 0x3120 3)

def execUnpin (a : Access) (s : State) : Result := .next (putAt s a 0x3120 4)

def execRepair (a : Access) (s : State) : Result := .next (putAt s a 0x3120 5)

def execBundleFetchDone (s : State) : Result := .next (settled s (fetchDone s))

def execBundleVerifyDone (s : State) : Result := .next (whenOn s 3 (fun t => settled t (verifyDone t)))

def execInstallDone (bad : Option Nat) (s : State) : Result := .next (whenOn s 3 (fun t => settled t (installDone t bad)))

end Sys2Proof.Machine
end

