-- ==== Sys2Proof/Machine/CmdFault.lean ====
section
/-!
DEFINITION. The commands of faults and fail-silence, mirrors and spares, and the tray panel (R568 to R604).
-/
namespace Sys2Proof.Machine

def execFaultPop (a : Access) (s : State) : Result := .next (putAt s a 0xD210 1)

def execFailSilentCommand (a : Access) (d : Word) (s : State) : Result := .next (putAt s a 0xD208 d.toNat)

def execWardenWatchdogExpiry (s : State) : Result := .next (watchdogOp s)

def execMirrorReceive (p : Nat) (s : State) : Result := .next (awaitUnit s 14 (.mirrorReceive p) (fun t => mirrorReceiveOp t p))

def execSyncReqSend (s : State) : Result := .next (whenOn s 14 syncReqSendOp)

def execSyncReqReceive (p : Nat) (s : State) : Result := .next (awaitUnit s 14 (.syncReqReceive p) (fun t => syncReqReceiveOp t p))

def execSyncDataReceive (p : Nat) (s : State) : Result := .next (awaitUnit s 14 (.syncDataReceive p) (fun t => syncDataReceiveOp t p))

def execSyncWaitExpiry (s : State) : Result := .next (whenOn s 14 syncWaitExpiryOp)

def execRebuildEnd (s : State) : Result := .next (whenOn s 14 rebuildEndOp)

def execPanelEdgeSettled (input : Nat) (level : Bool) (s : State) : Result := .next (panelEdgeOp s input level)

def execLongPress (s : State) : Result := .next (whenOn s 18 longPressOp)

def execPanelRequest (a : Access) (s : State) : Result := .next (putAt s a 0xF00C 1)

def execPanelCancel (a : Access) (s : State) : Result := .next (putAt s a 0xF00C 2)

def execDepartRequestRetry (s : State) : Result := .next (whenOn s 18 requestRetryOp)

def execDepartRequestReceive (p : Nat) (b : Bytes) (s : State) : Result := .next (awaitUnit s 14 (.departRequestReceive p b) (fun t => departRequestOp t p b))

def execDepartGrantReceive (p : Nat) (b : Bytes) (s : State) : Result := .next (awaitUnit s 14 (.departGrantReceive p b) (fun t => departGrantOp t p b))

def execDepartSafeReceive (p : Nat) (b : Bytes) (s : State) : Result := .next (awaitUnit s 14 (.departSafeReceive p b) (fun t => departSafeOp t p b))

def execDepartCancelReceive (p : Nat) (b : Bytes) (s : State) : Result := .next (awaitUnit s 14 (.departCancelReceive p b) (fun t => departCancelOp t p b))

def execDepartCancelledReceive (p : Nat) (b : Bytes) (s : State) : Result := .next (awaitUnit s 14 (.departCancelledReceive p b) (fun t => departCancelledOp t p b))

def execPanelEventPop (a : Access) (s : State) : Result := .next (getAt s a 0xF010)

end Sys2Proof.Machine
end

