-- ==== Sys2Proof/Machine/CmdHost.lean ====
section
/-!
DEFINITION. The commands of mailboxes, doorbells, tenant views and DMA channels (R609 to R645).
-/
namespace Sys2Proof.Machine

def execMailboxLockRead (a : Access) (m : Nat) (s : State) : Result := .next (getAt s a (mbxOff a m 0))

def execMailboxRelease (a : Access) (m : Nat) (s : State) : Result := .next (putAt s a (mbxOff a m 4) 1)

def execMailboxForceRelease (a : Access) (m : Nat) (s : State) : Result := .next (putAt s a (mbxOff a m 4) 2)

def execNop (a : Access) (m : Nat) (d : Word) (s : State) : Result := .next (bellOp s a m d 0)

def execDma (a : Access) (m : Nat) (d : Word) (s : State) : Result := .next (bellOp s a m d 1)

def execLeapRun (a : Access) (m : Nat) (d : Word) (s : State) : Result := .next (bellOp s a m d 2)

def execPtpTx (a : Access) (m : Nat) (d : Word) (s : State) : Result := .next (bellOp s a m d 3)

def execViewCfg (a : Access) (m : Nat) (d : Word) (s : State) : Result := .next (bellOp s a m d 4)

def execViewFreeze (a : Access) (m : Nat) (d : Word) (s : State) : Result := .next (bellOp s a m d 5)

def execViewThaw (a : Access) (m : Nat) (d : Word) (s : State) : Result := .next (bellOp s a m d 6)

def execViewSave (a : Access) (m : Nat) (d : Word) (s : State) : Result := .next (bellOp s a m d 7)

def execViewRestore (a : Access) (m : Nat) (d : Word) (s : State) : Result := .next (bellOp s a m d 8)

def execViewReset (a : Access) (m : Nat) (d : Word) (s : State) : Result := .next (bellOp s a m d 9)

def execViewResetComplete (v : Nat) (s : State) : Result := .next (whenOn s 16 (fun t => viewResetCompleteOp t v))

def execDmaHaltClear (a : Access) (s : State) : Result := .next (putAt s a 0xC004 (2 ^ 31))

def execDoorbellUnknownOpcode (a : Access) (m : Nat) (d : Word) (s : State) : Result := .next (bellUnknown s a m d)

end Sys2Proof.Machine
end

