-- ==== Sys2Proof/Machine/CmdLink.lean ====
section
/-!
DEFINITION. The commands of sealing, links, uplinks, broadcasts, verdicts and PTP (R246, R271 to R310, R426 to R503, R632).
-/
namespace Sys2Proof.Machine

def execRecordSegmentReceive (p : Nat) (b : Bytes) (s : State) : Result := .next (noteReceiving (segmentReceive s p b) p)

def execRecordReceive (p : Nat) (s : State) : Result := .next (whenOn s 4 (fun t => whenOn t 5 (fun x => safeCheck (recordReceive x p))))

def execSeal (l : List MergeFault) (s : State) : Result := .next (whenOn s 5 (fun t => safeCheck (sealCmd t l)))

def execMergedRecordReady (s : State) : Result := .next (whenOn s 4 (fun t => settled t (mergedReady t)))

def execDownReceive (p : Nat) (s : State) : Result := .next (whenOn s 4 (fun t => downReceiveOp t p))

def execChildRecordRelease (s : State) : Result := .next (whenOn s 5 (fun t => releaseChildren t))

/-- A frame starts; where it is a mailbox's PTP message its stamp goes back (R631). -/
def execFrameTransmitStart (p : Nat) (s : State) : Result :=
  let r := transmit s p
  match r.2 with
  | some m => .next (ptpSent r.1 m)
  | none => .next r.1

def execHeartbeatSend (p : Nat) (s : State) : Result := .next (heartbeatSendOp s p)

def execHeartbeatReceive (p : Nat) (b : Bytes) (s : State) : Result := .next (heartbeatReceiveOp s p b)

def execHeartbeatMiss (p : Nat) (s : State) : Result := .next (heartbeatMissOp s p)

def execLinkUpFall (p : Nat) (s : State) : Result := .next (linkFall s p)

def execLinkUpRise (p : Nat) (s : State) : Result := .next (linkRise s p)

/-- The port's frames are dropped, mailboxes' PTP messages among them (R99). -/
def execPortClockStop (p : Nat) (s : State) : Result :=
  let t := clockStop s p
  .next (if (portAt t p).queue.isEmpty then ptpDropped t (portAt s p).queue else t)

def execGateWindowChange (p : Nat) (s : State) : Result := .next (gateChange s p)

def execUplinkRevert (s : State) : Result := .next (uplinkRevertOp s)

def execResendReqReceive (p : Nat) (b : Bytes) (s : State) : Result := .next (resendReqOp s p b)

def execDownMissingTimeout (s : State) : Result := .next (downMissing s)

def execDownExpired (p : Nat) (s : State) : Result := .next (expireDown s p)

def execHeldCopyExpiry (s : State) : Result := .next (expireHeld s)

def execStartIssue (a : Access) (s : State) : Result := .next (putAt s a 0x711C 1)

def execStartReceive (p : Nat) (b : Bytes) (s : State) : Result := .next (awaitUnit s 14 (.startReceive p b) (fun t => startReceiveOp t p b))

def execStartRetry (s : State) : Result := .next (whenOn s 14 (fun t => startRetryOp t))

def execAckReceive (p : Nat) (b : Bytes) (s : State) : Result := .next (awaitUnit s 14 (.ackReceive p b) (fun t => ackReceiveOp t p b))

def execAckDeadline (s : State) : Result := .next (whenOn s 14 (fun t => ackDeadlineOp t))

def execBroadcastOutcome (s : State) : Result := .next (whenOn s 14 (fun t => broadcastOutcomeOp t))

def execActivateIssue (s : State) : Result := .next (whenOn s 14 (fun t => activateIssueOp t))

def execActivateReceive (p : Nat) (b : Bytes) (s : State) : Result := .next (awaitUnit s 14 (.activateReceive p b) (fun t => activateReceiveOp t p b))

def execVerdictReceive (p : Nat) (b : Bytes) (s : State) : Result := .next (awaitUnit s 6 (.verdictReceive p b) (fun t => verdictReceiveOp t p b))

def execVoteProposeReceive (p : Nat) (b : Bytes) (s : State) : Result := .next (awaitUnit s 6 (.voteProposeReceive p b) (fun t => proposeReceive t p b))

def execBallotReceive (p : Nat) (b : Bytes) (s : State) : Result := .next (awaitUnit s 6 (.ballotReceive p b) (fun t => ballotReceiveOp t p b))

def execVoteTimeout (vid : Nat) (s : State) : Result := .next (whenOn s 6 (fun t => voteTimeoutOp t vid))

def execVerdictRingWrite (s : State) : Result := .next (whenOn s 6 (fun t => ringWriteOp t))

def execDetectorThresholdCommit (a : Access) (d : Word) (s : State) : Result := .next (putAt s a 0x606C d.toNat)

def execPtpReceive (p : Nat) (b : Bytes) (s : State) : Result := .next (ptpReceiveOp s p b)

def execReceivedFrameDrop (p : Nat) (rxErr : Bool) (b : Bytes) (s : State) : Result := .next (frameDrop s p rxErr b)

end Sys2Proof.Machine
end

