-- ==== Sys2Proof/Machine/Poison.lean ====
section
/-!
DEFINITION. What a unit does when a read of one of its structures meets an uncorrectable or poisoned word (R223, R562). A mailbox's DMA reads meet such
words in SRAM itself (Mem.lean), FEAT, RED and LEAP in the operands of their own commands.
-/
namespace Sys2Proof.Machine

/-- A warden fetch: the second in a page within 1 s of TB2 makes the block fail-silent (WDN_FETCH). -/
def struckFetch (s : State) (page : Nat) : State :=
  let t := tb2Ns s
  if ((lookup s.flt.fetches page).map (fun u => decide (t ≤ u + 10 ^ 9))).getD false then enterFailSilent s 10 (locWord s 3 14 1 0 0)
  else { s with flt := { s.flt with fetches := setKey s.flt.fetches page t } }

/-- A warden structure that nothing replaces (WDN_DATA): a bank's word, or one of the warden data memory. -/
def struckWarden (s : State) (bank : Option Nat) : State :=
  enterFailSilent s 11 (match bank with
    | some b => locWord s 3 12 b 0 0
    | none => locWord s 3 14 2 0 0)

/-- A frozen copy: POISONED of its sample (R223). -/
def struckFrozen (s : State) (x : Nat) : State :=
  modCap s (fun c => { c with frozen := c.frozen.map (fun f => if f.epoch = x then { f with poisoned := true } else f) })

/-- A tree record: the tree is retired as at a memory fault (R378), which no entry has failed in and no lane has met (DESIGN CHOICE, log entry 151). -/
def struckTree (s : State) (cid tree : Nat) : State :=
  match (s.leap.copies.find? (fun c => c.cid == cid)).bind (fun c => c.trees[tree]?) with
  | some t => if t.retired then s else memoryFault s cid tree 7 0xF t.base t.base []
  | none => s

/-- A head block: the model is evicted and loaded again from its shadow, its jobs in flight ending DISCARDED_MODEL. -/
def struckHead (s : State) (n : Nat) : State :=
  let m := modelAt s n
  if m.serving.isNone ∨ m.st = 7 then s
  else
    let fb := (m.serving.map (fun c => (copyAt s c).isFb)).getD false
    let s1 := discardJobs (evictModel s n true) 6 (fun j => j.model == n && j.cid != 0)
    match shadowOf s n m with
    | some x => loadPump (shadowLoad s1 x n none false false fb)
    | none => loadPump s1

/-- A word of 16 bytes is zeroed. -/
def zeroWord (b : Bytes) (i : Nat) : Bytes := patch b (i / 16 * 16) (zeros 16)

/-- The `n`-th profile chunk that waits for CMP has a word zeroed. -/
def zeroChunk (i : Nat) : Nat → List ZipJob → List ZipJob
  | _, [] => []
  | n, j :: r =>
    if j.owner == .prof then (if n = 0 then { j with raw := zeroWord j.raw i } :: r else j :: zeroChunk i (n - 1) r)
    else j :: zeroChunk i n r

/-- Profile chunks that wait for CMP behind byte `i` of the buffer `q`. -/
def chunksBehind (s : State) (q i : Nat) : Nat :=
  let l := (s.cap.prof.bufs.filter (fun b => b.stored.isNone)).dropWhile (fun b => b.seq != q)
  sumOf (l.map (fun b => ceilDiv b.data.length 4096)) - 1 - i / 4096

/-- A profile buffer, byte `i` of what follows its header: it is closed, with POISONED and the word's bytes zero (R229); one on its way to host memory
has left. -/
def struckProfile (s : State) (q i : Nat) : State :=
  let mark (b : ProfBuf) : ProfBuf := { b with pois := true, data := zeroWord b.data i, stored := b.stored.map (zeroWord · i) }
  let p := s.cap.prof
  if p.cur.any (fun b => b.seq == q) then profShut (modCap s (fun c => { c with prof := { c.prof with cur := c.prof.cur.map mark } })) false
  else if p.flying && p.bufs.head?.any (fun b => b.seq == q) then s
  else
    let zip := p.bufs.any (fun b => b.seq == q && b.stored.isNone)
    let n := (s.cmp.queue.filter (fun j => j.owner == .prof)).length
    let s1 := modCap s (fun c => { c with prof := { c.prof with bufs := c.prof.bufs.map (fun b => if b.seq = q then (if b.zip && b.stored.isNone then { b with pois := true } else mark b) else b) } })
    if zip && decide (chunksBehind s q i < n) then modCmp s1 (fun c => { c with queue := zeroChunk (i % 4096) (n - 1 - chunksBehind s q i) c.queue }) else s1

/-- The `n`-th block of a core that waits for CMP leaves its queue. -/
def dropZip (c : Nat) : Nat → List ZipJob → List ZipJob
  | _, [] => []
  | n, j :: r => if j.owner == .trc c then (if n = 0 then r else j :: dropZip c (n - 1) r) else j :: dropZip c n r

/-- A trace block being staged is dropped: its events and markers count as lost, and the next block begins with OVERFLOW (R510). -/
def struckTrace (s : State) (c q : Nat) : State :=
  let k := coreAt s c
  let lose (t : State) (b : TBlock) : State := bufferFreed (loseMarks (loseEvents t c b.events b.insns 0) c b.markers) c
  match k.cur.filter (fun b => b.bseq == q) with
  | some b => lose (modCore s c (fun x => { x with cur := none })) b
  | none =>
    match k.closed.find? (fun b => b.bseq == q) with
    | some b =>
      let n := ((k.closed.takeWhile (fun x => x.bseq != q)).filter (fun x => !x.ready)).length
      let s1 := modCore s c (fun x => { x with closed := x.closed.filter (fun y => y.bseq != q) })
      lose (if b.ready then s1 else modCmp s1 (fun m => { m with queue := dropZip c n m.queue })) b
    | none => s

/-- A recorder record: nothing sends it any more, and it counts in ERC_OVERWRITE. -/
def struckRecord (s : State) (q : Nat) : State :=
  if ((lookup s.erc.ring q).map (fun r => !r.isEmpty)).getD false then
    rcInc { s with erc := { s.erc with ring := s.erc.ring.map (fun r => if r.1 = q then (q, []) else r) } } .ercOverwrite
  else s

/-- A mailbox or tenant-view structure: that view's command ends with ERR_MEM. -/
def struckMbx (s : State) (m : Nat) : State :=
  match (mbxAt s m).cmd with
  | some (.late _) | some (.ending _ _ _) | none => s
  | some _ => endCmd s m 0x0A

/-- The answers of R562, by structure. -/
def struckOp (s : State) (h : Struck) : State :=
  if s.flt.active then s
  else match h with
    | .data => s
    | .wardenFetch page => struckFetch s page
    | .stagingArea => stagingEnd s true
    | .baseline i => modVrd s (fun u => { u with dets := u.dets.modify i (fun _ => detNone) })
    | .shadow b => modLeap s (fun l => { l with shadows := l.shadows.filter (fun x => x.bundle != b) })
    | .wardenData bank => struckWarden s bank
    | .captureMacro => modCap s (fun c => { c with poisoned := true })
    | .frozenCopy x => struckFrozen s x
    | .recordHeader x held => if held then s else modRed s (fun u => { u with unsent := u.unsent.filter (fun r => r.epoch != x) })
    | .heldCopy down x n => modIlk s (fun u => { u with held := u.held.filter (fun k => !(k.down == down && k.epoch == x && k.node == n)) })
    | .treeRecord cid t => struckTree s cid t
    | .headBlock n => struckHead s n
    | .profileBuffer q i => struckProfile s q i
    | .traceBlock c q => struckTrace s c q
    | .recorderRecord q => struckRecord s q
    | .mailbox m => struckMbx s m

end Sys2Proof.Machine
end

