-- ==== Sys2Proof/Machine/CmdRecord.lean ====
section
/-!
DEFINITION. The commands of trace blocks, compression, the event recorder and the SRAM banks (R509 to R567, R648).
-/
namespace Sys2Proof.Machine

def execTraceBlockAgeClose (c : Nat) (s : State) : Result := .next (whenOn s 9 (fun t => ageClose t c))

def execTraceBlockWrite (c : Nat) (s : State) : Result := .next (whenOn s 9 (fun t => blockWrite t c))

def execTraceHaltClear (a : Access) (c : Nat) (s : State) : Result := .next (putAt s a (trcOff c 0x14) 1)

def execTraceRingSizeWrite (a : Access) (c : Nat) (d : Word) (s : State) : Result := .next (putAt s a (trcOff c 0x08) d.toNat)

def execCompressBlockDone (mismatch : Bool) (s : State) : Result := .next (whenOn s 11 (fun t => compressDone t mismatch))

def execRecorderWindowSelect (a : Access) (d : Word) (s : State) : Result := .next (putAt s a 0x9018 d.toNat)

def execRecorderFreeze (a : Access) (s : State) : Result := .next (putAt s a 0x9004 1)

def execRecorderRelease (a : Access) (s : State) : Result := .next (putAt s a 0x9004 0)

def execRecorderFlush (a : Access) (s : State) : Result := .next (putAt s a 0x900C 1)

/-- The drain's oldest record has reached DRAIN_AGE epochs (R526): what the drain has gathered closes as a chunk. -/
def chunkAge (s : State) : State :=
  match s.erc.drain with
  | (_, ep) :: _ =>
    if s.erc.chunk.isSome || !ercArmed s || mmQuiet s || decide (epochNow s < ep + rwGet s .ercCfg / 256 % 256) then s
    else ercPump (ercForm { s with erc := { s.erc with drain := s.erc.drain.drop 16 } } ((s.erc.drain.take 16).map (·.1)) false)
  | [] => s

def execRecorderChunkAge (s : State) : Result := .next (whenOn s 10 (fun t => chunkAge t))

def execBufferArm (a : Access) (b : Nat) (s : State) : Result := .next (putAt s a 0x9060 (if b = 0 then 1 else 2))

def execRecorderRingScanDone (s : State) : Result := .next (whenOn s 10 (fun t => ringScanDoneOp t))

def execBlackBoxPageDone (s : State) : Result := .next (bbPageDone s)

def execBlackBoxSetErased (s : State) : Result := .next (setErasedOp s)

/-- The oldest merge-buffer entry of the bank has stood 32 cycles (R555). -/
def ageDrain (s : State) (b : Nat) : State :=
  match (bankAt s b).merge with
  | e :: _ => drainEnt (advanceCore s (e.since + 32)) b e
  | [] => s

def execMergeBufferAgeDrain (b : Nat) (s : State) : Result := .next (whenOn s 12 (fun t => ageDrain t b))

def execMemScrubRead (b : Nat) (s : State) : Result := .next (whenOn s 12 (fun t => scrubRead t b))

def execMemScrubWriteback (b : Nat) (s : State) : Result := .next (whenOn s 12 (fun t => scrubWriteback t b))

def execPoisonRewrite (w : StruckAt) (s : State) : Result :=
  .next (whenOn s 12 (fun t => settled t (struckOp (poisonRewriteOp t w.bank) w.hit)))

def execErasureEnd (a : Access) (s : State) : Result := .next (putAt s a 0xB048 (2 ^ 31))

def execInjectionArm (a : Access) (d : Word) (s : State) : Result := .next (putAt s a 0xB050 d.toNat)

end Sys2Proof.Machine
end

