-- ==== Sys2Proof/Machine/CmdTime.lean ====
section
/-!
DEFINITION. The commands of TIME (R144 to R190): rates, steps, the epoch strobe, capture inputs, strobes and PPS out.
-/
namespace Sys2Proof.Machine

def execRateLowWrite (a : Access) (b : Nat) (d : Word) (s : State) : Result := .next (putAt s a (tbOff a b 0x10) d.toNat)

def execRateCommit (a : Access) (b : Nat) (d : Word) (s : State) : Result := .next (putAt s a (tbOff a b 0x14) d.toNat)

def execRateApply (b : Nat) (s : State) : Result := .next (rateApplyTop s b)

def execStepGo (a : Access) (b : Nat) (s : State) : Result := .next (putAt s a (tbOff a b 0x24) 1)

def execRearm (a : Access) (b : Nat) (s : State) : Result := .next (putAt s a (tbOff a b 0x24) 2)

/-- A step of TB0 that makes the strobe lets LEAP and the mailboxes go on; another step touches neither. -/
def execStepApply (b : Nat) (s : State) : Result :=
  .next (if b = 0 && gridRuns s && !(baseAt s b).stepWait.isEmpty then settled s (stepApplyOp s b) else stepApplyOp s b)

def execTimeNowRead (a : Access) (b : Nat) (s : State) : Result := .next (getAt s a (tbOff a b 0))

/-- A strobe does work in LEAP and the mailboxes only where an image is in force and the block is not fail-silent (R97, R572, R690). -/
def execEpochStrobe (s : State) : Result :=
  .next (if s.flt.active || !hasImage s || s.time.grid.st == .exhausted then epochStrobeOp s else settled s (epochStrobeOp s))

def execCaptureInputEdge (l : List Nat) (s : State) : Result := .next (captureEdges s l)

def execCaptureFifoPop (a : Access) (s : State) : Result := .next (getAt s a 0x1200)

def execStrobeArm (a : Access) (n : Nat) (s : State) : Result := .next (putAt s a (stbOff n 0xC) 1)

def execStrobeFire (n : Nat) (s : State) : Result := .next (strobeFireOp s n)

def execPpsOutStart (s : State) : Result := .next (ppsStart s)

def execPpsOutEnd (s : State) : Result := .next (ppsEnd s)

end Sys2Proof.Machine
end

