-- ==== Sys2Proof/Machine/CmdUpdate.lean ====
section
/-!
DEFINITION. The commands of images, settings, firmware, the boot store, trials and packs (R109 to R143, R646 to R680).
-/
namespace Sys2Proof.Machine

def execStage (a : Access) (slot : Nat) (s : State) : Result := .next (putAt s a 0xD100 (if slot = 0 then 1 else 2))

def execDiscardStaged (a : Access) (s : State) : Result := .next (putAt s a 0xD100 3)

def execScheduleLocal (a : Access) (s : State) : Result := .next (putAt s a 0xD100 4)

def execStagingDone (s : State) : Result := .next (whenOn s 14 (fun t => settled t (stagingDoneOp t)))

def execOldImageRelease (s : State) : Result := .next (oldReleaseOp s)

def execSettingsRead (s : State) : Result := .next (settingsReadOp s)

def execFirmwareLoad (s : State) : Result := .next (firmwareLoadOp s)

def execSettingsWriteDone (s : State) : Result := .next (settingsWriteDoneOp s)

def execErase (a : Access) (s : State) : Result := .next (putAt s a 0x120 1)

def execProgram (a : Access) (s : State) : Result := .next (putAt s a 0x120 2)

def execRead (a : Access) (s : State) : Result := .next (putAt s a 0x120 3)

def execCheck (a : Access) (s : State) : Result := .next (putAt s a 0x120 4)

def execSaveFlash (a : Access) (s : State) : Result := .next (putAt s a 0x120 5)

def execBootStoreCommandDone (flashError : Bool) (s : State) : Result := .next (bstDoneOp s flashError)

def execFirmwareSwitchArm (a : Access) (d : Word) (s : State) : Result := .next (putAt s a 0x114 d.toNat)

def execTrialConfirm (a : Access) (s : State) : Result := .next (putAt s a 0xD400 0x5C0F0001)

def execTrialSelfConfirm (s : State) : Result := .next (selfConfirmOp s)

def execTrialReject (a : Access) (s : State) : Result := .next (putAt s a 0xD400 0x5C0F0002)

def execTrialExpiry (s : State) : Result := .next (trialExpiryOp s)

def execPackSelect (a : Access) (d : Word) (s : State) : Result := .next (putAt s a 0x13C d.toNat)

end Sys2Proof.Machine
end

