-- ==== Sys2Proof/Machine/Dispatch.lean ====
section
/-!
DEFINITION. The dispatch: one arm for each command, each a direct call of its meaning.
-/
namespace Sys2Proof.Machine

def exec (i : Instr) (s : State) : Host.Outcome State Fault Refusal :=
  match i with
  | .powerOnReset straps => Sys2Proof.Machine.execPowerOnReset straps s
  | .warmReset => Sys2Proof.Machine.execWarmReset s
  | .sramInitialisation => Sys2Proof.Machine.execSramInitialisation s
  | .checkerSelfTest failed => Sys2Proof.Machine.execCheckerSelfTest failed s
  | .keyAnchorCapture anchor => Sys2Proof.Machine.execKeyAnchorCapture anchor s
  | .pwrFailWarn => Sys2Proof.Machine.execPwrFailWarn s
  | .pwrFailWarnFall => Sys2Proof.Machine.execPwrFailWarnFall s
  | .powerFailFlushDone => Sys2Proof.Machine.execPowerFailFlushDone s
  | .pwrOnAck unit => Sys2Proof.Machine.execPwrOnAck unit s
  | .pwrAckLate unit => Sys2Proof.Machine.execPwrAckLate unit s
  | .unitGate unit => Sys2Proof.Machine.execUnitGate unit s
  | .unitRetain unit => Sys2Proof.Machine.execUnitRetain unit s
  | .wakeAhead => Sys2Proof.Machine.execWakeAhead s
  | .powerRegisterWrite a unit data => Sys2Proof.Machine.execPowerRegisterWrite a unit data s
  | .registerWrite a off data => Sys2Proof.Machine.execRegisterWrite a off data s
  | .pairLowRead a off => Sys2Proof.Machine.execPairLowRead a off s
  | .rcRead a off => Sys2Proof.Machine.execRcRead a off s
  | .regAcknowledge => Sys2Proof.Machine.execRegAcknowledge s
  | .forbiddenAccess a off data => Sys2Proof.Machine.execForbiddenAccess a off data s
  | .svcRegisterRead addr words => Sys2Proof.Machine.execSvcRegisterRead addr words s
  | .svcRegisterWrite addr data => Sys2Proof.Machine.execSvcRegisterWrite addr data s
  | .svcStatusRead => Sys2Proof.Machine.execSvcStatusRead s
  | .svcUnknownOpcode opcode => Sys2Proof.Machine.execSvcUnknownOpcode opcode s
  | .bufWrite addr data => Sys2Proof.Machine.execBufWrite addr data s
  | .bufRead addr words => Sys2Proof.Machine.execBufRead addr words s
  | .mmReadBeat tag data last err => Sys2Proof.Machine.execMmReadBeat tag data last err s
  | .mmWriteCompletion tag err => Sys2Proof.Machine.execMmWriteCompletion tag err s
  | .counterIncrement slots => Sys2Proof.Machine.execCounterIncrement slots s
  | .engineEvent slots => Sys2Proof.Machine.execEngineEvent slots s
  | .ringEvent slots => Sys2Proof.Machine.execRingEvent slots s
  | .eccEvent slots => Sys2Proof.Machine.execEccEvent slots s
  | .sensorSample slots => Sys2Proof.Machine.execSensorSample slots s
  | .linkErrorReport slots => Sys2Proof.Machine.execLinkErrorReport slots s
  | .traceEvent slots => Sys2Proof.Machine.execTraceEvent slots s
  | .tracePowerDownRequest core => Sys2Proof.Machine.execTracePowerDownRequest core s
  | .tracePowerUp core => Sys2Proof.Machine.execTracePowerUp core s
  | .tracePowerAckTimeout core => Sys2Proof.Machine.execTracePowerAckTimeout core s
  | .stepMark a data => Sys2Proof.Machine.execStepMark a data s
  | .ringClear a data => Sys2Proof.Machine.execRingClear a data s
  | .profileBufferCopy => Sys2Proof.Machine.execProfileBufferCopy s
  | .profileHaltClear a => Sys2Proof.Machine.execProfileHaltClear a s
  | .rateLowWrite a base data => Sys2Proof.Machine.execRateLowWrite a base data s
  | .rateCommit a base data => Sys2Proof.Machine.execRateCommit a base data s
  | .rateApply base => Sys2Proof.Machine.execRateApply base s
  | .stepGo a base => Sys2Proof.Machine.execStepGo a base s
  | .rearm a base => Sys2Proof.Machine.execRearm a base s
  | .stepApply base => Sys2Proof.Machine.execStepApply base s
  | .timeNowRead a base => Sys2Proof.Machine.execTimeNowRead a base s
  | .epochStrobe => Sys2Proof.Machine.execEpochStrobe s
  | .captureInputEdge inputs => Sys2Proof.Machine.execCaptureInputEdge inputs s
  | .captureFifoPop a => Sys2Proof.Machine.execCaptureFifoPop a s
  | .strobeArm a strobe => Sys2Proof.Machine.execStrobeArm a strobe s
  | .strobeFire strobe => Sys2Proof.Machine.execStrobeFire strobe s
  | .ppsOutStart => Sys2Proof.Machine.execPpsOutStart s
  | .ppsOutEnd => Sys2Proof.Machine.execPpsOutEnd s
  | .epochSampleTakeUp poisoned => Sys2Proof.Machine.execEpochSampleTakeUp poisoned s
  | .eventSampleTakeUp poisoned => Sys2Proof.Machine.execEventSampleTakeUp poisoned s
  | .featureVectorComplete => Sys2Proof.Machine.execFeatureVectorComplete s
  | .newtRecordReady poisoned => Sys2Proof.Machine.execNewtRecordReady poisoned s
  | .detectorPass => Sys2Proof.Machine.execDetectorPass s
  | .peerGapNote => Sys2Proof.Machine.execPeerGapNote s
  | .strandDispatch lane ctx => Sys2Proof.Machine.execStrandDispatch lane ctx s
  | .leap issues => Sys2Proof.Machine.execLeap issues s
  | .jobComplete job => Sys2Proof.Machine.execJobComplete job s
  | .leapScrubRead index upset => Sys2Proof.Machine.execLeapScrubRead index upset s
  | .leapScrubWriteback index => Sys2Proof.Machine.execLeapScrubWriteback index s
  | .laneEnableWrite a data => Sys2Proof.Machine.execLaneEnableWrite a data s
  | .leapInject a data => Sys2Proof.Machine.execLeapInject a data s
  | .load a => Sys2Proof.Machine.execLoad a s
  | .evict a => Sys2Proof.Machine.execEvict a s
  | .pin a => Sys2Proof.Machine.execPin a s
  | .unpin a => Sys2Proof.Machine.execUnpin a s
  | .repair a => Sys2Proof.Machine.execRepair a s
  | .bundleFetchDone => Sys2Proof.Machine.execBundleFetchDone s
  | .bundleVerifyDone => Sys2Proof.Machine.execBundleVerifyDone s
  | .installDone badWord => Sys2Proof.Machine.execInstallDone badWord s
  | .recordSegmentReceive port frame => Sys2Proof.Machine.execRecordSegmentReceive port frame s
  | .recordReceive port => Sys2Proof.Machine.execRecordReceive port s
  | .seal faults => Sys2Proof.Machine.execSeal faults s
  | .mergedRecordReady => Sys2Proof.Machine.execMergedRecordReady s
  | .downReceive port => Sys2Proof.Machine.execDownReceive port s
  | .childRecordRelease => Sys2Proof.Machine.execChildRecordRelease s
  | .frameTransmitStart port => Sys2Proof.Machine.execFrameTransmitStart port s
  | .heartbeatSend port => Sys2Proof.Machine.execHeartbeatSend port s
  | .heartbeatReceive port frame => Sys2Proof.Machine.execHeartbeatReceive port frame s
  | .heartbeatMiss port => Sys2Proof.Machine.execHeartbeatMiss port s
  | .linkUpFall port => Sys2Proof.Machine.execLinkUpFall port s
  | .linkUpRise port => Sys2Proof.Machine.execLinkUpRise port s
  | .portClockStop port => Sys2Proof.Machine.execPortClockStop port s
  | .gateWindowChange port => Sys2Proof.Machine.execGateWindowChange port s
  | .uplinkRevert => Sys2Proof.Machine.execUplinkRevert s
  | .resendReqReceive port frame => Sys2Proof.Machine.execResendReqReceive port frame s
  | .downMissingTimeout => Sys2Proof.Machine.execDownMissingTimeout s
  | .downExpired port => Sys2Proof.Machine.execDownExpired port s
  | .heldCopyExpiry => Sys2Proof.Machine.execHeldCopyExpiry s
  | .startIssue a => Sys2Proof.Machine.execStartIssue a s
  | .startReceive port frame => Sys2Proof.Machine.execStartReceive port frame s
  | .startRetry => Sys2Proof.Machine.execStartRetry s
  | .ackReceive port frame => Sys2Proof.Machine.execAckReceive port frame s
  | .ackDeadline => Sys2Proof.Machine.execAckDeadline s
  | .broadcastOutcome => Sys2Proof.Machine.execBroadcastOutcome s
  | .activateIssue => Sys2Proof.Machine.execActivateIssue s
  | .activateReceive port frame => Sys2Proof.Machine.execActivateReceive port frame s
  | .verdictReceive port frame => Sys2Proof.Machine.execVerdictReceive port frame s
  | .voteProposeReceive port frame => Sys2Proof.Machine.execVoteProposeReceive port frame s
  | .ballotReceive port frame => Sys2Proof.Machine.execBallotReceive port frame s
  | .voteTimeout vid => Sys2Proof.Machine.execVoteTimeout vid s
  | .verdictRingWrite => Sys2Proof.Machine.execVerdictRingWrite s
  | .detectorThresholdCommit a data => Sys2Proof.Machine.execDetectorThresholdCommit a data s
  | .ptpReceive port frame => Sys2Proof.Machine.execPtpReceive port frame s
  | .traceBlockAgeClose core => Sys2Proof.Machine.execTraceBlockAgeClose core s
  | .traceBlockWrite core => Sys2Proof.Machine.execTraceBlockWrite core s
  | .traceHaltClear a core => Sys2Proof.Machine.execTraceHaltClear a core s
  | .traceRingSizeWrite a core data => Sys2Proof.Machine.execTraceRingSizeWrite a core data s
  | .compressBlockDone mismatch => Sys2Proof.Machine.execCompressBlockDone mismatch s
  | .recorderWindowSelect a data => Sys2Proof.Machine.execRecorderWindowSelect a data s
  | .recorderFreeze a => Sys2Proof.Machine.execRecorderFreeze a s
  | .recorderRelease a => Sys2Proof.Machine.execRecorderRelease a s
  | .recorderFlush a => Sys2Proof.Machine.execRecorderFlush a s
  | .recorderChunkAge => Sys2Proof.Machine.execRecorderChunkAge s
  | .bufferArm a buffer => Sys2Proof.Machine.execBufferArm a buffer s
  | .recorderRingScanDone => Sys2Proof.Machine.execRecorderRingScanDone s
  | .blackBoxPageDone => Sys2Proof.Machine.execBlackBoxPageDone s
  | .blackBoxSetErased => Sys2Proof.Machine.execBlackBoxSetErased s
  | .mergeBufferAgeDrain bank => Sys2Proof.Machine.execMergeBufferAgeDrain bank s
  | .memScrubRead bank => Sys2Proof.Machine.execMemScrubRead bank s
  | .memScrubWriteback bank => Sys2Proof.Machine.execMemScrubWriteback bank s
  | .poisonRewrite word => Sys2Proof.Machine.execPoisonRewrite word s
  | .erasureEnd a => Sys2Proof.Machine.execErasureEnd a s
  | .injectionArm a data => Sys2Proof.Machine.execInjectionArm a data s
  | .faultPop a => Sys2Proof.Machine.execFaultPop a s
  | .failSilentCommand a data => Sys2Proof.Machine.execFailSilentCommand a data s
  | .wardenWatchdogExpiry => Sys2Proof.Machine.execWardenWatchdogExpiry s
  | .mirrorReceive port => Sys2Proof.Machine.execMirrorReceive port s
  | .syncReqSend => Sys2Proof.Machine.execSyncReqSend s
  | .syncReqReceive port => Sys2Proof.Machine.execSyncReqReceive port s
  | .syncDataReceive port => Sys2Proof.Machine.execSyncDataReceive port s
  | .syncWaitExpiry => Sys2Proof.Machine.execSyncWaitExpiry s
  | .rebuildEnd => Sys2Proof.Machine.execRebuildEnd s
  | .panelEdgeSettled input level => Sys2Proof.Machine.execPanelEdgeSettled input level s
  | .longPress => Sys2Proof.Machine.execLongPress s
  | .panelRequest a => Sys2Proof.Machine.execPanelRequest a s
  | .panelCancel a => Sys2Proof.Machine.execPanelCancel a s
  | .departRequestRetry => Sys2Proof.Machine.execDepartRequestRetry s
  | .departRequestReceive port frame => Sys2Proof.Machine.execDepartRequestReceive port frame s
  | .departGrantReceive port frame => Sys2Proof.Machine.execDepartGrantReceive port frame s
  | .departSafeReceive port frame => Sys2Proof.Machine.execDepartSafeReceive port frame s
  | .departCancelReceive port frame => Sys2Proof.Machine.execDepartCancelReceive port frame s
  | .departCancelledReceive port frame => Sys2Proof.Machine.execDepartCancelledReceive port frame s
  | .panelEventPop a => Sys2Proof.Machine.execPanelEventPop a s
  | .mailboxLockRead a mbx => Sys2Proof.Machine.execMailboxLockRead a mbx s
  | .mailboxRelease a mbx => Sys2Proof.Machine.execMailboxRelease a mbx s
  | .mailboxForceRelease a mbx => Sys2Proof.Machine.execMailboxForceRelease a mbx s
  | .nop a mbx data => Sys2Proof.Machine.execNop a mbx data s
  | .dma a mbx data => Sys2Proof.Machine.execDma a mbx data s
  | .leapRun a mbx data => Sys2Proof.Machine.execLeapRun a mbx data s
  | .ptpTx a mbx data => Sys2Proof.Machine.execPtpTx a mbx data s
  | .viewCfg a mbx data => Sys2Proof.Machine.execViewCfg a mbx data s
  | .viewFreeze a mbx data => Sys2Proof.Machine.execViewFreeze a mbx data s
  | .viewThaw a mbx data => Sys2Proof.Machine.execViewThaw a mbx data s
  | .viewSave a mbx data => Sys2Proof.Machine.execViewSave a mbx data s
  | .viewRestore a mbx data => Sys2Proof.Machine.execViewRestore a mbx data s
  | .viewReset a mbx data => Sys2Proof.Machine.execViewReset a mbx data s
  | .viewResetComplete view => Sys2Proof.Machine.execViewResetComplete view s
  | .dmaHaltClear a => Sys2Proof.Machine.execDmaHaltClear a s
  | .stage a slot => Sys2Proof.Machine.execStage a slot s
  | .discardStaged a => Sys2Proof.Machine.execDiscardStaged a s
  | .scheduleLocal a => Sys2Proof.Machine.execScheduleLocal a s
  | .stagingDone => Sys2Proof.Machine.execStagingDone s
  | .oldImageRelease => Sys2Proof.Machine.execOldImageRelease s
  | .settingsRead => Sys2Proof.Machine.execSettingsRead s
  | .firmwareLoad => Sys2Proof.Machine.execFirmwareLoad s
  | .settingsWriteDone => Sys2Proof.Machine.execSettingsWriteDone s
  | .erase a => Sys2Proof.Machine.execErase a s
  | .program a => Sys2Proof.Machine.execProgram a s
  | .read a => Sys2Proof.Machine.execRead a s
  | .check a => Sys2Proof.Machine.execCheck a s
  | .saveFlash a => Sys2Proof.Machine.execSaveFlash a s
  | .bootStoreCommandDone flashError => Sys2Proof.Machine.execBootStoreCommandDone flashError s
  | .firmwareSwitchArm a data => Sys2Proof.Machine.execFirmwareSwitchArm a data s
  | .trialConfirm a => Sys2Proof.Machine.execTrialConfirm a s
  | .trialSelfConfirm => Sys2Proof.Machine.execTrialSelfConfirm s
  | .trialReject a => Sys2Proof.Machine.execTrialReject a s
  | .trialExpiry => Sys2Proof.Machine.execTrialExpiry s
  | .packSelect a data => Sys2Proof.Machine.execPackSelect a data s
  | .receivedFrameDrop port rxErr frame => Sys2Proof.Machine.execReceivedFrameDrop port rxErr frame s
  | .doorbellUnknownOpcode a mbx data => Sys2Proof.Machine.execDoorbellUnknownOpcode a mbx data s

end Sys2Proof.Machine
end

