-- ==== Sys2Proof/Machine/Lines.lean ====
section
/-!
DEFINITION. What the block drives on its level outputs, as functions of its state (R82, R83, R90, R93, R97, R176, R177, R570, R600, R638, R663, R679).
-/
namespace Sys2Proof.Machine

/-- irq_o[0]: the fault FIFO holds an entry, the block is fail-silent, or it is in RECOVERY. -/
def irqFault (s : State) : Bool := !s.flt.fifo.isEmpty || s.flt.active || s.boot.st == 5

/-- irq_o[1]: a privileged mailbox with DONE and its enable, a received PTP message with its enable, or a broadcast's outcome. -/
def irqMailbox (s : State) : Bool :=
  (List.range 8).any (fun m => (mbxAt s m).done && rwGet s (.mbxIrqEn m) % 2 == 1)
    || ((rwGet s .ptpRxCfg).testBit 31 && s.host.ptpWr != rwGet s .ptpRxRd)
    || s.ilk.result.irq

/-- irq_o[2]: a snapshot later than the one that host software has acknowledged. -/
def irqSnapshot (s : State) : Bool :=
  rwGet s (.snapAck false) + rwGet s (.snapAck true) * 2 ^ 32 < s.sealing.snapSeq

/-- irq_o[3]: the verdict ring holds a slot that host software has not read. -/
def irqVerdict (s : State) : Bool := s.vrd.ringWr != rwGet s .vrdRingRd

/-- irq_o, from bit 0 up. -/
def irqLines (s : State) : List Bool := [irqFault s, irqMailbox s, irqSnapshot s, irqVerdict s]

/-- svc_alert_o (R679). -/
def svcAlert (s : State) : Bool := s.boot.st == 5 || s.boot.reset || s.boot.skew || s.boot.bbSkipped || s.rst.fallback

/-- pnl_led_o. -/
def panelLeds (s : State) : Nat := ledWord s (irqFault s)

/-- tim_stb_o[n]: high for 8 cycles of clk_time_i from its rise. -/
def strobeLine (s : State) (n : Nat) : Bool :=
  match s.time.strobes[n]? with
  | some k => match k.pulse with
    | some c => decide (s.time.c < c + 8)
    | none => false
  | none => false

/-- How the boot store is driven (R88, R654): the commands that read, program and erase, dummy cycles, four lines, 4-byte addresses. -/
structure FlashForm where
  read  : Nat
  prog  : Nat
  erase : Nat
  dummy : Nat
  quad  : Bool
  addr4 : Bool
deriving DecidableEq, Repr

/-- The form of a boot-store access that starts now: 1-bit SPI until the settings are read, then SVC_FLASH_CFG. -/
def flashForm (s : State) : FlashForm :=
  if s.boot.phase < 2 then ⟨Config.byClass s.integ 0x03 0x13, 0, 0, 0, false, Config.isSpireL s.integ⟩
  else
    let w := rwGet s .flashCfg
    ⟨w / 2 ^ 24 % 256, w / 2 ^ 16 % 256, w / 256 % 256, w / 16 % 16, w.testBit 3, w.testBit 2⟩

/-- pwr_on_req_o of a unit. -/
def powerRequest (s : State) (u : Nat) : Bool := (powOf s u).req

/-- pwr_ret_o of a unit. -/
def powerRetain (s : State) (u : Nat) : Bool := (powOf s u).retain

/-- tip_pwr_ack_o of a core: while the block is fail-silent it follows the request (R97). -/
def coreAck (s : State) (c : Nat) : Bool := if quiet s then (coreAt s c).pwrReq else (coreAt s c).pwrAck

end Sys2Proof.Machine
end

