-- ==== Sys2Proof/Machine/Tick.lean ====
section
/-!
DEFINITION. The block with no command waiting: one edge of clk_time_i goes by (DESIGN CHOICE, log entry 2).
-/
namespace Sys2Proof.Machine

/-- One clk_time_i cycle: C counts (R144), and the memory master port issues what its observation bucket now allows (R235). -/
def tickOp (s : State) : State := mmPump (modTime s (fun t => { t with c := t.c + 1 }))

end Sys2Proof.Machine
end

