-- ==== Sys2Proof/Safety.lean ====
section
/-!
DEFINITION. The conditions and results that the statements share: when an access reaches a unit, what it leaves at the port, and what a state of the
block always satisfies.
-/
namespace Sys2Proof.Machine

/-- The port takes a request of `a` in view 0: a register request while fewer than 8 are outstanding (R56), a service request always (R87). -/
def portTakes (s : State) (a : Access) : Prop :=
  match a.rq with
  | .reg _ => a.view = 0 ∧ s.bus.queue.length < 8
  | .svc => True

/-- A write of `a` in view 0 reaches a register of unit `u`: start-up is over (R104), the block is not fail-silent (R572), and the unit is neither in
RET nor in OFF (R49). -/
def reaches (s : State) (a : Access) (u : Nat) : Prop :=
  portTakes s a ∧ 6 ≤ s.rst.step ∧ s.flt.active = false ∧ asleep s u = false

/-- A request of view `v` itself reaches its page's register of unit `u`: the view is in neither RESET nor, for a write, FROZEN (R605, R606, R639). -/
def viewReaches (s : State) (v u : Nat) : Prop :=
  1 ≤ v ∧ v ≤ s.integ.views ∧ s.bus.queue.length < 8 ∧ 6 ≤ s.rst.step ∧ s.flt.active = false ∧ asleep s u = false ∧
  (viewAt s v).st ≠ 0 ∧ (viewAt s v).st ≠ 2

/-- An access of `a` reaches the registers of mailbox `m`: in view 0 at its place in the window (R644), or a request of the mailbox's own view on its page
(R607, R609). -/
def mbxReaches (s : State) (a : Access) (m : Nat) : Prop :=
  (reaches s a 15 ∧ (m < 8 ∨ m ≤ 7 + s.integ.views)) ∨
  (∃ rid, a.rq = .reg rid ∧ 1 ≤ a.view ∧ m = 7 + a.view ∧ viewReaches s a.view 15)

/-- The acknowledge of a request with data `d` waits at the port (R54, R56); the service port gives its data at once (R87). -/
def gave (a : Access) (d : Nat) (t : State) : State :=
  match a.rq with
  | .reg r => { t with bus := { t.bus with queue := t.bus.queue ++ [⟨r, d⟩] } }
  | .svc => { t with boot := { t.boot with svcOut := [d] } }

/-- The acknowledge of a write waits at the register port; the service port gives none. -/
def answered (a : Access) (t : State) : State :=
  match a.rq with
  | .reg _ => gave a 0 t
  | .svc => t

/-- What every state of the block satisfies: SRAM and boot store in canonical form, no more than 8 outstanding register requests (R56), 64 capture entries,
32 fault records (R570) and 32 panel events, and read-to-clear counters of 32 bits (R18). -/
def BlockInv (s : State) : Prop :=
  Memory.wf 0 s.mem.sram = true ∧ Memory.wf 0xFF s.boot.store = true ∧ s.bus.queue.length ≤ 8 ∧ s.time.fifo.length ≤ 64 ∧ s.flt.fifo.length ≤ 32 ∧
  s.pnl.evts.length ≤ 32 ∧ ∀ p ∈ s.rc, p.2 < 2 ^ 32

end Sys2Proof.Machine
end

