-- ==== Sys2Proof/WellFormed.lean ====
section
/-!
DEFINITION. Well-formed commands: every operand within the width of the signals that carry it (R30, R54, R59, R68, R72, R74, R77, R83, R85, R90, R458). The
meanings are total on ill-formed commands too; a statement that needs a width takes it from here.
-/
namespace Sys2Proof

/-- reg_rid_i has 8 bits and reg_view_i 9 (R54). -/
def Requester.wf : Requester → Bool
  | .reg rid => decide (rid < 256)
  | .svc => true

def Access.wf (a : Access) : Bool := a.rq.wf && decide (a.view < 512)

/-- id_serial_i, id_pkg_i and id_die_i (R90). -/
def Straps.wf (p : Straps) : Bool := decide (p.serial < 2 ^ 64) && decide (p.pkg < 256) && decide (p.die < 256)

def IncSlot.wf (x : IncSlot) : Bool := decide (x.lane < 4096) && decide (x.val < 65536)

def EngSlot.wf (x : EngSlot) : Bool :=
  decide (x.engine < 512) && decide (x.state < 4) && decide (x.reason < 16) && decide (x.layer < 65536) && decide (x.op < 65536)

def RingSlot.wf (x : RingSlot) : Bool := decide (x.ring < 65536) && decide (x.count < 65536)

def EccSlot.wf (x : EccSlot) : Bool := decide (x.stack < 64) && decide (x.kind < 4) && decide (x.addr < 2 ^ 31)

def SensorSlot.wf (x : SensorSlot) : Bool := decide (x.sensor < 256) && decide (x.val < 65536)

def LinkSlot.wf (x : LinkSlot) : Bool := decide (x.link < 256) && decide (x.count < 65536)

def TraceSlot.wf (x : TraceSlot) : Bool :=
  decide (x.core < 64) && decide (x.kind < 4) && decide (x.addr < 2 ^ 64) && decide (x.icount < 256)

def LeapIssue.wf (x : LeapIssue) : Bool := decide (x.lane < 16) && x.fixed.all (fun k => decide (k < 64))

/-- The names by which R562 finds a structure, each within its field: BSEQ and RSEQ, a byte of a profile buffer, a resident model, a tree, a bank, an epoch, a node. -/
def Struck.wf : Struck → Bool
  | .traceBlock core bseq => decide (core < 64) && decide (bseq < 2 ^ 32)
  | .recorderRecord rseq => decide (rseq < 2 ^ 32)
  | .profileBuffer seq at0 => decide (seq < 2 ^ 32) && decide (at0 < 65472)
  | .headBlock model => decide (model < 64)
  | .treeRecord _ tree => decide (tree < 4096)
  | .wardenData bank => bank.all (fun b => decide (b < 32))
  | .frozenCopy epoch | .recordHeader epoch _ => decide (epoch < 2 ^ 48)
  | .heldCopy _ epoch node => decide (epoch < 2 ^ 48) && decide (node < 2 ^ 24)
  | .data | .wardenFetch _ | .stagingArea | .baseline _ | .shadow _ | .captureMacro | .mailbox _ => true

/-- A unit code of R37. -/
def unitWf (u : Nat) : Bool := decide (0 < u) && decide (u < 19)

/-- A word offset within the 1 MiB window (R54). -/
def offWf (o : Nat) : Bool := decide (o < 2 ^ 20) && decide (o % 4 = 0)

/-- A capture input: tim_cap_i[n], or 0x3F for tim_pps_i (R174). -/
def inputWf (i : Nat) : Bool := decide (i < 32) || decide (i = 63)

/-- A frame comes as 4-byte words (R79). -/
def frameWf (b : Bytes) : Bool := decide (b.length % 4 = 0)

def Instr.wf (i : Instr) : Bool :=
  match i with
  | .powerOnReset straps => straps.wf
  | .warmReset => true
  | .sramInitialisation => true
  | .checkerSelfTest _ => true
  | .keyAnchorCapture anchor => decide (anchor < 2 ^ 384)
  | .pwrFailWarn => true
  | .pwrFailWarnFall => true
  | .powerFailFlushDone => true
  | .pwrOnAck unit => unitWf unit
  | .pwrAckLate unit => unitWf unit
  | .unitGate unit => unitWf unit
  | .unitRetain unit => unitWf unit
  | .wakeAhead => true
  | .powerRegisterWrite a unit _ => a.wf && unitWf unit
  | .registerWrite a off _ => a.wf && offWf off
  | .pairLowRead a off => a.wf && offWf off
  | .rcRead a off => a.wf && offWf off
  | .regAcknowledge => true
  | .forbiddenAccess a off _ => a.wf && offWf off
  | .svcRegisterRead addr _ => decide (addr < 2 ^ 24)
  | .svcRegisterWrite addr data => decide (addr < 2 ^ 24) && decide (data.length % 4 = 0)
  | .svcStatusRead => true
  | .svcUnknownOpcode opcode => decide (opcode < 256)
  | .bufWrite addr data => decide (addr < 2 ^ 24) && decide (data.length % 4 = 0)
  | .bufRead addr _ => decide (addr < 2 ^ 24)
  | .mmReadBeat tag data _ err => decide (tag < 64) && decide (data.length = 32) && decide (err < 4)
  | .mmWriteCompletion tag err => decide (tag < 64) && decide (err < 4)
  | .counterIncrement slots => decide (slots.length ≤ 16) && slots.all IncSlot.wf
  | .engineEvent slots => decide (slots.length ≤ 8) && slots.all EngSlot.wf
  | .ringEvent slots => decide (slots.length ≤ 4) && slots.all RingSlot.wf
  | .eccEvent slots => decide (slots.length ≤ 2) && slots.all EccSlot.wf
  | .sensorSample slots => decide (slots.length ≤ 4) && slots.all SensorSlot.wf
  | .linkErrorReport slots => decide (slots.length ≤ 2) && slots.all LinkSlot.wf
  | .traceEvent slots => decide (slots.length ≤ 8) && slots.all TraceSlot.wf
  | .tracePowerDownRequest core => decide (core < 64)
  | .tracePowerUp core => decide (core < 64)
  | .tracePowerAckTimeout core => decide (core < 64)
  | .stepMark a _ => a.wf
  | .ringClear a _ => a.wf
  | .profileBufferCopy => true
  | .profileHaltClear a => a.wf
  | .rateLowWrite a base _ => a.wf && decide (base < 4)
  | .rateCommit a base _ => a.wf && decide (base < 4)
  | .rateApply base => decide (base < 4)
  | .stepGo a base => a.wf && decide (base < 4)
  | .rearm a base => a.wf && decide (base < 4)
  | .stepApply base => decide (base < 4)
  | .timeNowRead a base => a.wf && decide (base < 4)
  | .epochStrobe => true
  | .captureInputEdge inputs => inputs.all inputWf
  | .captureFifoPop a => a.wf
  | .strobeArm a strobe => a.wf && decide (strobe < 32)
  | .strobeFire strobe => decide (strobe < 32)
  | .ppsOutStart => true
  | .ppsOutEnd => true
  | .epochSampleTakeUp _ => true
  | .eventSampleTakeUp _ => true
  | .featureVectorComplete => true
  | .newtRecordReady _ => true
  | .detectorPass => true
  | .peerGapNote => true
  | .strandDispatch lane ctx => decide (lane < 16) && decide (ctx < 8)
  | .leap issues => issues.all LeapIssue.wf
  | .jobComplete _ => true
  | .leapScrubRead index _ => decide (index < 2 ^ 18)
  | .leapScrubWriteback index => decide (index < 2 ^ 18)
  | .laneEnableWrite a _ => a.wf
  | .leapInject a _ => a.wf
  | .load a => a.wf
  | .evict a => a.wf
  | .pin a => a.wf
  | .unpin a => a.wf
  | .repair a => a.wf
  | .bundleFetchDone => true
  | .bundleVerifyDone => true
  | .installDone _ => true
  | .recordSegmentReceive port frame => decide (port < 176) && frameWf frame
  | .recordReceive port => decide (port < 176)
  | .seal _ => true
  | .mergedRecordReady => true
  | .downReceive port => decide (port < 176)
  | .childRecordRelease => true
  | .frameTransmitStart port => decide (port < 176)
  | .heartbeatSend port => decide (port < 176)
  | .heartbeatReceive port frame => decide (port < 176) && frameWf frame
  | .heartbeatMiss port => decide (port < 176)
  | .linkUpFall port => decide (port < 176)
  | .linkUpRise port => decide (port < 176)
  | .portClockStop port => decide (port < 176)
  | .gateWindowChange port => decide (port < 176)
  | .uplinkRevert => true
  | .resendReqReceive port frame => decide (port < 176) && frameWf frame
  | .downMissingTimeout => true
  | .downExpired port => decide (port < 176)
  | .heldCopyExpiry => true
  | .startIssue a => a.wf
  | .startReceive port frame => decide (port < 176) && frameWf frame
  | .startRetry => true
  | .ackReceive port frame => decide (port < 176) && frameWf frame
  | .ackDeadline => true
  | .broadcastOutcome => true
  | .activateIssue => true
  | .activateReceive port frame => decide (port < 176) && frameWf frame
  | .verdictReceive port frame => decide (port < 176) && frameWf frame
  | .voteProposeReceive port frame => decide (port < 176) && frameWf frame
  | .ballotReceive port frame => decide (port < 176) && frameWf frame
  | .voteTimeout vid => decide (vid < 2 ^ 32)
  | .verdictRingWrite => true
  | .detectorThresholdCommit a _ => a.wf
  | .ptpReceive port frame => decide (port < 176) && frameWf frame
  | .traceBlockAgeClose core => decide (core < 64)
  | .traceBlockWrite core => decide (core < 64)
  | .traceHaltClear a core => a.wf && decide (core < 64)
  | .traceRingSizeWrite a core _ => a.wf && decide (core < 64)
  | .compressBlockDone _ => true
  | .recorderWindowSelect a _ => a.wf
  | .recorderFreeze a => a.wf
  | .recorderRelease a => a.wf
  | .recorderFlush a => a.wf
  | .recorderChunkAge => true
  | .bufferArm a buffer => a.wf && decide (buffer < 2)
  | .recorderRingScanDone => true
  | .blackBoxPageDone => true
  | .blackBoxSetErased => true
  | .mergeBufferAgeDrain bank => decide (bank < 32)
  | .memScrubRead bank => decide (bank < 32)
  | .memScrubWriteback bank => decide (bank < 32)
  | .poisonRewrite word => decide (word.bank < 32) && word.hit.wf
  | .erasureEnd a => a.wf
  | .injectionArm a _ => a.wf
  | .faultPop a => a.wf
  | .failSilentCommand a _ => a.wf
  | .wardenWatchdogExpiry => true
  | .mirrorReceive port => decide (port < 176)
  | .syncReqSend => true
  | .syncReqReceive port => decide (port < 176)
  | .syncDataReceive port => decide (port < 176)
  | .syncWaitExpiry => true
  | .rebuildEnd => true
  | .panelEdgeSettled input _ => decide (input < 20)
  | .longPress => true
  | .panelRequest a => a.wf
  | .panelCancel a => a.wf
  | .departRequestRetry => true
  | .departRequestReceive port frame => decide (port < 176) && frameWf frame
  | .departGrantReceive port frame => decide (port < 176) && frameWf frame
  | .departSafeReceive port frame => decide (port < 176) && frameWf frame
  | .departCancelReceive port frame => decide (port < 176) && frameWf frame
  | .departCancelledReceive port frame => decide (port < 176) && frameWf frame
  | .panelEventPop a => a.wf
  | .mailboxLockRead a mbx => a.wf && decide (mbx < 264)
  | .mailboxRelease a mbx => a.wf && decide (mbx < 264)
  | .mailboxForceRelease a mbx => a.wf && decide (mbx < 264)
  | .nop a mbx _ => a.wf && decide (mbx < 264)
  | .dma a mbx _ => a.wf && decide (mbx < 264)
  | .leapRun a mbx _ => a.wf && decide (mbx < 264)
  | .ptpTx a mbx _ => a.wf && decide (mbx < 264)
  | .viewCfg a mbx _ => a.wf && decide (mbx < 264)
  | .viewFreeze a mbx _ => a.wf && decide (mbx < 264)
  | .viewThaw a mbx _ => a.wf && decide (mbx < 264)
  | .viewSave a mbx _ => a.wf && decide (mbx < 264)
  | .viewRestore a mbx _ => a.wf && decide (mbx < 264)
  | .viewReset a mbx _ => a.wf && decide (mbx < 264)
  | .viewResetComplete view => decide (view < 257)
  | .dmaHaltClear a => a.wf
  | .stage a slot => a.wf && decide (slot < 2)
  | .discardStaged a => a.wf
  | .scheduleLocal a => a.wf
  | .stagingDone => true
  | .oldImageRelease => true
  | .settingsRead => true
  | .firmwareLoad => true
  | .settingsWriteDone => true
  | .erase a => a.wf
  | .program a => a.wf
  | .read a => a.wf
  | .check a => a.wf
  | .saveFlash a => a.wf
  | .bootStoreCommandDone _ => true
  | .firmwareSwitchArm a _ => a.wf
  | .trialConfirm a => a.wf
  | .trialSelfConfirm => true
  | .trialReject a => a.wf
  | .trialExpiry => true
  | .packSelect a _ => a.wf
  | .receivedFrameDrop port _ frame => decide (port < 176) && frameWf frame
  | .doorbellUnknownOpcode a mbx _ => a.wf && decide (mbx < 264)

end Sys2Proof
end

