-- ==== Sys2Proof/Certificates/Slice0/Obligations.lean ====
section
/-!
DEFINITION. The statements: what each command does, family by family, and what holds of every step.
-/
open Sys2Proof Sys2Proof.Machine

/-- A step runs the command at the front of the queue. -/
def Obligations.StepRunsFront : Prop :=
  ∀ (s : State) (c : Instr) (rest : List Instr), s.pending = c :: rest → step s = exec c { s with pending := rest }

/-- With no command waiting a step is one tick of clk_time_i. -/
def Obligations.EmptyQueueTicks : Prop :=
  ∀ s : State, s.pending = [] →
    ∃ t, step s = .next t ∧ t = { s with time := { s.time with c := s.time.c + 1 }, mm := t.mm, pow := t.pow }
      ∧ ∀ u, u ≠ 13 → powOf t u = powOf s u

/-- POWER_ON_RESET clears everything but the boot store and samples the straps. -/
def Obligations.PowerOnResetStartsAfresh : Prop :=
  ∀ (p : Straps) (s : State), ∃ t, exec (.powerOnReset p) s = .next t ∧
    t = { State.initial s.integ p s.boot.store with pending := s.pending, freeDraws := s.freeDraws, ilk := t.ilk, trc := t.trc } ∧
    t.rst.serial = p.serial ∧ t.rst.pkg = p.pkg ∧ t.rst.die = p.die ∧ t.rst.keyState = 0 ∧ t.rst.por = true ∧ t.rst.warm = false ∧
    t.rst.pfw = false ∧ t.rst.fallback = false ∧ t.rst.step = 4 ∧
    t.time.c = 0 ∧ t.time.grid.st = .waiting ∧ (∀ b ∈ t.time.bases, b.off = 0 ∧ b.rate = 0) ∧
    t.rc = [] ∧ t.rw = [] ∧ t.adj = [] ∧ t.bus.queue = [] ∧ t.bus.latches = [] ∧ t.mm.jobs = [] ∧ t.mm.tags = [] ∧
    t.mem.sram = [] ∧ t.erc.ring = [] ∧ t.img.active = none ∧ t.flt.fifo = [] ∧ t.flt.active = false ∧ t.host.mboxes = [] ∧
    (∀ q ∈ t.ilk.ports, q.2.lstate ≤ 1 ∧ q.2.sent = 0 ∧ q.2.limit = 0 ∧ q.2.queue = []) ∧
    t.boot.store = s.boot.store ∧ t.integ = s.integ ∧ t.pending = s.pending

/-- WARM_RESET keeps TIME, the SRAM, the key, the straps and the recorder ring; plain registers outside TIME read their reset values. -/
def Obligations.WarmResetKeepsTimeMemoryKey : Prop :=
  ∀ s : State, ∃ t, exec .warmReset s = .next t ∧
    s.time.c ≤ t.time.c ∧
    ((∀ b ∈ s.time.bases, b.rateWait = [] ∧ b.stepWait = []) → t.time = { s.time with
      bases := s.time.bases.map (fun b => { b with held := rateWord b.rate % 2 ^ 32 })
      grid := { s.time.grid with forming := false, tstep := false } }) ∧
    t.rst = { (State.initial s.integ ⟨s.rst.serial, s.rst.pkg, s.rst.die⟩ []).rst with
      key := s.rst.key, keyState := s.rst.keyState, por := s.rst.por, warm := true, pfw := s.rst.pfw, fallback := s.rst.fallback, step := 5 } ∧
    t.erc.ring = s.erc.ring ∧ t.erc.rseq = s.erc.rseq ∧ t.erc.flushed = s.erc.flushed ∧
    t.vrd.spLevel = spLevelNow s ∧ t.vrd.domeLevel = domeLevelNow s ∧ t.leap.quar = s.leap.quar ∧
    t.cmp.disabled = s.cmp.disabled ∧ t.boot.store = s.boot.store ∧ (s.host.draining = [] → t.mem.sram = s.mem.sram) ∧
    (∀ r, rwGet t r = if timeRw r then rwGet s r else rwReset r) ∧
    (rcGet s .timeCapLost < 2 ^ 32 → rcGet t .timeCapLost = rcGet s .timeCapLost) ∧
    t.mm.tags.map (·.1) = s.mm.tags.map (·.1) ∧ (∀ q ∈ t.mm.tags, q.2.owner = .ended) ∧
    (∀ q ∈ t.ilk.ports, q.2.lstate ≤ 1 ∧ q.2.sent = 0 ∧ q.2.limit = 0 ∧ q.2.queue = []) ∧
    t = { State.initial s.integ ⟨s.rst.serial, s.rst.pkg, s.rst.die⟩ s.boot.store with
      pending := s.pending, freeDraws := t.freeDraws, pow := t.pow, rst := t.rst, mm := t.mm, rc := t.rc, rw := t.rw, time := t.time, mem := t.mem
      leap := t.leap, vrd := t.vrd, ilk := t.ilk, host := t.host, trc := t.trc, erc := t.erc, cmp := t.cmp, boot := t.boot }

/-- SRAM_INITIALISATION, CHECKER_SELF_TEST and KEY_ANCHOR_CAPTURE take start-up through its steps. -/
def Obligations.StartUpAdvancesStepByStep : Prop :=
  (∀ s : State, s.rst.step = 4 → coreUp s = true →
    exec .sramInitialisation s = .next { s with mem := { s.mem with sram := [] }, rst := { s.rst with step := 5 } }) ∧
  (∀ s : State, s.rst.step = 5 → coreUp s = true → ∃ t, exec (.checkerSelfTest none) s = .next t ∧ t.rst = { s.rst with step := 6, selftest := 1 } ∧
    t = { s with rst := t.rst, mem := t.mem }) ∧
  (∀ (s : State) (k : Nat), s.rst.step = 5 → coreUp s = true → s.flt.active = false → ∃ t, exec (.checkerSelfTest (some k)) s = .next t ∧
    t.rst.step = 6 ∧ t.rst.selftest = 2 ∧ t.flt.active = true ∧ t.flt.cause = 3) ∧
  (∀ (s : State) (k : Option Nat), coreUp s = false → exec .sramInitialisation s = .next s ∧ exec (.checkerSelfTest k) s = .next s) ∧
  (∀ (s : State) (k : Nat), s.rst.keyState = 0 →
    exec (.keyAnchorCapture k) s = .next { s with
      rst := { s.rst with key := k % 2 ^ 384, keyState := if k % 2 ^ 384 = 0 ∨ k % 2 ^ 384 = 2 ^ 384 - 1 then 2 else 1 } }) ∧
  (∀ (s : State) (k : Nat), s.rst.keyState ≠ 0 → exec (.keyAnchorCapture k) s = .next s)

/-- The power-fail warning wakes four units and starts the flush once; the block is free again when it has fallen and the flush is over. -/
def Obligations.PowerFailWarning : Prop :=
  (∀ s : State, pwrBusy s = false → ∃ t, exec .pwrFailWarn s = .next t ∧ t.rst.pfw = true ∧ t.rst.warn = true ∧ pwrBusy t = true ∧
    (∀ u ∈ [10, 13, 12, 17], u - 1 < s.pow.length → ((powOf s u).st = .gated → (powOf t u).st = .on) ∧ ((powOf s u).st = .ret → (powOf t u).req = true)) ∧
    (∀ q ∈ t.ilk.ports, q.2.pfTx = true) ∧ (s.boot.cmd.isSome → t.boot.cmd = none ∧ t.boot.result = 6) ∧
    t = { s with pow := t.pow, rst := { t.rst with serial := s.rst.serial, pkg := s.rst.pkg, die := s.rst.die, key := s.rst.key, step := s.rst.step }
                 mm := t.mm, rc := t.rc, feat := t.feat, leap := t.leap, img := t.img, ilk := t.ilk, host := t.host, erc := t.erc, cmp := t.cmp
                 flt := t.flt, mem := t.mem, boot := t.boot }) ∧
  (∀ s : State, pwrBusy s = true → exec .pwrFailWarn s = .next { s with rst := { s.rst with pfw := true, warn := true } }) ∧
  (∀ s : State, ∃ t, exec .pwrFailWarnFall s = .next t ∧ t.rst = { s.rst with warn := false } ∧ (∀ u, u ≠ 13 → powOf t u = powOf s u) ∧
    t = { s with rst := t.rst, mm := t.mm, img := t.img, pow := t.pow }) ∧
  (∀ s : State, ∃ t, exec .powerFailFlushDone s = .next t ∧ t.rst.flushA = false ∧ (s.erc.waits = [] → s.erc.flushing = false → t.rst.flushB = false) ∧
    (s.rst.warn = false → s.rst.flushC = false → s.erc.waits = [] → s.erc.flushing = false → pwrBusy t = false) ∧
    t.rst = { s.rst with flushA := false, flushB := t.rst.flushB } ∧ (∀ u, u ≠ 13 → powOf t u = powOf s u) ∧
    t = { s with rst := t.rst, mm := t.mm, img := t.img, pow := t.pow })

/-- A unit gates, enters retention, asks for its switch and resumes; work and requests for a unit in RET wait for it. -/
def Obligations.UnitsWakeGateAndRetain : Prop :=
  (∀ (s : State) (u : Nat), heldOn s u = false → unitWork s u = false → (powOf s u).st = .on → u - 1 < s.pow.length →
    ∃ t, exec (.unitGate u) s = .next t ∧ (powOf t u).st = .gated ∧ (powOf t u).gatedAt = slowCycle s ∧ (powOf t u).gThresh = (powOf s u).thresh ∧
      (∀ v, v - 1 ≠ u - 1 → powOf t v = powOf s v) ∧ t = { s with pow := t.pow }) ∧
  (∀ (s : State) (u : Nat), (powOf s u).st = .gated → alwaysOn u = false → (powOf s u).retEn = true → busyUnit s u = false → u - 1 < s.pow.length →
    ∃ t, exec (.unitRetain u) s = .next t ∧ (powOf t u).st = .ret ∧ (powOf t u).retain = true ∧ (powOf t u).req = false ∧
      (powOf s u).gatedAt + (powOf s u).gThresh + 1 ≤ slowCycle t ∧ t = { s with pow := t.pow, time := { s.time with c := t.time.c } }) ∧
  (∀ (s : State) (u n : Nat), (powOf s u).reqAt = some n → (powOf s u).req = true → (powOf s u).late = false → (powOf s u).st = .ret ∨ (powOf s u).st = .off →
    u - 1 < s.pow.length →
    ∃ t, exec (.pwrAckLate u) s = .next t ∧ rcGet t .svcPwrAckLate = min (rcGet s .svcPwrAckLate + 1) (2 ^ 32 - 1) ∧ (powOf t u).late = true ∧
      t.time.c = max s.time.c (n + 4000) ∧ t = { s with pow := t.pow, rc := t.rc, erc := t.erc, time := { s.time with c := t.time.c } }) ∧
  (∀ (s : State) (u : Nat), (powOf s u).req = true → (∀ w ∈ s.bus.deferred, w.1 ≠ u) →
    exec (.pwrOnAck u) s = .next (wakeWork { s with pow := s.pow.modify (u - 1) (fun p =>
      if p.req then { p with st := if p.st = .gated then .gated else .on, retain := false, reqAt := none, late := false } else p) } u)) ∧
  (∀ (s : State) (u : Nat), u ∉ [3, 10, 12, 13] → wakeWork s u = s) ∧
  (∀ (s : State) (u d : Nat) (a : Access) (r : Reg), (powOf s u).req = true → u ∉ [3, 10, 12, 13] → u - 1 < s.pow.length →
    s.bus.deferred = [(u, .write a r d)] →
    exec (.pwrOnAck u) s = .next (writeReg { pwrAck s u with bus := { s.bus with deferred := [] } } a 0 r d)) ∧
  (∀ s : State, s.time.grid.st ≠ .exhausted → ∃ t, exec .wakeAhead s = .next t ∧
    (∀ u ∈ [2, 3, 4, 5, 6], (powOf s u).st = .ret → u - 1 < s.pow.length → (powOf t u).req = true) ∧ t = { s with pow := t.pow, time := { s.time with c := t.time.c } }) ∧
  (∀ (s : State) (a : Access) (u : Nat) (d : Word), reaches s a 17 → 1 ≤ u → u ≤ 18 → unitAbsent s.integ u = false → alwaysOn u = false → (powOf s u).st ≠ .ret →
    exec (.powerRegisterWrite a u d) s = .next (answered a { touch s 17 with pow := (touch s 17).pow.modify (u - 1) (fun p =>
      { p with retEn := d.toNat.testBit 28, thresh := if 3 ≤ d.toNat % 256 then d.toNat % 256 else p.thresh }) })) ∧
  (∀ (s : State) (n k : Nat) (x : List Nat) (w : List MergeFault) (y : List LeapIssue) (z : Option Nat) (e : Bool) (h : Struck),
    (asleep s 2 = true → ∀ c ∈ ([.epochSampleTakeUp x, .eventSampleTakeUp x, .featureVectorComplete] : List Instr), exec c s = .next (touch s 2)) ∧
    (asleep s 3 = true → ∀ c ∈ ([.strandDispatch n k, .leap y, .jobComplete n, .leapScrubRead n k, .leapScrubWriteback n, .bundleVerifyDone, .installDone z] : List Instr), exec c s = .next (touch s 3)) ∧
    (asleep s 4 = true → ∀ c ∈ ([.newtRecordReady x, .mergedRecordReady, .downReceive n, .recordReceive n] : List Instr), exec c s = .next (touch s 4)) ∧
    (asleep s 5 = true → ∀ c ∈ ([.seal w, .childRecordRelease] : List Instr), exec c s = .next (touch s 5)) ∧
    (asleep s 6 = true → ∀ c ∈ ([.detectorPass, .peerGapNote, .voteTimeout n, .verdictRingWrite] : List Instr), exec c s = .next (touch s 6)) ∧
    (asleep s 9 = true → ∀ c ∈ ([.traceBlockAgeClose n, .traceBlockWrite n] : List Instr), exec c s = .next (touch s 9)) ∧
    (asleep s 10 = true → ∀ c ∈ ([.recorderChunkAge, .recorderRingScanDone] : List Instr), exec c s = .next (touch s 10)) ∧
    (asleep s 11 = true → ∀ c ∈ ([.compressBlockDone e] : List Instr), exec c s = .next (touch s 11)) ∧
    (asleep s 12 = true → ∀ c ∈ ([.mergeBufferAgeDrain n, .memScrubRead n, .memScrubWriteback n, .poisonRewrite ⟨n, h⟩] : List Instr), exec c s = .next (touch s 12)) ∧
    (asleep s 14 = true → ∀ c ∈ ([.syncReqSend, .syncWaitExpiry, .rebuildEnd, .startRetry, .ackDeadline, .broadcastOutcome, .activateIssue, .stagingDone] : List Instr), exec c s = .next (touch s 14)) ∧
    (asleep s 16 = true → ∀ c ∈ ([.viewResetComplete n] : List Instr), exec c s = .next (touch s 16)) ∧
    (asleep s 18 = true → ∀ c ∈ ([.longPress, .departRequestRetry] : List Instr), exec c s = .next (touch s 18))) ∧
  (∀ (s : State) (n k : Nat) (b : Bytes),
    ((powOf s 6).st = .ret → 6 ≤ s.pow.length → ∀ c ∈ ([.verdictReceive n b, .voteProposeReceive n b, .ballotReceive n b] : List Instr),
      exec c s = .next { touch s 6 with bus := { s.bus with deferred := s.bus.deferred ++ [(6, .command c)] } }) ∧
    ((powOf s 14).st = .ret → 14 ≤ s.pow.length → ∀ c ∈ ([.mirrorReceive n, .syncReqReceive n, .syncDataReceive n, .departRequestReceive n b, .departGrantReceive n b, .departSafeReceive n b, .departCancelReceive n b, .departCancelledReceive n b, .startReceive n b, .ackReceive n b, .activateReceive n b] : List Instr),
      exec c s = .next { touch s 14 with bus := { s.bus with deferred := s.bus.deferred ++ [(14, .command c)] } }) ∧
    ((powOf s 12).st = .ret → 12 ≤ s.pow.length → 6 ≤ s.rst.step → ∀ c ∈ ([.bufWrite n b, .bufRead n k] : List Instr),
      exec c s = .next { touch s 12 with bus := { s.bus with deferred := s.bus.deferred ++ [(12, .command c)] } }))

/-- REGISTER_WRITE does what the register does, is kept for a sleeping unit, ignored while fail-silent, and not taken by a full port. -/
def Obligations.RegisterWriteReachesItsRegister : Prop :=
  (∀ (s : State) (a : Access) (off u : Nat) (r x : Reg) (d : Word), reaches s a u → targetAt s 0 (off / 4 * 4) = .reg u 0 r → actOn s 0 r = some x →
    exec (.registerWrite a off d) s = .next (answered a (writeReg (touch s u) a 0 x d.toNat))) ∧
  (∀ (s : State) (a : Access) (d : Word), reaches s a 3 →
    exec (.registerWrite a 0x3108 d) s = .next (answered a (rwSet (touch s 3) .leapBundleCount
      (if d.toNat % 2048 ≤ 1024 then d.toNat % 2048 else rwGet s .leapBundleCount % 2048)))) ∧
  (∀ (s : State) (a : Access) (d : Word), reaches s a 3 →
    exec (.registerWrite a 0x3110 d) s = .next (answered a (rwSet (touch s 3) .leapHotSel (d.toNat % 64)))) ∧
  (∀ (s : State) (a : Access) (off u : Nat) (r x : Reg) (d : Word), portTakes s a → 6 ≤ s.rst.step → s.flt.active = false → asleep s u = true →
    targetAt s 0 (off / 4 * 4) = .reg u 0 r → actOn s 0 r = some x →
    exec (.registerWrite a off d) s = .next (answered a { touch s u with
      bus := { s.bus with deferred := s.bus.deferred ++ [(u, .write a x d.toNat)] } })) ∧
  (∀ (s : State) (a : Access) (off u : Nat) (r : Reg) (d : Word), portTakes s a → 6 ≤ s.rst.step → s.flt.active = true →
    targetAt s 0 (off / 4 * 4) = .reg u 0 r → r ≠ .host .fltPop → exec (.registerWrite a off d) s = .next (answered a s)) ∧
  (∀ (s : State) (rid v off : Nat) (d : Word), 8 ≤ s.bus.queue.length → exec (.registerWrite ⟨.reg rid, v⟩ off d) s = .next s)

/-- During steps 3 to 5 only SVC answers; an offset without a register reads 0 and is counted; a tenant outside its page is denied and counted. -/
def Obligations.AccessesThatReachNoRegister : Prop :=
  (∀ (s : State) (a : Access) (off u : Nat) (r : Reg) (d : Word), portTakes s a → s.rst.step < 6 → targetAt s 0 (off / 4 * 4) = .reg u 0 r → u ≠ 17 →
    exec (.registerWrite a off d) s = .next (answered a s) ∧ exec (.rcRead a off) s = .next (gave a 0 s) ∧ exec (.pairLowRead a off) s = .next (gave a 0 s)) ∧
  (∀ (s : State) (a : Access), portTakes s a → aget s.bus.latches (a.rq, Reg.svc .version) = none →
    exec (.pairLowRead a 0) s = .next (gave a 0x00020300 s)) ∧
  (∀ (s : State) (a : Access) (off : Nat) (d : Word), portTakes s a → 6 ≤ s.rst.step → targetAt s 0 (off / 4 * 4) = .hole →
    exec (.registerWrite a off d) s = .next (answered a (rcInc s .tenHole)) ∧ exec (.rcRead a off) s = .next (gave a 0 (rcInc s .tenHole))) ∧
  (∀ (s : State) (rid v off : Nat) (d : Option Word), 0 < v → s.bus.queue.length < 8 → 6 ≤ s.rst.step → (off / 4 * 4 < 0x80000 ∨ 0x100000 ≤ off / 4 * 4) →
    exec (.forbiddenAccess ⟨.reg rid, v⟩ off d) s = .next (gave ⟨.reg rid, v⟩ 0 { rcInc s .tenDeny with
      host := { s.host with denyOff := off / 4 * 4, denyView := v, denyRid := rid } }) ∧
    ∀ w : Word, exec (.registerWrite ⟨.reg rid, v⟩ off w) s = exec (.forbiddenAccess ⟨.reg rid, v⟩ off (some w)) s)

/-- A counter saturates at all ones and never wraps. -/
def Obligations.CounterReadsThenClears : Prop :=
  ∀ (s : State) (c : RcReg) (n : Nat), rcGet s c < 2 ^ 32 →
    rcGet (rcAdd s c n) c = (if rcGet s c + n < 2 ^ 32 then rcGet s c + n else 2 ^ 32 - 1) ∧ ∀ k, k ≠ c → rcGet (rcAdd s c n) k = rcGet s k

/-- RC_READ gives the count and clears it; PAIR_LOW_READ latches the high word for its requester; REG_ACKNOWLEDGE acknowledges the oldest request. -/
def Obligations.ReadsLatchClearAndAreAcknowledged : Prop :=
  (∀ (s : State) (a : Access) (off u : Nat) (c : RcReg), portTakes s a → 6 ≤ s.rst.step → targetAt s 0 (off / 4 * 4) = .reg u 0 (.rc c) →
    aget s.bus.latches (a.rq, Reg.rc c) = none → actOn s 0 (.rc c) = some (.rc c) → rcGet s c < 2 ^ 32 →
    exec (.rcRead a off) s = .next (gave a (rcGet s c) { s with rc := adel s.rc c }) ∧ rcGet { s with rc := adel s.rc c } c = 0) ∧
  (∀ (s : State) (a : Access) (off u : Nat) (r : RwReg) (h : Reg), portTakes s a → 6 ≤ s.rst.step → targetAt s 0 (off / 4 * 4) = .reg u 0 (.rw r) →
    pairHigh (.rw r) = some h → aget s.bus.latches (a.rq, Reg.rw r) = none → actOn s 0 (.rw r) = some (.rw r) →
    exec (.pairLowRead a off) s = .next (gave a (regWord s a.rq (.rw r)) { s with
      bus := { s.bus with latches := aset s.bus.latches (a.rq, h) (regWord s a.rq h) } })) ∧
  (∀ (s : State) (a : Access) (off u v : Nat) (r : RwReg), portTakes s a → 6 ≤ s.rst.step → targetAt s 0 (off / 4 * 4) = .reg u 0 (.rw r) →
    aget s.bus.latches (a.rq, Reg.rw r) = some v → actOn s 0 (.rw r) = some (.rw r) →
    exec (.pairLowRead a off) s = .next (gave a v { s with bus := { s.bus with latches := adel s.bus.latches (a.rq, Reg.rw r) } })) ∧
  (∀ (s : State) (k : Ack) (rest : List Ack), s.bus.queue = k :: rest →
    exec .regAcknowledge s = .next { s with bus := { s.bus with queue := rest, ackOut := some k } }) ∧
  (∀ s : State, s.bus.queue = [] → exec .regAcknowledge s = .next { s with bus := { s.bus with ackOut := none } })

/-- The service port reads registers and status, writes registers word by word, reaches the SRAM buffer, and ignores an unknown opcode. -/
def Obligations.ServicePortReadsAndWrites : Prop :=
  (∀ (s : State) (addr n : Nat), ∃ t, exec (.svcRegisterRead addr n) s = .next t ∧ t.boot.svcOut.length = n) ∧
  (∀ (s : State) (addr u : Nat) (r x : Reg), 6 ≤ s.rst.step → targetAt s 0 (addr / 4 * 4) = .reg u 0 r → actOn s 0 r = some x →
    ∃ t, exec (.svcRegisterRead addr 1) s = .next t ∧ t.boot.svcOut = [(readReg s .svc x).2]) ∧
  (∀ (s : State) (addr u : Nat) (r x : Reg) (b : Bytes), reaches s ⟨.svc, 0⟩ u → targetAt s 0 (addr / 4 * 4) = .reg u 0 r → actOn s 0 r = some x → b.length = 4 →
    exec (.svcRegisterWrite addr b) s = .next (writeReg (touch s u) ⟨.svc, 0⟩ 0 x (beAt b 0 4))) ∧
  (∀ (s : State) (addr : Nat) (b : Bytes), b.length < 4 → exec (.svcRegisterWrite addr b) s = .next s) ∧
  (∀ s : State, exec .svcStatusRead s = .next { s with boot := { s.boot with svcOut := [bootStatWord s % 2 ^ 20] } }) ∧
  (∀ (s : State) (op : Nat), op % 256 ∉ [0x0B, 0x02, 0x05, 0x12, 0x1B] →
    exec (.svcUnknownOpcode op) s = .next { s with boot := { s.boot with svcOut := [] } }) ∧
  (∀ (s : State) (addr : Nat) (b : Bytes), 6 ≤ s.rst.step → asleep s 12 = false → s.boot.cmd.isSome →
    exec (.bufWrite addr b) s = .next { touch s 12 with boot := { s.boot with conflict := true } }) ∧
  (∀ (s : State) (addr : Nat) (b : Bytes), 6 ≤ s.rst.step → asleep s 12 = false → s.boot.cmd = none → addr % 2 ^ 20 / 4 * 4 < 65536 →
    ∃ t, exec (.bufWrite addr b) s = .next t ∧
    t = sramWrite (touch s 12) false (sramBytes s - 65536 + addr % 2 ^ 20 / 4 * 4) ((b.take (b.length / 4 * 4)).take (65536 - addr % 2 ^ 20 / 4 * 4)) ∧
    t.time = s.time ∧ t.ilk = s.ilk ∧ t.img = s.img ∧ t.rw = s.rw ∧ t.bus = s.bus ∧ t.leap = s.leap ∧ t.host = s.host) ∧
  (∀ (s : State) (addr n : Nat), asleep s 12 = false → ∃ t, exec (.bufRead addr n) s = .next t ∧ t.boot.svcOut.length = n ∧
    t.time = s.time ∧ t.ilk = s.ilk ∧ t.img = s.img ∧ t.rw = s.rw ∧ t.bus = s.bus ∧ t.leap = s.leap ∧ t.host = s.host) ∧
  (∀ (s : State) (addr n : Nat) (b : Bytes), 6 ≤ s.rst.step → (powOf s 12).st = .ret → 12 ≤ s.pow.length →
    exec (.bufWrite addr b) s = .next { touch s 12 with bus := { s.bus with deferred := s.bus.deferred ++ [(12, .command (.bufWrite addr b))] } } ∧
    exec (.bufRead addr n) s = .next { touch s 12 with bus := { s.bus with deferred := s.bus.deferred ++ [(12, .command (.bufRead addr n))] } })

/-- A read beat or a write completion goes to the transaction of its tag; an error halts the DMA channel; one of no transaction changes nothing. -/
def Obligations.MemoryPortTakesBeatsByTag : Prop :=
  (∀ (s : State) (tag : Nat) (x : MmTx) (b : Bytes), lookup s.mm.tags tag = some x → x.write = false → x.got + 1 < x.beats →
    exec (.mmReadBeat tag b false 0) s = .next { s with
      mm := { s.mm with
        jobs := s.mm.jobs.map (fun j => if j.owner = x.owner then takeBeat j x b else j)
        tags := setKey s.mm.tags tag { x with got := x.got + 1 } } }) ∧
  (∀ (s : State) (tag err : Nat) (x : MmTx) (j : MmJob) (b : Bytes), lookup s.mm.tags tag = some x → x.write = false → x.got + 1 < x.beats →
    0 < err → err < 4 → mmJobOf s x.owner = some j → j.chan ≠ 1 → j.chan < Config.dmaChannels s.integ →
    ∃ t, exec (.mmReadBeat tag b false err) s = .next t ∧ lookup t.mm.halted j.chan = some (mmCode err) ∧
      t = { s with mm := t.mm, cap := { s.cap with prof := { s.cap.prof with halt := s.cap.prof.halt || j.chan == 0 } } } ∧
      t.mm.jobs = s.mm.jobs.map (fun k => if k.owner = x.owner then { k with err := if k.err = 0 then err else k.err } else k)) ∧
  (∀ (s : State) (tag : Nat) (x : MmTx) (b : Bytes) (l : Bool), lookup s.mm.tags tag = some x → x.write = false → l = true ∨ x.got + 1 = x.beats →
    exec (.mmReadBeat tag b l 0) s = .next (mmPump (pumpRuns (endJobs { s with
      mm := { s.mm with
        jobs := (s.mm.jobs.map (fun j => if j.owner = x.owner then takeBeat j x b else j)).map
          (fun j => if j.owner = x.owner then { j with left := j.left - txBytes j x } else j)
        tags := dropKey s.mm.tags tag } } x.owner)))) ∧
  (∀ (s : State) (tag : Nat) (x : MmTx), lookup s.mm.tags tag = some x → x.write = true →
    exec (.mmWriteCompletion tag 0) s = .next (mmPump (pumpRuns (endJobs { s with
      mm := { s.mm with
        jobs := s.mm.jobs.map (fun j => if j.owner = x.owner then { j with left := j.left - txBytes j x } else j)
        tags := dropKey s.mm.tags tag } } x.owner)))) ∧
  (∀ (s : State) (tag err : Nat) (b : Bytes) (l : Bool), lookup s.mm.tags tag = none →
    exec (.mmReadBeat tag b l err) s = .next s ∧ exec (.mmWriteCompletion tag err) s = .next s)

/-- COUNTER_INCREMENT clears and adds to each captured lane once per cycle, saturating, and drops the rest counted. -/
def Obligations.LaneIncrementsAddSaturating : Prop :=
  (∀ (s : State) (l : List IncSlot), Config.isSpireL s.integ = true → exec (.counterIncrement l) s = .next s) ∧
  ∀ (s : State) (l : List IncSlot), Config.isSpireL s.integ = false → ∃ t, exec (.counterIncrement l) s = .next t ∧
    (∀ n, lookupD t.cap.lanes n laneNone =
      (let o := lookupD s.cap.lanes n laneNone
       let mine := l.filter (fun x => x.lane == n)
       let from0 := if mine.any (·.clr) then 0 else o.value
       let add := sumOf (mine.map (·.val))
       if mine ≠ [] ∧ laneCaptured s n = true then
         { value := min (from0 + add) (2 ^ 64 - 1), delta := min (o.delta + add) (2 ^ 64 - 1), clr := o.clr || mine.any (·.clr),
           satV := (o.satV && !mine.any (·.clr)) || decide (2 ^ 64 ≤ from0 + add), satD := o.satD || decide (2 ^ 64 ≤ o.delta + add) }
       else o)) ∧
    (rcGet s .capDropRange < 2 ^ 32 → rcGet t .capDropRange =
      min (rcGet s .capDropRange + (l.filter (fun x => !laneCaptured s x.lane)).length) (2 ^ 32 - 1)) ∧
    t = { s with rc := t.rc, erc := { s.erc with tally := t.erc.tally }, cap := { s.cap with lanes := t.cap.lanes, loss := t.cap.loss } }

/-- ENGINE_EVENT credits the interval to the state it ends and takes the highest valid slot of each engine. -/
def Obligations.EngineEventsCreditTheInterval : Prop :=
  (∀ (s : State) (l : List EngSlot), Config.isSpireL s.integ = true → exec (.engineEvent l) s = .next s) ∧
  ∀ (s : State) (l : List EngSlot), Config.isSpireL s.integ = false → ∃ t, exec (.engineEvent l) s = .next t ∧
    (∀ n x, engCaptured s n = true → (l.filter (fun y => y.engine == n && y.state != 3)).getLast? = some x →
      let o := engAt s n
      let d := coreCycle s - o.since
      engAt t n = {
        state := x.state, reason := x.reason, cmd := if x.cmd then some (x.layer, x.op) else o.cmd, since := coreCycle s,
        idle := if o.state = 0 then add32 o.idle d else o.idle, busy := if o.state = 1 then add32 o.busy d else o.busy,
        stalled := if 2 ≤ o.state then add32 o.stalled d else o.stalled, cmds := if x.cmd then min (o.cmds + 1) (2 ^ 32 - 1) else o.cmds,
        byReason := if 2 ≤ o.state then o.byReason.modify o.reason (fun v => add32 v d) else o.byReason }) ∧
    (∀ n, engCaptured s n = false ∨ l.filter (fun y => y.engine == n && y.state != 3) = [] → lookup t.cap.engines n = lookup s.cap.engines n) ∧
    (rcGet s .capDropRange < 2 ^ 32 → rcGet t .capDropRange =
      min (rcGet s .capDropRange + (l.filter (fun x => !engCaptured s x.engine)).length) (2 ^ 32 - 1)) ∧
    t = { s with rc := t.rc, erc := { s.erc with tally := t.erc.tally },
                 cap := { s.cap with engines := t.cap.engines, optab := t.cap.optab, other := t.cap.other, loss := t.cap.loss } }

/-- RING_EVENT adds posted and retired commands to a watched ring, never below 0; RING_CLEAR empties one ring. -/
def Obligations.RingsKeepTheirNetOccupancy : Prop :=
  (∀ (s : State) (l : List RingSlot), Config.isSpireL s.integ = true → exec (.ringEvent l) s = .next s) ∧
  (∀ (s : State) (l : List RingSlot), Config.isSpireL s.integ = false → ∃ t, exec (.ringEvent l) s = .next t ∧
    (∀ r, lookupD t.cap.rings r 0 =
      (let mine := l.filter (fun x => x.ring == r && x.count != 0)
       if mine ≠ [] ∧ (ringGroup s r).isSome = true then
         min (2 ^ 32 - 1) (lookupD s.cap.rings r 0 + sumOf ((mine.filter (fun x => !x.done)).map (·.count)) - sumOf ((mine.filter (·.done)).map (·.count)))
       else lookupD s.cap.rings r 0)) ∧
    t = { s with rc := t.rc, erc := { s.erc with tally := t.erc.tally },
                 cap := { s.cap with rings := t.cap.rings, ringEp := t.cap.ringEp, groups := t.cap.groups, loss := t.cap.loss } }) ∧
  (∀ (s : State) (a : Access) (d : Word), reaches s a 1 → ∃ t, exec (.ringClear a d) s = .next (answered a t) ∧
    lookupD t.cap.rings (d.toNat % 65536) 0 = 0 ∧ (∀ r, r ≠ d.toNat % 65536 → lookupD t.cap.rings r 0 = lookupD s.cap.rings r 0) ∧
    t = { touch s 1 with cap := { s.cap with rings := t.cap.rings } })

/-- ECC_EVENT, SENSOR_SAMPLE and LINK_ERROR_REPORT tally what the map captures and drop the rest counted. -/
def Obligations.HealthEventsTallyOrDrop : Prop :=
  (∀ s : State, exec (.eccEvent []) s = .next s ∧ exec (.sensorSample []) s = .next s ∧ exec (.linkErrorReport []) s = .next s) ∧
  (∀ (s : State) (x : EccSlot) (l : List EccSlot), ∃ t, exec (.eccEvent [x]) s = .next t ∧ exec (.eccEvent (x :: l)) s = exec (.eccEvent l) t ∧
    (stackGib s x.stack = none → t = capDrop s .capDropHealth 3 1) ∧
    (∀ g, stackGib s x.stack = some g → g * 2 ^ 24 ≤ x.addr → t = capDrop s .capDropAddr 3 1) ∧
    (∀ g, stackGib s x.stack = some g → x.addr < g * 2 ^ 24 →
      let o := lookupD s.cap.memStacks x.stack stkNone
      let k := lookupD t.cap.memStacks x.stack stkNone
      k.ce = (if x.kind = 0 then add32 o.ce 1 else o.ce) ∧ k.ue = (if x.kind = 1 then add32 o.ue 1 else o.ue) ∧
      k.scrub = (if x.kind = 2 then add32 o.scrub 1 else o.scrub) ∧ k.repair = (if 3 ≤ x.kind then add32 o.repair 1 else o.repair) ∧
      (x.kind ≠ 1 → t.feat = s.feat ∧ t.rc = s.rc) ∧
      ∀ n, n ≠ x.stack → lookup t.cap.memStacks n = lookup s.cap.memStacks n) ∧
    t = { s with rc := t.rc, erc := { s.erc with tally := t.erc.tally }, feat := { s.feat with queue := t.feat.queue, evSeq := t.feat.evSeq },
                 cap := { s.cap with memStacks := t.cap.memStacks, rawEcc := t.cap.rawEcc, loss := t.cap.loss } }) ∧
  (∀ (s : State) (x : SensorSlot) (l : List SensorSlot), ∃ t, exec (.sensorSample [x]) s = .next t ∧
    exec (.sensorSample (x :: l)) s = exec (.sensorSample l) t ∧ (snsCaptured s x.sensor = false → t = capDrop s .capDropHealth 3 1) ∧
    (snsCaptured s x.sensor = true →
      let o := lookupD s.cap.sensors x.sensor snsNone
      let v := signed 16 x.val
      let k := lookupD t.cap.sensors x.sensor snsNone
      k.last = v ∧ (o.count = 0 → k.count = 1 ∧ k.lo = v ∧ k.hi = v ∧ k.sum = v) ∧
      (o.count ≠ 0 → k.count = add32 o.count 1 ∧ k.lo = min o.lo v ∧ k.hi = max o.hi v ∧ (-(2 ^ 31) ≤ o.sum + v → o.sum + v < 2 ^ 31 → k.sum = o.sum + v)) ∧
      t = { s with cap := { s.cap with sensors := t.cap.sensors, rawSns := t.cap.rawSns } })) ∧
  (∀ (s : State) (x : LinkSlot) (l : List LinkSlot), ∃ t, exec (.linkErrorReport [x]) s = .next t ∧
    exec (.linkErrorReport (x :: l)) s = exec (.linkErrorReport l) t ∧
    (∀ sec, capSec s = some sec → sec.healthEn = true → sec.links.contains x.link = true →
      lookup t.cap.links x.link = some (add32 (lookupD s.cap.links x.link (0, 0)).1 x.count, add32 (lookupD s.cap.links x.link (0, 0)).2 1) ∧
      t = { s with cap := { s.cap with links := t.cap.links } }) ∧
    ((∀ sec, capSec s = some sec → sec.healthEn = false ∨ sec.links.contains x.link = false) → t = capDrop s .capDropHealth 3 1))

/-- STEP_MARK opens a job's step, completes it with its duration and counts marks that fit no step. -/
def Obligations.StepMarksOpenAndCloseSteps : Prop :=
  (∀ (s : State) (a : Access) (d : Word), reaches s a 1 → (∀ c, capSec s = some c → c.stepEn = false) →
    exec (.stepMark a d) s = .next (answered a (touch s 1))) ∧
  (∀ (s : State) (a : Access) (d : Word) (c : CaptureSec), reaches s a 1 → capSec s = some c → c.stepEn = true →
    let id := rwGet s .capStepId
    let job := id % 65536
    let gen := id / 65536 % 256
    ∃ t, exec (.stepMark a d) s = .next (answered a t) ∧
      (∀ i, i < s.cap.slots.length → id.testBit 31 = false → (∀ j ∈ s.cap.slots, (j.used && j.job == job) = false) → freeSlot s.cap.slots = i →
        t.cap.slots = s.cap.slots.set i ⟨true, job, gen, some (d.toNat, tb0Stamp s), s.cap.marks + 1⟩ ∧ t.rc = s.rc) ∧
      (id.testBit 31 = true → (∀ j ∈ s.cap.slots, (j.used && j.job == job) = false) →
        t.cap.slots = s.cap.slots ∧ rcGet t .capStepOrphan = add32 (rcGet s .capStepOrphan) 1) ∧
      (∀ i j, findIdx (fun j => j.used && j.job == job) s.cap.slots = some i → s.cap.slots[i]? = some j → gen ≠ j.gen → newer 8 gen j.gen = false →
        t.cap.slots = s.cap.slots ∧ rcGet t .capStepGenDrop = add32 (rcGet s .capStepGenDrop) 1) ∧
      (∀ i j b, findIdx (fun j => j.used && j.job == job) s.cap.slots = some i → s.cap.slots[i]? = some j → id.testBit 31 = true → gen = j.gen →
        j.openStep = some (d.toNat, b) → inEpoch s = true →
        t.cap.table = s.cap.table.filter (fun x => x.slot != i) ++ [⟨i, job, gen, d.toNat, b, tb0Stamp s, stepDuration b (tb0Stamp s)⟩] ∧
        t.cap.slots = s.cap.slots.set i { j with openStep := none, mark := s.cap.marks + 1 }) ∧
      t = { touch s 1 with
        rc := t.rc, erc := { s.erc with tally := t.erc.tally }, feat := { s.feat with queue := t.feat.queue, evSeq := t.feat.evSeq },
        cap := { s.cap with slots := t.cap.slots, marks := t.cap.marks, table := t.cap.table, rawStep := t.cap.rawStep, loss := t.cap.loss } })

/-- PROFILE_BUFFER_COPY sends the oldest closed buffer to its slot and PROFILE_HALT_CLEAR lets the channel go on. -/
def Obligations.ProfileBuffersGoToTheirSlots : Prop :=
  (∀ (s : State) (b : ProfBuf) (rest : List ProfBuf) (d : Bytes), s.cap.prof.bufs = b :: rest → b.stored = some d → s.cap.prof.flying = false →
    s.cap.prof.halt = false → profFull s = false → mmQuiet s = false → ∃ t, exec .profileBufferCopy s = .next t ∧
    t = { touch s 13 with cap := { s.cap with prof := { s.cap.prof with flying := true } }, mm := t.mm } ∧
    ∃ j ∈ t.mm.jobs, j.owner = .profBody ∧ j.write = true ∧ j.qos = 0 ∧ j.addr = pairBase s .capProfBase + 65536 * s.cap.prof.wr ∧ j.data = profBytes s b d) ∧
  (∀ s : State, s.cap.prof.bufs = [] ∨ s.cap.prof.flying = true ∨ s.cap.prof.halt = true ∨ profFull s = true ∨ mmQuiet s = true →
    exec .profileBufferCopy s = .next s) ∧
  (∀ (s : State) (a : Access), reaches s a 1 → s.cap.prof.bufs = [] → exec (.profileHaltClear a) s = .next (answered a { touch s 1 with
    mm := { s.mm with halted := dropKey s.mm.halted 0 }, cap := { s.cap with prof := { s.cap.prof with halt := false } } }))

/-- TRACE_EVENT puts one packet in the core's open block, or counts the event where the map or the ring has no place for it. -/
def Obligations.TraceEventsEnterTheOpenBlockOrAreLost : Prop :=
  (∀ s : State, exec (.traceEvent []) s = .next s) ∧
  (∀ (s : State) (e : TraceSlot) (l : List TraceSlot), ∃ t, exec (.traceEvent [e]) s = .next t ∧
    exec (.traceEvent (e :: l)) s = exec (.traceEvent l) t ∧
    (trcEnabled s e.core = false → t = rcInc s .trcDropMap) ∧
    (trcEnabled s e.core = true → ringOn (coreAt s e.core) = false ∨ (coreAt s e.core).pwrReq = true →
      rcGet t (.trcLost e.core) = add32 (rcGet s (.trcLost e.core)) 1 ∧
      coreAt t e.core = { coreAt s e.core with
        lostEv := add32 (coreAt s e.core).lostEv 1, lostIns := add32 (coreAt s e.core).lostIns e.icount,
        lostMark := min (coreAt s e.core).lostMark 255 }) ∧
    (∀ b, trcEnabled s e.core = true → ringOn (coreAt s e.core) = true → (coreAt s e.core).pwrReq = false → (coreAt s e.core).cur = some b →
      asleep s 9 = false → tsDue s e.core = false →
      let k := coreAt s e.core
      let sync := k.needSync || decide (4096 ≤ k.insns + e.icount)
      let n := if sync then 8 else addrBytes k.refAddr e.addr
      b.raw.length + (2 + n) ≤ 4032 →
      (coreAt t e.core).cur = some { b with
        raw := b.raw ++ (toLe 1 ((e.kind + 1) * 16 + n) ++ toLe 1 e.icount ++ toLe n e.addr), events := b.events + 1, insns := b.insns + e.icount,
        syncOff := ((coreAt t e.core).cur.map (·.syncOff)).getD 0 } ∧
      (coreAt t e.core).refAddr = e.addr ∧ (coreAt t e.core).needSync = false ∧ (coreAt t e.core).insns = (if sync then 0 else k.insns + e.icount) ∧
      (∀ c, c ≠ e.core → coreAt t c = coreAt s c)) ∧
    t = { s with pow := t.pow, rc := t.rc, erc := { s.erc with tally := t.erc.tally }, trc := t.trc, cmp := t.cmp })

/-- A core's power-down request is marked, closed and acknowledged; its power-up is remembered; a late acknowledge rises after 2 us. -/
def Obligations.TracePowerHandshake : Prop :=
  (∀ (s : State) (c : Nat), c < s.trc.length → ∃ t, exec (.tracePowerDownRequest c) s = .next t ∧
    (coreAt t c).pwrReq = true ∧ (coreAt t c).reqAt = s.time.c ∧ (∀ k, k ≠ c → coreAt t k = coreAt s k) ∧
    (s.flt.active = true ∨ trcEnabled s c = false → (coreAt t c).pwrAck = true ∧ t = { s with trc := t.trc }) ∧
    (∀ b, s.flt.active = false → trcEnabled s c = true → (coreAt s c).pendUp = none → tsDue s c = false → (coreAt s c).cur = some b →
      (coreAt t c).pwrAck = true ∧ (coreAt t c).cur = none ∧
      ∃ b', (coreAt t c).closed = (coreAt s c).closed ++ [b'] ∧ b'.raw = b.raw ++ 0x03 :: stampLe (tb0Stamp s) ∧ b'.hasPower = true ∧
        b'.markers = b.markers + 1 ∧ b'.bseq = b.bseq) ∧
    t = { s with rc := t.rc, erc := { s.erc with tally := t.erc.tally }, trc := t.trc, cmp := t.cmp }) ∧
  (∀ (s : State) (c : Nat), c < s.trc.length → ∃ t, exec (.tracePowerUp c) s = .next t ∧
    (coreAt t c).pwrReq = false ∧ (coreAt t c).pwrAck = false ∧ (∀ k, k ≠ c → coreAt t k = coreAt s k) ∧
    (s.flt.active = true ∨ trcEnabled s c = false → (coreAt t c).pendUp = (coreAt s c).pendUp) ∧
    t = { s with rw := t.rw, trc := t.trc }) ∧
  (∀ (s : State) (c : Nat), c < s.trc.length → (coreAt s c).pwrReq = true → (coreAt s c).pwrAck = false →
    ∃ t, exec (.tracePowerAckTimeout c) s = .next t ∧ (coreAt t c).pwrAck = true ∧ t.time.c = max s.time.c ((coreAt s c).reqAt + 2000) ∧
    (coreAt t c).cur = none ∧ (∀ k, k ≠ c → coreAt t k = coreAt s k) ∧
    (∀ b, (coreAt s c).cur = some b → rcGet t .trcMarkLost = (if b.markers = 0 then rcGet s .trcMarkLost else add32 (rcGet s .trcMarkLost) b.markers)) ∧
    t = { s with rc := t.rc, erc := { s.erc with tally := t.erc.tally }, trc := t.trc, time := { s.time with c := t.time.c } }) ∧
  (∀ (s : State) (c : Nat), (coreAt s c).pwrReq = false ∨ (coreAt s c).pwrAck = true → exec (.tracePowerAckTimeout c) s = .next s)

/-- TRACE_BLOCK_AGE_CLOSE closes a block at its age, TRACE_BLOCK_WRITE sends the oldest, and HALT and SIZE take their writes. -/
def Obligations.TraceBlocksCloseAndGoToTheirRing : Prop :=
  (∀ (s : State) (c : Nat) (b : TBlock), c < s.trc.length → (coreAt s c).cur = some b → b.raw ≠ [] → asleep s 9 = false → ∃ t, exec (.traceBlockAgeClose c) s = .next t ∧
    t.time.c = (advanceTb0 s (b.openNs + rwGet s .trcCfg / 65536 % 1024 * 1000)).time.c ∧
    coreAt t c = { coreAt s c with
      cur := none, closed := (coreAt s c).closed ++ [if b.zip then b else { b with ready := true, stored := b.raw }] } ∧
    t.cmp.queue = s.cmp.queue ++ (if b.zip then [⟨.trc c, b.raw⟩] else []) ∧
    t = { touch s 9 with time := { s.time with c := t.time.c }, trc := t.trc, cmp := { s.cmp with queue := t.cmp.queue } }) ∧
  (∀ (s : State) (c : Nat), (∀ b, (coreAt s c).cur = some b → b.raw = []) → exec (.traceBlockAgeClose c) s = .next (touch s 9)) ∧
  (∀ (s : State) (c : Nat) (b : TBlock), c < s.trc.length → (coreAt s c).halt = false → (coreAt s c).flying = none → (coreAt s c).size ≠ 0 →
    mmQuiet s = false → asleep s 9 = false → readyBlock (coreAt s c) = some b → ∃ t, exec (.traceBlockWrite c) s = .next t ∧
    t = { s with trc := t.trc, mm := t.mm, pow := t.pow } ∧ (∀ u, u ≠ 9 → u ≠ 13 → powOf t u = powOf s u) ∧ (coreMove s c b = .hold → t = touch s 9) ∧
    (coreMove s c b = .block → coreAt t c = { coreAt s c with
        closed := (coreAt s c).closed.drop 1, flying := some ⟨some b, ((coreAt s c).wr + (blockBytes c b).length) % ((coreAt s c).size * 4096)⟩ } ∧
      ∃ j ∈ t.mm.jobs, j.owner = .trcBlock c ∧ j.write = true ∧ j.qos = 0 ∧ j.addr = (coreAt s c).base + (coreAt s c).wr ∧ j.data = blockBytes c b) ∧
    (coreMove s c b = .wrap → coreAt t c = { coreAt s c with flying := some ⟨none, 0⟩ } ∧
      ∃ j ∈ t.mm.jobs, j.owner = .trcBlock c ∧ j.write = true ∧ j.qos = 0 ∧ j.addr = (coreAt s c).base + (coreAt s c).wr ∧ j.data = wrapBytes c b.bseq)) ∧
  (∀ (s : State) (a : Access) (c : Nat), reaches s a 9 → c < s.integ.traces → c < 64 →
    exec (.traceHaltClear a c) s = .next (answered a { touch s 9 with trc := s.trc.modify c (fun k => { k with halt := false }) })) ∧
  (∀ (s : State) (a : Access) (c : Nat) (d : Word), reaches s a 9 → c < s.integ.traces → c < 64 → c < s.trc.length →
    let n := if d.toNat % 4096 = 1 then 0 else d.toNat % 4096
    ∃ t, exec (.traceRingSizeWrite a c d) s = .next (answered a t) ∧ rwGet t (.trcSize c) = n ∧
      (coreBusy (coreAt s c) = false → rwGet t (.trcRd c) = 0 ∧
        coreAt t c = { coreAt s c with size := n, base := pairBase s (.trcBase c), wr := 0, sizeWait := none }) ∧
      (coreBusy (coreAt s c) = true → n ≠ 0 → coreAt t c = { coreAt s c with sizeWait := some n } ∧ rwGet t (.trcRd c) = rwGet s (.trcRd c)) ∧
      (∀ k, k ≠ c → coreAt t k = coreAt s k) ∧ t = { touch s 9 with rw := t.rw, trc := t.trc, cmp := t.cmp })

/-- RECORDER_FREEZE starts a tally, RECORDER_RELEASE appends it as one FROZEN record, RECORDER_WINDOW_SELECT selects a record. -/
def Obligations.RecorderFreezesReleasesAndSelects : Prop :=
  (∀ (s : State) (a : Access) (d : Word), reaches s a 10 →
    exec (.recorderWindowSelect a d) s = .next (answered a (rwSet (touch s 10) .ercWinSeq d.toNat))) ∧
  (∀ (s : State) (a : Access), reaches s a 10 → exec (.recorderFreeze a) s = .next (answered a (if s.erc.freeze then touch s 10 else
    { touch s 10 with erc := { s.erc with freeze := true, frozen := tallyNone, frozenN := 0, frozenStep := false } }))) ∧
  (∀ (s : State) (a : Access), reaches s a 10 → ∃ t, exec (.recorderRelease a) s = .next (answered a t) ∧ t.erc.freeze = false ∧
    (s.erc.freeze = false ∨ s.erc.frozenN = 0 → t.erc.ring = s.erc.ring ∧ t.erc.rseq = s.erc.rseq) ∧
    (s.erc.freeze = true → s.erc.frozenN ≠ 0 → t.erc.rseq = (s.erc.rseq + 1) % 2 ^ 32 ∧
      ∃ f, t.erc.ring = (if s.erc.ring.length < ercSlots s then s.erc.ring else s.erc.ring.drop 1) ++
        [(t.erc.rseq, ercRecord 2 f t.erc.rseq s.erc.frozenEp s.erc.frozenGen s.erc.frozenN (nodeId s + nodeH s * 2 ^ 24) (tallyBytes s.erc.frozen))]) ∧
    t = { s with mm := t.mm, rc := t.rc, erc := t.erc, cmp := t.cmp, pow := t.pow } ∧ ∀ u, u ≠ 10 → u ≠ 13 → powOf t u = powOf s u)

/-- RECORDER_FLUSH notes itself and sends what is unflushed; a drain's oldest record closes a chunk at its age; BUFFER_ARM arms an idle buffer. -/
def Obligations.RecorderFlushesAndChunks : Prop :=
  (∀ (s : State) (a : Access), reaches s a 10 → s.erc.freeze = false → ∃ t, exec (.recorderFlush a) s = .next (answered a t) ∧
    t.erc.rseq = (s.erc.rseq + 1) % 2 ^ 32 ∧ t.erc.drain = [] ∧
    (∃ f, t.erc.ring = (if s.erc.ring.length < ercSlots s then s.erc.ring else s.erc.ring.drop 1) ++ [(t.erc.rseq,
      ercRecord 5 f t.erc.rseq (epochNow s) (genAt s (epochNow s)) 0 (nodeId s + nodeH s * 2 ^ 24)
        (toLe 1 1 ++ zeros 3 ++ toLe 6 (tb0Stamp s).sec ++ toLe 4 (tb0Stamp s).ns ++ zeros 2 ++ toLe 8 0))]) ∧
    (ercArmed s = false → s.erc.power = false → s.erc.chunk = none → t.erc.flushing = true ∧
      t.erc.todo = (t.erc.ring.filter (fun p => newer 32 p.1 s.erc.flushed || (s.erc.flushing && s.erc.todo.contains p.1))).map (·.1)) ∧
    t = { s with mm := t.mm, rc := t.rc, erc := t.erc, cmp := t.cmp, pow := t.pow } ∧ ∀ u, u ≠ 10 → u ≠ 13 → powOf t u = powOf s u) ∧
  (∀ (s : State) (q ep : Nat) (rest : List (Nat × Nat)), asleep s 10 = false → s.erc.drain = (q, ep) :: rest → s.erc.chunk = none → ercArmed s = true → mmQuiet s = false →
    ep + rwGet s .ercCfg / 256 % 256 ≤ epochNow s → ercHeld s.erc ((s.erc.drain.take 16).map (·.1)) ≠ [] →
    ∃ t, exec .recorderChunkAge s = .next t ∧ t.erc.drain = s.erc.drain.drop 16 ∧
    (∃ k, t.erc.chunk = some k ∧ k.seqs = ((ercHeld s.erc ((s.erc.drain.take 16).map (·.1))).take 16).map (·.1) ∧ k.power = false) ∧
    t = { s with mm := t.mm, erc := t.erc, cmp := t.cmp, pow := t.pow } ∧ ∀ u, u ≠ 10 → u ≠ 13 → powOf t u = powOf s u) ∧
  (∀ s : State, s.erc.drain = [] ∨ s.erc.chunk ≠ none ∨ ercArmed s = false ∨ mmQuiet s = true ∨
      (∃ p rest, s.erc.drain = p :: rest ∧ epochNow s < p.2 + rwGet s .ercCfg / 256 % 256) → exec .recorderChunkAge s = .next (touch s 10)) ∧
  (∀ (s : State) (a : Access) (b : Bool), reaches s a 10 → s.erc.chunk = none → s.erc.flushing = false → s.erc.drain.length < 16 →
    let n := if b then 1 else 0
    ∃ t, exec (.bufferArm a n) s = .next (answered a t) ∧
    ercBuf t.erc b = (if (ercBuf s.erc b).arm || rwGet s (.ercBufSize n) == 0 then ercBuf s.erc b
      else ⟨true, pairBase s (.ercBufBase n), rwGet s (.ercBufSize n), 0⟩) ∧
    ercBuf t.erc (!b) = ercBuf s.erc (!b) ∧
    t = { s with mm := t.mm, pow := t.pow, erc := { s.erc with bufA := t.erc.bufA, bufB := t.erc.bufB } } ∧
    ∀ u, u ≠ 10 → u ≠ 13 → powOf t u = powOf s u)

/-- The ring scan, the black box's pages and sets, and CMP's block each finish with their own effect. -/
def Obligations.RecorderScanBlackBoxAndCompression : Prop :=
  (∀ s : State, s.erc.scanning = true → asleep s 10 = false → exec .recorderRingScanDone s = .next { touch s 10 with
    erc := { s.erc with scanning := false, flushed := ((s.erc.ring.head?.map (·.1)).getD (s.erc.rseq + 1) + 2 ^ 32 - 1) % 2 ^ 32 } }) ∧
  (∀ s : State, s.erc.scanning = false → exec .recorderRingScanDone s = .next (touch s 10)) ∧
  (∀ s : State, 3 ≤ s.boot.phase → s.erc.bbSets < 16 → exec .blackBoxSetErased s = .next { s with
    boot := { s.boot with store := memClear s.boot.store (bbAddr s s.erc.bbSets) 0x4000 },
    erc := { s.erc with bbErased := s.erc.bbErased ++ [s.erc.bbSets], bbSets := s.erc.bbSets + 1 } }) ∧
  (∀ s : State, s.boot.phase < 3 ∨ 16 ≤ s.erc.bbSets → exec .blackBoxSetErased s = .next s) ∧
  (∀ s : State, s.erc.bbWrite = none → exec .blackBoxPageDone s = .next s) ∧
  (∀ (s : State) (w : BbWrite) (p : Bytes) (ps : List Bytes), s.erc.bbWrite = some w → w.pages = p :: ps → ∃ t, exec .blackBoxPageDone s = .next t ∧
    t.boot = { s.boot with store := memWrite 0xFF s.boot.store (bbAddr s w.set + 256 * w.page) p } ∧
    (ps ≠ [] → t.erc = { s.erc with bbWrite := some ⟨w.set, w.page + 1, ps⟩ } ∧ t.rst = s.rst) ∧
    (∀ l, ps = [] → s.erc.bbThen = some l → t.erc = { s.erc with bbWrite := some ⟨0, 0, l⟩, bbThen := none } ∧ t.rst = s.rst) ∧
    (ps = [] → s.erc.bbThen = none → t.erc = { s.erc with bbWrite := none } ∧ t.rst = { s.rst with flushC := false }) ∧
    t = { s with rst := t.rst, erc := t.erc, boot := t.boot }) ∧
  (∀ (s : State) (m : Bool), nextZip s = none → exec (.compressBlockDone m) s = .next (touch s 11)) ∧
  (∀ (s : State) (j : ZipJob) (c : Nat), asleep s 11 = false → nextZip s = some j → j.owner = .trc c → ∃ t, exec (.compressBlockDone false) s = .next t ∧
    t.cmp.queue = s.cmp.queue.erase j ∧ rcGet t .cmpBlocks = add32 (rcGet s .cmpBlocks) 1 ∧
    (let shorter := !s.cmp.disabled && decide ((lz4 j.raw).length < j.raw.length)
     coreAt t c = { coreAt s c with
       closed := (coreAt s c).closed.modify ((coreAt s c).closed.findIdx (fun b => !b.ready)) (fun b =>
         { b with ready := true, lz4 := shorter, vfail := false, stored := if shorter then lz4 j.raw else j.raw }) }) ∧
    t = { touch s 11 with rc := t.rc, erc := { s.erc with tally := t.erc.tally }, trc := t.trc, cmp := t.cmp })

/-- A rate is held, committed within its range or refused, and applied 2 ns after the commit without moving the base. -/
def Obligations.RatesAreHeldCommittedAndApplied : Prop :=
  (∀ (s : State) (a : Access) (b : Nat) (d : Word), reaches s a 8 → b < 4 → hasBase s b = true → b ≠ 1 →
    exec (.rateLowWrite a b d) s = .next (answered a (modBase (touch s 8) b (fun k => { k with held := d.toNat })))) ∧
  (∀ (s : State) (a : Access) (d : Word), reaches s a 8 → hasBase s 1 = true →
    exec (.rateLowWrite a 1 d) s = .next (answered a (touch s 8)) ∧ exec (.rateCommit a 1 d) s = .next (answered a (touch s 8))) ∧
  (∀ (s : State) (a : Access) (b : Nat) (d : Word), reaches s a 8 → b < 4 → hasBase s b = true → b ≠ 1 →
    let r := signed 40 (d.toNat % 256 * 2 ^ 32 + (baseAt s b).held)
    (-8796093022 ≤ r → r ≤ 8796093022 →
      exec (.rateCommit a b d) s = .next (answered a (modBase (touch s 8) b (fun k => { k with rateWait := k.rateWait ++ [(r, s.time.c)] })))) ∧
    (r < -8796093022 ∨ 8796093022 < r →
      exec (.rateCommit a b d) s = .next (answered a (modBase (touch s 8) b (fun k =>
        { k with refused := min (k.refused + 1) 255, held := rateWord k.rate % 2 ^ 32 }))))) ∧
  (∀ (s : State) (b : Nat) (r : Int) (c0 : Nat) (rest : List (Int × Nat)), hasBase s b = true → (baseAt s b).rateWait = (r, c0) :: rest → ∃ t, exec (.rateApply b) s = .next t ∧
    t.time.c = max s.time.c (c0 + 2) ∧ (baseAt t b).rate = r ∧ (baseAt t b).rateWait = rest ∧
    baseFine (baseAt t b) (t.time.c - 1) = baseFine (baseAt s b) (t.time.c - 1) ∧
    (b = 0 → hasBase s 1 = true → (baseAt t 1).rate = r ∧ baseFine (baseAt t 1) (t.time.c - 1) = baseFine (baseAt s 1) (t.time.c - 1)) ∧
    (∀ n, n ≠ b → b ≠ 0 ∨ n ≠ 1 → baseAt t n = baseAt s n) ∧
    t = { s with time := { s.time with c := t.time.c, bases := t.time.bases }, ilk := t.ilk }) ∧
  (∀ (s : State) (b : Nat), (baseAt s b).rateWait = [] → exec (.rateApply b) s = .next s)

/-- STEP_GO takes the delta of an armed base, REARM arms it but never TB2 or from a page, and STEP_APPLY adds the delta. -/
def Obligations.StepsNeedArmingAndMoveTheirBase : Prop :=
  (∀ (s : State) (a : Access) (b : Nat), reaches s a 8 → b < 4 → hasBase s b = true →
    exec (.stepGo a b) s = .next (answered a (modBase (touch s 8) b (fun k =>
      if (baseAt s b).armed then { k with armed := false, stepWait := k.stepWait ++ [(stepDelta s b, s.time.c)] } else { k with refused := min (k.refused + 1) 255 })))) ∧
  (∀ (s : State) (a : Access) (b : Nat), reaches s a 8 → b < 4 → hasBase s b = true →
    exec (.rearm a b) s = .next (answered a (modBase (touch s 8) b (fun k =>
      if b = 2 then { k with refused := min (k.refused + 1) 255 } else { k with armed := true, rearmCount := min (k.rearmCount + 1) 255 })))) ∧
  (∀ (s : State) (rid v : Nat), viewReaches s v 8 → tb3ViewNow s = v → hasBase s 3 = true →
    exec (.rearm ⟨.reg rid, v⟩ 3) s = .next (answered ⟨.reg rid, v⟩ (modBase (touch s 8) 3 (fun k => { k with refused := min (k.refused + 1) 255 })))) ∧
  (∀ (s : State) (b : Nat), (baseAt s b).stepWait = [] → exec (.stepApply b) s = .next s) ∧
  (∀ (s : State) (b : Nat) (d : Int) (c0 : Nat) (rest : List (Int × Nat)), b ≠ 0 → hasBase s b = true → (baseAt s b).stepWait = (d, c0) :: rest →
    let c := max s.time.c (c0 + 2)
    let s1 := modBase (advanceTo s (c0 + 2)) b (fun k =>
      { k with off := k.off + d, stepWait := rest, stepCount := min (k.stepCount + 1) 255, lastStep := some c })
    exec (.stepApply b) s = .next s1 ∧
    baseFine (baseAt s1 b) c = (((baseAt s b).off + d + c * (2 ^ 44 + (baseAt s b).rate)) % (fineMod : Int)).toNat) ∧
  (∀ (s : State) (d : Int) (c0 : Nat) (rest : List (Int × Nat)), hasBase s 0 = true → (baseAt s 0).stepWait = (d, c0) :: rest → s.time.grid.st = .waiting →
    exec (.stepApply 0) s = .next (stepOutputs (modBase (advanceTo s (c0 + 2)) 0 (fun k =>
      { k with off := k.off + d, stepWait := rest, stepCount := min (k.stepCount + 1) 255, lastStep := some (max s.time.c (c0 + 2)) }))
      (tb0Ns (advanceTo s (c0 + 2))))) ∧
  (∀ (s : State) (d : Int) (c0 : Nat) (rest : List (Int × Nat)), hasBase s 0 = true → (baseAt s 0).stepWait = (d, c0) :: rest → s.time.grid.st = .running →
    let s1 := modBase (advanceTo s (c0 + 2)) 0 (fun k =>
      { k with off := k.off + d, stepWait := rest, stepCount := min (k.stepCount + 1) 255, lastStep := some (max s.time.c (c0 + 2)) })
    (tb0Tick s1 : Int) < edgeTick s.time.grid (s.time.grid.epoch + 1) → ∃ t, exec (.stepApply 0) s = .next t ∧
    t.time = { (stepOutputs s1 (tb0Ns (advanceTo s (c0 + 2)))).time with
      grid := { s.time.grid with stepped := true, tstep := s.time.grid.tstep || s.time.grid.forming } }) ∧
  (∀ (s : State) (was : Nat), (∀ k ∈ s.time.strobes, k.armed = false) → tb0Ns s / 10 ^ 9 ≤ was / 10 ^ 9 → stepOutputs s was = s)

/-- TIME_NOW_READ latches one instant, an enabled capture edge is stamped or lost, and CAPTURE_FIFO_POP reads and drops the oldest. -/
def Obligations.NowCaptureAndFifo : Prop :=
  (∀ (s : State) (a : Access) (b : Nat), portTakes s a → 6 ≤ s.rst.step → viewOf a = 0 → b < 4 → hasBase s b = true →
    aget s.bus.latches (a.rq, Reg.time (.now b 0)) = none →
    exec (.timeNowRead a b) s = .next (gave a ((nowWords s b).getD 0 0) { s with bus := { s.bus with
      latches := aset (aset (aset s.bus.latches (a.rq, Reg.time (.now b 1)) ((nowWords s b).getD 1 0)) (a.rq, Reg.time (.now b 2)) ((nowWords s b).getD 2 0))
        (a.rq, Reg.time (.now b 3)) ((nowWords s b).getD 3 0) } })) ∧
  (∀ (s : State) (b : Nat), nowWords s b = [baseFine (baseAt s b) s.time.c % 2 ^ 44 / 2 ^ 28, baseNs (baseAt s b) s.time.c % 10 ^ 9,
    baseNs (baseAt s b) s.time.c / 10 ^ 9 % 2 ^ 32, baseNs (baseAt s b) s.time.c / 10 ^ 9 / 2 ^ 32 % 2 ^ 32]) ∧
  (∀ (s : State) (i : Nat), capBase s i = none → exec (.captureInputEdge [i]) s = .next s) ∧
  (∀ (s : State) (i n : Nat), capBase s i = some n → s.time.fifo.length < 64 → ∃ t, exec (.captureInputEdge [i]) s = .next t ∧
    (∃ e, t.time.fifo = s.time.fifo ++ [e] ∧ e.input = i ∧ e.seq = lookupD s.time.seqs i 0 ∧ e.base = n ∧ e.lost = s.time.lostIn.contains i ∧
      e.stamp = stampNs (stampNow s n)) ∧
    t.time.seqs = setKey s.time.seqs i ((lookupD s.time.seqs i 0 + 1) % 65536) ∧
    t = { s with time := { s.time with fifo := t.time.fifo, seqs := t.time.seqs, lostIn := t.time.lostIn } }) ∧
  (∀ (s : State) (i n : Nat), capBase s i = some n → 64 ≤ s.time.fifo.length → ∃ t, exec (.captureInputEdge [i]) s = .next t ∧
    rcGet t .timeCapLost = add32 (rcGet s .timeCapLost) 1 ∧ t.time.fifo = s.time.fifo ∧ t.time.lostIn.contains i = true ∧
    t = { s with rc := t.rc, erc := { s.erc with tally := t.erc.tally }, time := { s.time with seqs := t.time.seqs, lostIn := t.time.lostIn } }) ∧
  (∀ (s : State) (l : List Nat), ∃ t, exec (.captureInputEdge l) s = .next t ∧
    t = { s with rc := t.rc, erc := { s.erc with tally := t.erc.tally },
                 time := { s.time with fifo := t.time.fifo, seqs := t.time.seqs, lostIn := t.time.lostIn } }) ∧
  (∀ (s : State) (a : Access) (e : CapEnt) (rest : List CapEnt), portTakes s a → 6 ≤ s.rst.step → s.time.fifo = e :: rest →
    aget s.bus.latches (a.rq, Reg.time (.cap 0)) = none → ∃ t, exec (.captureFifoPop a) s = .next (gave a ((capWords e).getD 0 0) t) ∧
    t.time.fifo = rest ∧ (∀ k ∈ [1, 2, 3], aget t.bus.latches (a.rq, Reg.time (.cap k)) = some ((capWords e).getD k 0)) ∧
    t = { s with time := { s.time with fifo := rest }, bus := { s.bus with latches := t.bus.latches } }) ∧
  (∀ (s : State) (a : Access), portTakes s a → 6 ≤ s.rst.step → s.time.fifo = [] → aget s.bus.latches (a.rq, Reg.time (.cap 0)) = none →
    exec (.captureFifoPop a) s = .next (gave a 0 s))

/-- A strobe is armed, fires at its time or on the next count, and tim_pps_o marks whole seconds of a stepped TB0. -/
def Obligations.StrobesAndPulsePerSecond : Prop :=
  (∀ (s : State) (a : Access) (n : Nat), reaches s a 8 → n < Config.capInputs s.integ → n < 32 →
    exec (.strobeArm a n) s = .next (answered a { touch s 8 with time := { s.time with
      strobes := s.time.strobes.modify n (fun k => { k with armed := true, late := k.late || decide (strobeAt s n ≤ tb0Ns s) }) } })) ∧
  (∀ (s : State) (n : Nat) (k : Strobe), s.time.strobes[n]? = some k → k.armed = true → ∃ t, exec (.strobeFire n) s = .next t ∧
    t.time.c = (if strobeAt s n ≤ tb0Ns s then s.time.c + 1 else (advanceTb0 s (strobeAt s n)).time.c) ∧
    t.time.strobes = s.time.strobes.set n { k with armed := false, pulse := if s.boot.st = 3 then k.pulse else some t.time.c } ∧
    t = { s with time := { s.time with c := t.time.c, strobes := t.time.strobes } }) ∧
  (∀ (s : State) (n : Nat), (∀ k, s.time.strobes[n]? = some k → k.armed = false) → exec (.strobeFire n) s = .next s) ∧
  (∀ s : State, (baseAt s 0).stepCount ≠ 0 → let sec := if secondNow s && !s.time.ppsHigh then tb0Ns s / 10 ^ 9 else tb0Ns s / 10 ^ 9 + 1
    exec .ppsOutStart s = .next { s with time := { s.time with c := (advanceTb0 s (sec * 10 ^ 9)).time.c, ppsHigh := true, ppsSec := sec } }) ∧
  (∀ s : State, (baseAt s 0).stepCount = 0 → exec .ppsOutStart s = .next s) ∧
  (∀ s : State, secondNow s = true ↔ baseNs (baseAt s 0) (s.time.c - 1) / 10 ^ 9 < tb0Ns s / 10 ^ 9) ∧
  (∀ s : State, s.time.ppsHigh = true → exec .ppsOutEnd s = .next { s with time := { s.time with
    c := (advanceTb0 s (s.time.ppsSec * 10 ^ 9 + 10 ^ 6)).time.c, ppsHigh := false } }) ∧
  (∀ s : State, s.time.ppsHigh = false → exec .ppsOutEnd s = .next s)

/-- EPOCH_STROBE of a RUNNING grid begins the next epoch at its edge and freezes the sample of the one that ends. -/
def Obligations.EpochStrobeBeginsTheNextEpoch : Prop :=
  (∀ s : State, s.time.grid.st = .running → s.time.grid.epoch + 1 < 0xFFFFFFFFFFFF → s.flt.active = false → hasImage s = true →
    ∃ t, exec .epochStrobe s = .next t ∧ t.time.grid.epoch = s.time.grid.epoch + 1 ∧ t.time.grid.st = .running ∧
    (advanceTick s (edgeTick s.time.grid (s.time.grid.epoch + 1))).time.c ≤ t.time.c ∧ t.time.grid.forming = true ∧
    (s.time.grid.forming = true → ∃ p, t.cap.frozen.head? = some p ∧ p.epoch = s.time.grid.epoch ∧
      p.beginAt = edgeStamp s.time.grid s.time.grid.epoch ∧ p.endAt = edgeStamp s.time.grid (s.time.grid.epoch + 1))) ∧
  (∀ s : State, s.time.grid.st = .running → s.time.grid.epoch + 1 < 0xFFFFFFFFFFFF → s.flt.active = true →
    let s1 : State := { s with time := { s.time with
      c := (advanceTick s (edgeTick s.time.grid (s.time.grid.epoch + 1))).time.c,
      grid := { s.time.grid with st := .running, epoch := s.time.grid.epoch + 1, forming := false, tstep := false } } }
    exec .epochStrobe s = .next s1) ∧
  (∀ s : State, s.time.grid.st = .running → s.time.grid.epoch + 1 = 0xFFFFFFFFFFFF → ∃ t, exec .epochStrobe s = .next t ∧
    t.time.grid.st = .exhausted ∧ t.time.grid.epoch = 0xFFFFFFFFFFFF) ∧
  (∀ s : State, s.time.grid.st = .exhausted ∨ s.time.grid.st = .waiting ∧ hasImage s = false → exec .epochStrobe s = .next s)

/-- A sample is taken up one at a time into a vector of one code per feature, and a complete vector takes its slot. -/
def Obligations.SamplesBecomeCodeVectors : Prop :=
  (∀ (s : State) (p : List Nat) (e : Nat) (im : Image) (smp : Sample), asleep s 2 = false → s.feat.cur = none → quiet s = false →
    s.feat.queue.findSome? (fun q => match q with | .epoch x => some x | .event _ _ _ => none) = some e → imageAt s e = some im → sampleOf s e = some smp →
    ∃ t, exec (.epochSampleTakeUp p) s = .next t ∧ (∃ v, t.feat.cur = some v ∧ v.cls = 1 ∧ v.epoch = e ∧ v.codes.length = im.feature.feats.length) ∧
    t.feat.queue = s.feat.queue.filter (fun q => q != FeatIn.epoch e) ∧ t.feat.lastEp = some (e, smp.restart) ∧
    t.cap = s.cap ∧ t.time = s.time ∧ t.red = s.red ∧ t.sealing = s.sealing ∧ t.vrd = s.vrd ∧ t.ilk = s.ilk ∧ t.bus = s.bus ∧ t.rw = s.rw) ∧
  (∀ (s : State) (p : List Nat) (e k : Nat) (v : EvSample) (rest : List FeatIn) (im : Image), asleep s 2 = false → s.feat.cur = none → quiet s = false →
    s.feat.queue = .event e k v :: rest → (∀ x, FeatIn.epoch x ∉ s.feat.queue) → eventSlotsHeld s < eventSlots s → imageAt s e = some im →
    ∃ t, exec (.eventSampleTakeUp p) s = .next t ∧ (∃ w, t.feat.cur = some w ∧ w.cls = (match v with | .step _ => 2 | .ue _ _ _ => 3) ∧ w.key = k ∧ w.epoch = e ∧
      w.codes.length = im.feature.feats.length) ∧ t.feat.queue = rest ∧
    t.cap = s.cap ∧ t.time = s.time ∧ t.red = s.red ∧ t.sealing = s.sealing ∧ t.vrd = s.vrd ∧ t.ilk = s.ilk ∧ t.bus = s.bus ∧ t.rw = s.rw) ∧
  (∀ (s : State) (v : Vec), asleep s 2 = false → s.feat.cur = some v → ∃ t, exec .featureVectorComplete s = .next t ∧ t.feat.cur = none ∧
    t.feat.latest = (if v.cls = 1 then some v else s.feat.latest) ∧ t.feat.queue = s.feat.queue ∧
    t.cap = s.cap ∧ t.time = s.time ∧ t.img = s.img ∧ t.red = s.red ∧ t.sealing = s.sealing ∧ t.vrd = s.vrd ∧ t.ilk = s.ilk ∧ t.bus = s.bus ∧ t.rw = s.rw) ∧
  (∀ (s : State) (p : List Nat), asleep s 2 = false → s.feat.cur ≠ none ∨ quiet s = true →
    exec (.epochSampleTakeUp p) s = .next (settled (touch s 2) (touch s 2)) ∧ exec (.eventSampleTakeUp p) s = .next (settled (touch s 2) (touch s 2)))

/-- NEWT_RECORD_READY forms the record of the oldest frozen epoch whose vector is done. -/
def Obligations.NewtRecordsAreFormedInOrder : Prop :=
  (∀ (s : State) (p : List Nat) (smp : Sample) (im : Image), asleep s 4 = false → asleep s 6 = false → newtDue s = some smp → imageAt s smp.epoch = some im →
    im.role = 1 → quiet s = false → vectorPending s smp.epoch = false → ∃ t r, exec (.newtRecordReady p) s = .next t ∧ t.red.own.head? = some r ∧
    t.red.own.map (·.epoch) = (smp.epoch :: s.red.own.map (·.epoch)).take 9 ∧
    r.epoch = smp.epoch ∧ r.node = im.nodeId ∧ r.h = im.node.h ∧ r.gen = genAt s smp.epoch ∧ r.beginAt = smp.beginAt ∧ r.endAt = smp.endAt ∧
    r.cov.leaves = 1 ∧ r.cov.expect = 1 ∧ r.summary = formsSummary s ∧ r.fields.length = im.schema.fields.length ∧
    t.cap = s.cap ∧ t.sealing = s.sealing ∧ t.bus = s.bus ∧ t.rw = s.rw ∧ t.time = { s.time with c := t.time.c } ∧
    (jobsPending s smp.epoch = false → t.time.c = s.time.c) ∧
    (s.vrd.due = [] → t.red.own = (r :: s.red.own).take 9 ∧ t.img = s.img ∧ t.vrd = s.vrd ∧ t.ilk = s.ilk)) ∧
  (∀ (s : State) (p : List Nat), asleep s 4 = false → newtDue s = none → exec (.newtRecordReady p) s = .next (settled (touch s 4) (touch s 4)))

/-- DETECTOR_PASS judges the oldest epoch due once its evidence is complete, and PEER_GAP_NOTE raises one verdict for a run of gaps. -/
def Obligations.DetectorsJudgeEachEpochOnce : Prop :=
  (∀ (s : State) (d : PassDue) (rest : List PassDue) (im : Image), asleep s 6 = false → s.vrd.due = d :: rest → imageAt s d.epoch = some im → quiet s = false →
    vectorPending s d.epoch = false → im.role = 1 ∨ s.red.own.any (fun r => r.epoch == d.epoch) = true → ∃ t, exec .detectorPass s = .next t ∧
    t.vrd.due = rest ∧ t.time = s.time ∧ t.cap = s.cap ∧ t.sealing = s.sealing ∧ t.rw = s.rw ∧ t.bus = s.bus ∧
    t.red = { s.red with own := t.red.own, unsent := t.red.unsent } ∧
    t.red.own.map (fun r => { r with self := none }) = s.red.own.map (fun r => { r with self := none }) ∧
    t.red.unsent.map (fun r => { r with self := none }) = s.red.unsent.map (fun r => { r with self := none })) ∧
  (∀ s : State, asleep s 6 = false → s.vrd.due = [] → exec .detectorPass s = .next (settled (touch s 6) (touch s 6))) ∧
  (∀ (s : State) (im : Image), asleep s 6 = false → s.img.active = some im → quiet s = false → s.vrd.gapNoted = false → im.detect.peerGap ≤ s.vrd.gapRun →
    ∃ t, exec .peerGapNote s = .next t ∧ t.vrd.gapNoted = true ∧ t.vrd.peerGap = true ∧ t.vrd.seq = (s.vrd.seq + 1) % 2 ^ 32 ∧
    t.freeDraws = s.freeDraws + 3 ∧ rcGet t .vrdRaised = add32 (rcGet s .vrdRaised) 1 ∧
    (s.vrd.queue = [] → ∃ x, t.vrd.queue = [x] ∧ x.v.vseq = (s.vrd.seq + 1) % 2 ^ 32 ∧ x.v.cls = 1 ∧ x.v.det = 0xFFFF ∧ x.v.dkind = 6 ∧ x.v.epoch = epochNow s - 1 ∧
      x.v.subject = selfSubject im ∧ x.v.issuer = im.nodeId + im.node.h * 2 ^ 24 ∧ x.v.score = fofNat f64 s.vrd.gapRun ∧
      x.v.hits = (Config.vrdOpen s.freeDraws).toNat % 256 ∧ x.v.limit = (Config.vrdOpen (s.freeDraws + 1)).toNat ∧
      x.v.value = (Config.vrdOpen (s.freeDraws + 2)).toNat) ∧
    t = { s with pow := t.pow, rc := t.rc, vrd := t.vrd, ilk := t.ilk, erc := t.erc, freeDraws := t.freeDraws }) ∧
  (∀ s : State, s.img.active = none ∨ quiet s = true ∨ s.vrd.gapNoted = true ∨ (∃ im, s.img.active = some im ∧ s.vrd.gapRun < im.detect.peerGap) →
    exec .peerGapNote s = .next (touch s 6))

/-- STRAND_DISPATCH fills a free context of a lane in service with the strand R421 names. -/
def Obligations.StrandsEnterFreeContexts : Prop :=
  (∀ (s : State) (lane ctx k : Nat) (j : Job) (st : Strand), laneIn s lane = true → ctx < 8 → contextBusy s lane ctx = false → quiet s = false → asleep s 3 = false →
    restartOn s lane = none → tierJob s 0 = some (j, k) → jobAt s j.jid = some j → j.strands[k]? = some st → ∃ t j' st', exec (.strandDispatch lane ctx) s = .next t ∧
    jobAt t j.jid = some j' ∧ j'.started = true ∧ j'.strands[k]? = some st' ∧ (st'.st = 1 ∨ st'.st = 2) ∧ st'.lane = lane ∧ st'.ctx = ctx ∧ st'.attempt = st.attempt ∧
    (∀ n, n ≠ j.jid → jobAt t n = jobAt s n) ∧ t = { s with pow := t.pow, leap := t.leap, host := t.host }) ∧
  (∀ (s : State) (lane ctx : Nat), laneIn s lane = false ∨ 8 ≤ ctx ∨ contextBusy s lane ctx = true ∨ quiet s = true →
    exec (.strandDispatch lane ctx) s = .next (touch s 3)) ∧
  (∀ (s : State) (lane ctx : Nat), ∃ t, exec (.strandDispatch lane ctx) s = .next t ∧ t = { s with pow := t.pow, leap := t.leap, host := t.host })

/-- A LEAP whose single matching entry names a pad goes on to it, and one that names a leaf adds its value and takes the next tree. -/
def Obligations.ALeapFollowsTheMatchingEntry : Prop :=
  (∀ (s : State) (x : LeapIssue) (ctx : Nat) (j : Job) (k : Nat) (t0 : Strand) (r : Tree) (m : Nat) (e : Ent), laneIn s x.lane = true → quiet s = false → asleep s 3 = false →
    x.upset = 0 → x.fixed = [] → lookupD s.leap.inj x.lane 0 = 0 → pickCtx s x.lane (issueCycle s [x]) = some ctx → strandIn s x.lane ctx = some (j, k, t0) →
    jobAt s j.jid = some j → (copyAt s j.cid).trees[t0.tree]? = some r → (r.retired = false ∨ t0.pad.isSome) →
    let p := padOf (copyAt s j.cid) t0
    let pad := padEnts (entAt s) p.1 p.2
    let code := codeOfCtx s x.lane ctx j.vec
    parityFails pad code = false → matchesOf pad (decisionVector pad code.vec) = [m] → pad[m]? = some e → payKind e.payload = 0 →
    ∃ u j' st', exec (.leap [x]) s = .next (settled (touch s 3) u) ∧ jobAt u j.jid = some j' ∧ j'.leaps = j.leaps + 1 ∧ j'.strands[k]? = some st' ∧
      st'.pad = some (paySize e.payload, payValue e.payload % 2 ^ 18) ∧ st'.leaps = t0.leaps + 1 ∧ st'.tree = t0.tree ∧ st'.st = t0.st ∧ st'.parts = t0.parts ∧
      s.time.c ≤ u.time.c ∧ u = { touch s 3 with time := { s.time with c := u.time.c }, leap := u.leap }) ∧
  (∀ (s : State) (x : LeapIssue) (ctx : Nat) (j : Job) (k : Nat) (t0 : Strand) (m : Nat) (e : Ent) (r next : Tree), laneIn s x.lane = true → quiet s = false → asleep s 3 = false →
    x.upset = 0 → x.fixed = [] → lookupD s.leap.inj x.lane 0 = 0 → pickCtx s x.lane (issueCycle s [x]) = some ctx → strandIn s x.lane ctx = some (j, k, t0) →
    jobAt s j.jid = some j →
    let c := copyAt s j.cid
    let p := padOf c t0
    let pad := padEnts (entAt s) p.1 p.2
    let code := codeOfCtx s x.lane ctx j.vec
    c.trees[t0.tree]? = some r → (r.retired = false ∨ t0.pad.isSome) → c.trees[t0.tree + 8]? = some next → next.retired = false →
    parityFails pad code = false → matchesOf pad (decisionVector pad code.vec) = [m] → pad[m]? = some e → payKind e.payload ≠ 0 →
    ∃ u j' st', exec (.leap [x]) s = .next (settled (touch s 3) u) ∧ jobAt u j.jid = some j' ∧ j'.leaps = j.leaps + 1 ∧ j'.strands[k]? = some st' ∧
      st'.pad = none ∧ st'.tree = t0.tree + 8 ∧ st'.leaps = t0.leaps + 1 ∧ st'.st = t0.st ∧
      st'.parts = t0.parts.modify r.out (fun v => fadd f32 v (payValue e.payload)) ∧
      s.time.c ≤ u.time.c ∧ u = { touch s 3 with time := { s.time with c := u.time.c }, leap := u.leap }) ∧
  (∀ (s : State) (l : List LeapIssue), quiet s = true → asleep s 3 = false → exec (.leap l) s = .next (settled (touch s 3) (touch s 3)))

/-- JOB_COMPLETE ends a job whose eight strands are complete, with the head's outputs over the sums of its strands. -/
def Obligations.JobsEndWithTheirOutputs : Prop :=
  (∀ (s : State) (j : Job), jobAt s j.jid = some j → jobLive j = true → j.cid ≠ 0 → j.strands.all (fun t => t.st == 2) = true → quiet s = false → asleep s 3 = false →
    let y := headOut (copyAt s j.cid) (accumulate (copyAt s j.cid) j)
    ∃ u, exec (.jobComplete j.jid) s = .next (settled (touch s 3) u) ∧
      (j.host = true → jobAt u j.jid = some { j with status := some 0, y := y } ∧ rcGet u .leapFailed = rcGet s .leapFailed) ∧
      (j.host = false → jobAt u j.jid = none ∧ (j.vec.cls = 1 → (∀ r ∈ s.leap.scores, r.model = j.model → r.epoch ≤ j.vec.epoch) →
        (∀ i ∈ s.leap.jobs, i.host = false → i.model = j.model → i.vec.epoch ≤ j.vec.epoch) → u.leap.scores.head? = some ⟨j.model, j.vec.epoch, 0, y⟩)) ∧
      (∀ n, n ≠ j.jid → jobAt u n = jobAt s n) ∧
      u = { touch s 3 with leap := u.leap, erc := { s.erc with tally := u.erc.tally }, feat := { s.feat with slots := u.feat.slots } }) ∧
  (∀ (s : State) (jid : Nat), asleep s 3 = false →
    jobAt s jid = none ∨ quiet s = true ∨ (∃ j, jobAt s jid = some j ∧ (jobLive j = false ∨ j.cid = 0 ∨ j.strands.any (fun t => t.st != 2) = true)) →
    exec (.jobComplete jid) s = .next (settled (touch s 3) (touch s 3)))

/-- Scrub visits entries and rewrites corrected ones, injection arms one lane, and LANE_ENABLE_WRITE sets the lanes in service. -/
def Obligations.LeapScrubAndInjection : Prop :=
  (∀ (s : State) (i : Nat), i < s.integ.cam → quiet s = false → asleep s 3 = false →
    (∃ u, exec (.leapScrubRead i 0) s = .next (settled (touch s 3) u) ∧ u.leap.scrubN = (if s.integ.cam ≤ s.leap.scrubN + 1 then 0 else s.leap.scrubN + 1) ∧
      u = { touch s 3 with leap := { s.leap with scrubN := u.leap.scrubN, scrubAt := u.leap.scrubAt, scrubLate := u.leap.scrubLate } }) ∧
    (∃ u, exec (.leapScrubRead i 1) s = .next (settled (touch s 3) u) ∧ rcGet u .leapScrubCe = add32 (rcGet s .leapScrubCe) 1 ∧ u.leap.fixes.contains i = true ∧
      u = { touch s 3 with
        rc := u.rc, erc := { s.erc with tally := u.erc.tally },
        leap := { s.leap with scrubN := u.leap.scrubN, scrubAt := u.leap.scrubAt, scrubLate := u.leap.scrubLate, fixes := u.leap.fixes } })) ∧
  (∀ (s : State) (i n : Nat), asleep s 3 = false → s.integ.cam ≤ i ∨ quiet s = true →
    exec (.leapScrubRead i n) s = .next (settled (touch s 3) (touch s 3))) ∧
  (∀ (s : State) (i : Nat), asleep s 3 = false → exec (.leapScrubWriteback i) s = .next { touch s 3 with leap := { s.leap with fixes := s.leap.fixes.filter (· != i) } }) ∧
  (∀ (s : State) (a : Access) (d : Word), reaches s a 3 →
    let lane := d.toNat / 65536 % 16
    let kind := d.toNat % 8
    exec (.leapInject a d) s = .next (answered a (if 1 ≤ kind ∧ kind ≤ 6 ∧ lane < s.integ.lanes then
      { touch s 3 with leap := { s.leap with inj := setKey s.leap.inj lane kind } } else touch s 3))) ∧
  (∀ (s : State) (a : Access) (d : Word), reaches s a 3 → ∃ u,
    exec (.laneEnableWrite a d) s = .next (answered a (pumpRuns (leapSettle (touch s 3) u))) ∧ u.leap.laneEn = d.toNat % 65536 % 2 ^ s.integ.lanes ∧
    u.leap.copies = s.leap.copies ∧ u.leap.models = s.leap.models ∧ u.leap.ents = s.leap.ents ∧
    ((s.leap.jobs.map (·.jid)).Nodup → d.toNat % 65536 % 2 ^ s.integ.lanes = 0 → ∀ j ∈ u.leap.jobs, jobLive j = false))

/-- LOAD, EVICT, PIN, UNPIN and REPAIR act on the model number or bundle that LEAP's registers name. -/
def Obligations.HotSetCommands : Prop :=
  (∀ (s : State) (a : Access), reaches s a 3 → rwGet s .leapHotSel < Config.models s.integ →
    let n := rwGet s .leapHotSel
    exec (.pin a) s = .next (answered a (modModel (touch s 3) n (fun m => { m with hpin := true }))) ∧
    exec (.unpin a) s = .next (answered a (leapSettle (touch s 3) (modModel (touch s 3) n (fun m => { m with hpin := false }))))) ∧
  (∀ (s : State) (a : Access), reaches s a 3 → Config.models s.integ ≤ rwGet s .leapHotSel →
    exec (.pin a) s = .next (answered a (touch s 3)) ∧ exec (.unpin a) s = .next (answered a (leapSettle (touch s 3) (touch s 3)))) ∧
  (∀ (s : State) (a : Access) (n : Nat), reaches s a 3 → bundleNumber s (rwGet s .leapHotArg) = some n → ∃ u,
    exec (.load a) s = .next (answered a (leapSettle (touch s 3) u)) ∧ (modelAt u n).used = s.leap.useSeq + 1 ∧ u.leap.useSeq = s.leap.useSeq + 1 ∧
    u = { touch s 3 with leap := { s.leap with useSeq := u.leap.useSeq, models := u.leap.models } }) ∧
  (∀ (s : State) (a : Access) (n : Nat), reaches s a 3 → bundleNumber s (rwGet s .leapHotArg) = none → demanded s (rwGet s .leapHotArg) = false → s.rst.keyState = 1 →
    rwGet s .leapBundleCount ≠ 0 → emptyNumber s = some n → (modelAt s n).serving = none →
    (∀ y ∈ s.leap.loads, y.lid ≤ s.leap.loadSeq) → ∃ u x, exec (.load a) s = .next (answered a (leapSettle (touch s 3) u)) ∧ u.leap.loads = s.leap.loads ++ [x] ∧ x.bundle = rwGet s .leapHotArg ∧
      x.model = some n ∧ x.phase = .table ∧ x.demand = false ∧ (modelAt u n).st = 1 ∧ (modelAt u n).bundle = rwGet s .leapHotArg ∧
      (modelAt u n).used = s.leap.useSeq + 1 ∧
      ∃ j ∈ u.mm.jobs, j.owner = .bundleTable x.lid ∧ j.write = false ∧ j.addr = pairBase s .leapBundleBase ∧ j.len = 16 * rwGet s .leapBundleCount) ∧
  (∀ (s : State) (a : Access), reaches s a 3 → tablePinned s (rwGet s .leapHotSel) = true →
    exec (.evict a) s = .next (answered a (pumpRuns (leapSettle (touch s 3) { touch s 3 with leap := { s.leap with cmdRefused := true } })))) ∧
  (∀ (s : State) (a : Access), reaches s a 3 → tablePinned s (rwGet s .leapHotSel) = false →
    (modelAt s (rwGet s .leapHotSel)).st ≠ 0 → (modelAt s (rwGet s .leapHotSel)).st ≠ 7 → ∃ u,
    exec (.evict a) s = .next (answered a (pumpRuns (leapSettle (touch s 3) (loadPump u)))) ∧ (modelAt u (rwGet s .leapHotSel)).st = 7 ∧
    (modelAt u (rwGet s .leapHotSel)).next = none ∧ rcGet u .leapHotEvict = add32 (rcGet s .leapHotEvict) 1) ∧
  (∀ (s : State) (a : Access), reaches s a 3 → (modelAt s (rwGet s .leapHotSel)).st ≠ 5 →
    exec (.repair a) s = .next (answered a (leapSettle (touch s 3) { touch s 3 with leap := { s.leap with cmdRefused := true } }))) ∧
  (∀ (s : State) (a : Access) (x : Shadow), reaches s a 3 →
    let n := rwGet s .leapHotSel
    (modelAt s n).st = 5 → shadowOf s n (modelAt s n) = some x →
    s.leap.loads.any (fun l => l.model == some n) = false → ∃ u y,
    exec (.repair a) s = .next (answered a (leapSettle (touch s 3) (loadPump u))) ∧ u.leap.loads = s.leap.loads ++ [y] ∧ y.model = some n ∧
      y.bundle = (modelAt s n).bundle ∧ y.repair = true ∧ y.phase = .region ∧ y.data = x.data) ∧
  (∀ (s : State) (a : Access), reaches s a 3 → (modelAt s (rwGet s .leapHotSel)).st = 5 →
    s.leap.loads.any (fun l => l.model == some (rwGet s .leapHotSel)) = true →
    exec (.repair a) s = .next (answered a (leapSettle (touch s 3) (modModel (touch s 3) (rwGet s .leapHotSel) (fun m => { m with repairDue := true })))))

/-- A fetched bundle is verified, a verified one leaves its shadow and waits for a region, and an installed one serves. -/
def Obligations.BundlesAreVerifiedBeforeTheyServe : Prop :=
  (∀ (s : State) (x : Load) (n : Nat), s.leap.loads.find? (fun y => y.phase == .fetched) = some x → x.model = some n → ∃ u,
    exec .bundleFetchDone s = .next (settled s u) ∧ (modelAt u n).st = (if (modelAt s n).st = 1 then 2 else (modelAt s n).st) ∧
    u.leap.loads = s.leap.loads.map (fun y => if y.lid == x.lid then { y with phase := .verify } else y) ∧
    u = { s with leap := { s.leap with loads := u.leap.loads, models := u.leap.models } }) ∧
  (∀ s : State, (∀ y ∈ s.leap.loads, y.phase ≠ .fetched) → exec .bundleFetchDone s = .next (settled s s)) ∧
  (∀ (s : State) (x : Load) (n : Nat), s.leap.loads.find? (fun y => y.phase == .verify) = some x → x.model = some n → asleep s 3 = false → ∃ u,
    exec .bundleVerifyDone s = .next (settled (touch s 3) (loadPump u)) ∧
    match bundleBad s.integ s.rst.key (governing s x) x.cls x.bundle x.len x.data with
    | some c => u.leap.refCode = c ∧ u.leap.refModel = n ∧ u.leap.refBundle = x.bundle ∧
        rcGet u .leapLoadRefused = add32 (rcGet s .leapLoadRefused) 1 ∧ (∀ y ∈ u.leap.loads, y.lid = x.lid → y.isFb = true)
    | none => u.leap.shadows = s.leap.shadows ++ [⟨x.bundle, some n, x.data⟩] ∧
        u.leap.loads = s.leap.loads.map (fun y => if y.lid == x.lid then { y with phase := .region } else y) ∧
        u = { touch s 3 with leap := { s.leap with loads := u.leap.loads, shadows := u.leap.shadows } }) ∧
  (∀ s : State, asleep s 3 = false → (∀ y ∈ s.leap.loads, y.phase ≠ .verify) → exec .bundleVerifyDone s = .next (settled (touch s 3) (touch s 3))) ∧
  (∀ (s : State) (x : Load) (cid : Nat), s.leap.loads.find? (fun y => y.phase == .install) = some x → x.copy = some cid →
    (modelAt s (copyAt s cid).model).serving = none → (modelAt s (copyAt s cid).model).atEdge = false → (modelAt s (copyAt s cid).model).st ≠ 7 →
    x.staged = false → asleep s 3 = false → s.leap.copies.any (fun c => c.cid == cid) = true → ∃ u,
    exec (.installDone none) s = .next (settled (touch s 3) (loadPump u)) ∧ (modelAt u (copyAt s cid).model).st = 4 ∧
    (modelAt u (copyAt s cid).model).serving = some cid ∧ (modelAt u (copyAt s cid).model).bundle = (copyAt s cid).bundle ∧
    u.leap.loads = s.leap.loads.filter (fun y => y.lid != x.lid) ∧ (copyAt u cid).done = true ∧
    (copyAt u cid).trees = (List.range (bunTrees x.data)).map (fun t =>
      { bunTree x.data t with base := (bunTree x.data t).base + (copyAt s cid).origin, retired := false })) ∧
  (∀ (s : State) (x : Load) (cid i : Nat), s.leap.loads.find? (fun y => y.phase == .install) = some x → x.copy = some cid → asleep s 3 = false → s.leap.copies.any (fun c => c.cid == cid) = true → ∃ u,
    exec (.installDone (some i)) s = .next (settled (touch s 3) (loadPump u)) ∧ rcGet u .leapInstallBad = add32 (rcGet s .leapInstallBad) 1 ∧
    u.leap.quar.contains (((copyAt s cid).origin + i) / 1024) = true ∧ u.leap.copies = s.leap.copies.filter (fun y => y.cid != cid)) ∧
  (∀ (s : State) (b : Option Nat), asleep s 3 = false → (∀ y ∈ s.leap.loads, y.phase ≠ .install) →
    exec (.installDone b) s = .next (settled (touch s 3) (touch s 3)))

/-- A first segment opens a reassembly, the next in order continues it, the last completes it, and one out of order ends it. -/
def Obligations.SegmentsMakeRecords : Prop :=
  (∀ (s : State) (p : Nat) (b : Bytes) (down : Bool), rxClosed s p = false → mmQuiet s = false → frameFails s p false b = none → s.mir.sync ≠ 1 →
    let f := frameAt b
    let n := cellsOf (4 * f.len)
    let idx := f.seg / 2 ^ 20
    let last := f.seg / 2 ^ 8 % 2 ^ 12
    let seq := f.seg % 2 ^ 8
    let k := portAt s p
    f.ty = (if down then tyDown else tyRecord) →
    (reassOf k down = none → idx = 0 → last ≠ 0 →
      exec (.recordSegmentReceive p b) s = .next (modPort s p (fun k => setReass { k with used := k.used + n } down (some ⟨f.tag, f.gen, seq, last, 1, f.payload, n⟩)))) ∧
    (reassOf k down = none → idx = 0 → last = 0 → ∃ u, exec (.recordSegmentReceive p b) s = .next u ∧
      (if down then (portAt u p).rxDown = k.rxDown ++ [⟨f.tag, f.payload, n⟩] ∧ (portAt u p).rxUp = k.rxUp
        else (portAt u p).rxUp = k.rxUp ++ [⟨f.tag, f.payload, n⟩] ∧ (portAt u p).rxDown = k.rxDown) ∧ (portAt u p).used = k.used + n ∧ u = { s with ilk := u.ilk }) ∧
    (∀ r, reassOf k down = some r → idx = r.next → seq = r.seq → last = r.last → idx ≠ last →
      exec (.recordSegmentReceive p b) s = .next (modPort s p (fun k => setReass { k with used := k.used + n } down
        (some { r with next := idx + 1, data := r.data ++ f.payload, cells := r.cells + n })))) ∧
    (∀ r, reassOf k down = some r → idx = r.next → seq = r.seq → last = r.last → idx = last → ∃ u, exec (.recordSegmentReceive p b) s = .next u ∧
      reassOf (portAt u p) down = none ∧
      (if down then (portAt u p).rxDown = k.rxDown ++ [⟨r.tag, r.data ++ f.payload, r.cells + n⟩] else (portAt u p).rxUp = k.rxUp ++ [⟨r.tag, r.data ++ f.payload, r.cells + n⟩]) ∧
      (∀ q, q ≠ p → portAt u q = portAt s q) ∧ u = { s with ilk := u.ilk }) ∧
    (∀ r, reassOf k down = some r → ¬ (idx = r.next ∧ seq = r.seq ∧ last = r.last) → idx ≠ 0 → ∃ u, exec (.recordSegmentReceive p b) s = .next u ∧
      reassOf (portAt u p) down = none ∧ rcGet u (.ilk p .segBad) = add32 (rcGet s (.ilk p .segBad)) 1 ∧ (portAt u p).rxUp = k.rxUp ∧ (portAt u p).rxDown = k.rxDown ∧
      (∀ q, q ≠ p → portAt u q = portAt s q) ∧ u = { s with rc := u.rc, ilk := u.ilk, erc := u.erc }) ∧
    (reassOf k down = none → idx ≠ 0 → ∃ u, exec (.recordSegmentReceive p b) s = .next u ∧
      reassOf (portAt u p) down = none ∧ rcGet u (.ilk p .segBad) = add32 (rcGet s (.ilk p .segBad)) 1 ∧ u = { s with rc := u.rc, ilk := u.ilk, erc := u.erc })) ∧
  (∀ (s : State) (p : Nat) (b : Bytes) (c : IlkCnt), rxClosed s p = false → frameFails s p false b = some c → s.mir.sync ≠ 1 →
    exec (.recordSegmentReceive p b) s = .next (rcInc s (.ilk p c))) ∧
  (∀ (s : State) (p : Nat) (b : Bytes), rxClosed s p = false → mmQuiet s = false → frameFails s p false b = none → s.mir.sync = 1 → kindOfPort s p = 4 → (portAt s p).reUp = none →
    (frameAt b).ty = tyRecord → (frameAt b).seg / 2 ^ 20 = 0 → (frameAt b).seg / 2 ^ 8 % 2 ^ 12 ≠ 0 → mirKind (frameAt b).payload = 3 →
    ∃ u, exec (.recordSegmentReceive p b) s = .next u ∧ u.mir = { s.mir with sync := 2 } ∧ u = { s with ilk := u.ilk, mir := u.mir }) ∧
  (∀ (s : State) (p : Nat) (e : Bool) (b : Bytes) (c : IlkCnt), rxClosed s p = false → frameFails s p e b = some c →
    exec (.receivedFrameDrop p e b) s = .next (rcInc s (.ilk p c))) ∧
  (∀ (s : State) (p : Nat) (e : Bool) (b : Bytes), rxClosed s p = true ∨ frameFails s p e b = none → exec (.receivedFrameDrop p e b) s = .next s)

/-- A completed record is checked in the order of R295; the first failed check counts and drops it, and a child's accepted record joins its epoch. -/
def Obligations.RecordsAreCheckedThenMergedOrDropped : Prop :=
  (∀ (s : State) (p : Nat) (r : RxRec) (rest : List RxRec), (portAt s p).rxUp = r :: rest → quiet s = false → kindOfPort s p ≠ 4 → asleep s 4 = false → asleep s 5 = false →
    (∀ w, lowestOpen s = some w → w.x < s.time.grid.epoch → (tb0Tick s : Int) < sealDeadline s w.x) →
    (rcrcOk r.data = false → ∃ u, exec (.recordReceive p) s = .next (safeCheck (sealEarly 16 u)) ∧ rcGet u .redCrcBad = add32 (rcGet s .redCrcBad) 1 ∧
      (portAt u p).rxUp = rest ∧ u = { s with pow := u.pow, rc := u.rc, ilk := u.ilk, erc := u.erc }) ∧
    (rcrcOk r.data = true → tagEpoch s r.tag = none → ∃ u, exec (.recordReceive p) s = .next (safeCheck (sealEarly 16 u)) ∧
      rcGet u .sealStaleDrop = add32 (rcGet s .sealStaleDrop) 1 ∧ (portAt u p).rxUp = rest ∧ u = { s with pow := u.pow, rc := u.rc, ilk := u.ilk, erc := u.erc }) ∧
    (∀ x, rcrcOk r.data = true → tagEpoch s r.tag = some x → recEpoch r.data ≠ x → ∃ u, exec (.recordReceive p) s = .next (safeCheck (sealEarly 16 u)) ∧
      rcGet u .sealTagBad = add32 (rcGet s .sealTagBad) 1 ∧ (portAt u p).rxUp = rest ∧ u = { s with pow := u.pow, rc := u.rc, ilk := u.ilk, erc := u.erc }) ∧
    (∀ x, rcrcOk r.data = true → tagEpoch s r.tag = some x → recEpoch r.data = x → recGen r.data ≠ genAt s x → ∃ u,
      exec (.recordReceive p) s = .next (safeCheck (sealEarly 16 u)) ∧ rcGet u .sealGenDrop = add32 (rcGet s .sealGenDrop) 1 ∧ (portAt u p).rxUp = rest ∧
      u = { s with pow := u.pow, rc := u.rc, ilk := u.ilk, erc := u.erc }) ∧
    (∀ (x : Nat) (im : Image) (rec : Record) (c : ChildEnt), rcrcOk r.data = true → tagEpoch s r.tag = some x → recEpoch r.data = x → recGen r.data = genAt s x →
      imageAt s x = some im → recSchema r.data = im.schema.schema → recordAt (r.data.take (recLength r.data)) = some rec → byteAt r.data 4 = 1 →
      recordFits im rec = true → recordResOk rec = true → rec.resent = false → childNode im.topo rec.node = some c → c.standby = false → rec.epoch = x → rec.late = [] →
      (workAt s x).senders.contains rec.node = false → sealedAt s x = false → ∃ u, exec (.recordReceive p) s = .next (safeCheck (sealEarly 16 u)) ∧
      (workAt u x).senders = (workAt s x).senders ++ [rec.node] ∧ (workAt u x).covs = (workAt s x).covs ++ [(rec.node, rec.cov)] ∧
      (workAt u x).inputs = (workAt s x).inputs ++ [⟨nextOrd (workAt s x), p, rec.node, false, false, rec⟩] ∧
      lookup u.sealing.expects rec.node = some rec.cov.expect ∧ (portAt u p).rxUp = rest ∧ (portAt u p).used = (portAt s p).used - r.cells ∧
      (∀ q, q ≠ .redPairOvf → rcGet u q = rcGet s q) ∧
      u = { s with pow := u.pow, rc := u.rc, sealing := u.sealing, ilk := u.ilk, erc := { s.erc with tally := u.erc.tally } })) ∧
  (∀ (s : State) (p : Nat), asleep s 4 = false → asleep s 5 = false → (portAt s p).rxUp = [] ∨ quiet s = true ∨ kindOfPort s p = 4 →
    exec (.recordReceive p) s = .next (safeCheck (touch (touch s 4) 5)))

/-- SEAL seals the lowest open epoch at its deadline and forms its record; MERGED_RECORD_READY keeps it; CHILD_RECORD_RELEASE lets inputs go. -/
def Obligations.TheSealFormsTheMergedRecord : Prop :=
  (∀ (s : State) (fs : List MergeFault) (w : EpochWork) (im : Image), lowestOpen s = some w → quiet s = false → asleep s 5 = false → w.x < s.time.grid.epoch → imageAt s w.x = some im →
    ∃ u, exec (.seal fs) s = .next (safeCheck (sealEarly 16 u)) ∧ u.time = (advanceTick s (sealDeadline s w.x)).time ∧ (workAt u w.x).isSealed = true ∧
      (workAt u w.x).sealIn = s.time.grid.epoch ∧ u.sealing.top = some w.x ∧ (silentFor s w.x = true → u.sealing.ready = s.sealing.ready) ∧
      (silentFor s w.x = false → ∃ r, u.sealing.ready = s.sealing.ready ++ [(r, r.fields)] ∧ r.epoch = w.x ∧ r.node = im.nodeId ∧ r.h = im.node.h ∧
        r.gen = genAt s w.x ∧ r.schema = im.schema.schema ∧ r.summary = false ∧ r.cov.early = false ∧ r.fields.length = im.schema.fields.length ∧ r.late.length ≤ 8) ∧
      u = { s with pow := u.pow, rst := u.rst, mm := u.mm, rc := u.rc, time := u.time, sealing := u.sealing, erc := u.erc, cmp := u.cmp, flt := u.flt, boot := u.boot }) ∧
  (∀ (s : State) (fs : List MergeFault), asleep s 5 = false → quiet s = true ∨ lowestOpen s = none ∨ (∃ w, lowestOpen s = some w ∧ s.time.grid.epoch ≤ w.x) →
    exec (.seal fs) s = .next (safeCheck (touch s 5))) ∧
  (∀ (s : State) (r : Record) (fs : List Field) (rest : List (Record × List Field)) (im : Image), s.sealing.ready = (r, fs) :: rest → quiet s = false → asleep s 4 = false →
    imageAt s r.epoch = some im → ∃ u, exec .mergedRecordReady s = .next (settled (touch s 4) u) ∧ u.sealing.ready = rest ∧ u.sealing.merged.head? = some (r.epoch, fs) ∧
      (∃ o, u.red.own = (o :: s.red.own).take 9 ∧ o.epoch = r.epoch ∧ o.node = r.node ∧ o.gen = r.gen ∧ o.cov = r.cov ∧ o.self = selfOf s im r.epoch) ∧
      (im.role = 3 → u.red.downs.head? = some (downOf im r fs) ∧ (u.sealing.snapNext = s.sealing.snapNext + 1 ∨ u.sealing.skipped = true)) ∧
      (im.role ≠ 3 → u.red.downs = s.red.downs ∧ u.sealing.snapNext = s.sealing.snapNext) ∧
      u = { s with pow := u.pow, mm := u.mm, rc := u.rc, feat := u.feat, red := u.red, sealing := u.sealing, ilk := u.ilk, host := u.host, erc := u.erc }) ∧
  (∀ s : State, asleep s 4 = false → s.sealing.ready = [] ∨ quiet s = true → exec .mergedRecordReady s = .next (settled (touch s 4) (touch s 4))) ∧
  (∀ s : State, asleep s 5 = false → exec .childRecordRelease s = .next { touch s 5 with sealing := { s.sealing with works := s.sealing.works.map (fun w =>
    if w.isSealed ∧ w.sealIn + 2 ≤ s.time.grid.epoch then { w with inputs := [], resends := [], groups := [], released := true } else w) } })

/-- A DOWN record is accepted once, forwarded and held; a missing one is asked for; a resend request is served from what is held. -/
def Obligations.DownRecordsAreKeptOnceAndResent : Prop :=
  (∀ (s : State) (p : Nat) (r : RxRec) (rest : List RxRec), (portAt s p).rxDown = r :: rest → quiet s = false → asleep s 4 = false →
    (∀ x, rcrcOk r.data = true → tagEpoch s r.tag = some x → recEpoch r.data = x → recGen r.data = genAt s x → byteAt r.data 4 = 2 →
      128 + 64 * beAt r.data 0x14 2 ≤ recLength r.data → s.red.downs.any (fun d => d.epoch == x) = false → ∃ u, exec (.downReceive p) s = .next u ∧
      u.red.downs = (downAt (r.data.take (recLength r.data)) :: s.red.downs).take 16 ∧ (portAt u p).rxDown = rest ∧
      (roleOf s ≠ 1 → ∀ q ∈ downlinks (topoOf s), (portAt u q).recs.any (fun k => k.row == 5 && k.epoch == x && k.data == r.data.take (recLength r.data)) = true) ∧
      u = { touch s 4 with red := u.red, ilk := { s.ilk with ports := u.ilk.ports } }) ∧
    (∀ x, rcrcOk r.data = true → tagEpoch s r.tag = some x → recEpoch r.data = x → recGen r.data = genAt s x → byteAt r.data 4 = 2 →
      128 + 64 * beAt r.data 0x14 2 ≤ recLength r.data → s.red.downs.any (fun d => d.epoch == x) = true → ∃ u, exec (.downReceive p) s = .next u ∧
      (portAt u p).rxDown = rest ∧ u = { touch s 4 with ilk := { s.ilk with ports := u.ilk.ports } }) ∧
    (rcrcOk r.data = false → ∃ u, exec (.downReceive p) s = .next u ∧ rcGet u .redCrcBad = add32 (rcGet s .redCrcBad) 1 ∧ (portAt u p).rxDown = rest ∧
      u = { touch s 4 with rc := u.rc, ilk := { s.ilk with ports := u.ilk.ports }, erc := u.erc })) ∧
  (∀ (s : State) (p : Nat), asleep s 4 = false → (portAt s p).rxDown = [] ∨ quiet s = true → exec (.downReceive p) s = .next (touch s 4)) ∧
  (∀ (s : State) (im : Image) (x q : Nat), gridRuns s = true → mmQuiet s = false → s.img.active = some im → im.role ≠ 3 → needsDown im = true →
    x + 1 = s.time.grid.epoch → (∀ y, y < x → s.red.downs.any (fun d => d.epoch == y) = true ∨ downWait s y < tb0Tick s) → s.red.downs.any (fun d => d.epoch == x) = false →
    activeUplink s = some q → (entOfPort s q).isSome = true → (aget (portAt s q).asked (x, 2)).getD 0 < 2 → ∃ u, exec .downMissingTimeout s = .next u ∧
      u.time = (advanceTick s (downWait s x)).time ∧ (portAt u q).queue = (portAt s q).queue ++ [⟨2, 2, tyResend, none, 0, toBe 8 x ++ toBe 1 2 ++ zeros 7, none⟩] ∧
      rcGet u (.ilk q .resendReq) = add32 (rcGet s (.ilk q .resendReq)) 1 ∧ u = { s with rc := u.rc, time := u.time, ilk := u.ilk, erc := u.erc }) ∧
  (∀ s : State, gridRuns s = false ∨ mmQuiet s = true ∨ s.time.grid.epoch = 0 ∨ roleOf s = 3 ∨ s.img.active.any needsDown = false →
    exec .downMissingTimeout s = .next s) ∧
  (∀ (s : State) (p : Nat) (b : Bytes), rxClosed s p = false → mmQuiet s = false → frameFails s p false b = none → (frameAt b).ty = tyResend →
    let x := beAt (frameAt b).payload 0 8 % 2 ^ 48
    let down := byteAt (frameAt b).payload 8 == 2
    let hs := s.ilk.held.filter (fun h => decide (s.time.grid.epoch ≤ h.epoch + 8) && (h.down == down && h.epoch == x))
    (hs ≠ [] → ∃ u, exec (.resendReqReceive p b) s = .next u ∧
      (portAt u p).recs = hs.foldl (fun l h => insertBy (fun r => r.epoch) ⟨if down then 5 else 6, x, h.gen, false, h.data, 0, none⟩ l) (portAt s p).recs ∧
      (portAt u p).queue = (portAt s p).queue ∧ (∀ q, q ≠ p → portAt u q = portAt s q) ∧ u = { s with ilk := { s.ilk with ports := u.ilk.ports } }) ∧
    (hs = [] →
      ∃ u, exec (.resendReqReceive p b) s = .next u ∧ rcGet u (.ilk p .resendMiss) = add32 (rcGet s (.ilk p .resendMiss)) 1 ∧ (portAt u p).recs = (portAt s p).recs ∧
      u = { s with rc := u.rc, ilk := u.ilk, erc := u.erc })) ∧
  (∀ (s : State) (p : Nat),
    let l := (s.img.active.map (·.node.lPeer)).getD 0
    let gone := fun (r : TxRec) => r.row == 5 && r.next == 0 && gridRuns s && decide (r.epoch + l < s.time.grid.epoch)
    ∃ u, exec (.downExpired p) s = .next u ∧ (portAt u p).recs = (portAt s p).recs.filter (fun r => !gone r) ∧
      (∀ r ∈ (portAt s p).recs, gone r = true → rcGet u (.ilk p .downExpired) = add32 (rcGet s (.ilk p .downExpired)) ((portAt s p).recs.filter gone).length) ∧
      (∀ q, q ≠ p → portAt u q = portAt s q) ∧ u = { s with rc := u.rc, ilk := u.ilk, erc := u.erc }) ∧
  (∀ s : State, exec .heldCopyExpiry s = .next { s with ilk := { s.ilk with held := s.ilk.held.filter (fun h => decide (s.time.grid.epoch ≤ h.epoch + 8)) } })

/-- Heartbeats leave with the next sequence number; one that names the peer raises a probing port; misses, a silent peer or the pin lose it. -/
def Obligations.HeartbeatsRaiseAndLoseAPort : Prop :=
  (∀ (s : State) (p : Nat) (e : PortEnt), entOfPort s p = some e → mmQuiet s = false → (portAt s p).linkUp = true →
    let k := portAt s p
    let now : Int := (tb0Tick s : Int)
    let due := if k.hbDue then now else max now (afterOpen s p ((k.hbTx * 1024 : Nat) : Int) (2000 * 1024))
    let c : Int := ((txComp s p * 1024 : Nat) : Int)
    let t := advanceTick s (nextAdmit s p e (due + c) - c)
    ∃ u, exec (.heartbeatSend p) s = .next u ∧ u.time = t.time ∧ (portAt u p).hbSeq = (k.hbSeq + 1) % 2 ^ 32 ∧ (portAt u p).hbDue = false ∧
      (portAt u p).pfTx = false ∧ (portAt u p).hbTx = tb0Ns t ∧ (portAt u p).sent = k.sent ∧
      (portAt u p).lastTx = frameBytes (departFrame t p ⟨tyHeart, epochNow s, flag k.pfTx + 2 * flag (s.pnl.dep != 0), 0, heartPayload t e⟩) ∧
      (∀ q, q ≠ p → portAt u q = portAt s q) ∧ u = { s with time := u.time, ilk := u.ilk }) ∧
  (∀ (s : State) (p : Nat), entOfPort s p = none ∨ mmQuiet s = true ∨ (portAt s p).linkUp = false → exec (.heartbeatSend p) s = .next s) ∧
  (∀ (s : State) (p : Nat) (b : Bytes), rxClosed s p = false → mmQuiet s = false → frameFails s p false b = none → (frameAt b).ty = tyHeart →
    let f := frameAt b
    let heard := beAt f.payload 4 4
    let mine := decide (2 ^ 31 ≤ heard) && heard % 2 ^ 24 == nodeId s
    ∃ u, exec (.heartbeatReceive p b) s = .next u ∧ (portAt u p).hbRx = some (tb0Ns s, f.src) ∧ (portAt u p).limit = beAt f.payload 0 4 ∧
      (portAt u p).misses = 0 ∧ (portAt u p).peerDepart = f.flags.testBit 1 ∧
      ((portAt s p).lstate = 2 → mine = true → (portAt u p).lstate = 2) ∧
      ((portAt s p).lstate = 1 → mine = true → (portAt u p).lstate = 2 ∧ (portAt u p).sent = 0 ∧ (portAt u p).freed = 0) ∧
      ((portAt s p).lstate = 2 → mine = false → (portAt u p).lstate = (if (portAt s p).linkUp then 1 else 0) ∧
        rcGet u (.ilk p .lost) = add32 (rcGet s (.ilk p .lost)) 1 ∧ (portAt u p).reUp = none ∧ (portAt u p).reDown = none) ∧
      ((portAt s p).lstate ≠ 2 → mine = false → (portAt u p).lstate = (portAt s p).lstate) ∧
      u = { s with pow := u.pow, rst := u.rst, mm := u.mm, rc := u.rc, sealing := u.sealing, vrd := u.vrd, ilk := u.ilk, mir := u.mir, erc := u.erc, cmp := u.cmp, flt := u.flt, boot := u.boot }) ∧
  (∀ (s : State) (p : Nat), (portAt s p).lstate = 2 → mmQuiet s = false →
    let k := portAt s p
    let t := afterOpen s p ((k.hbRef * 1024 : Nat) : Int) (2000 * 1024)
    ∃ u, exec (.heartbeatMiss p) s = .next u ∧ u.time = (advanceTb0 s (t / 1024 + 1).toNat).time ∧ rcGet u (.ilk p .hbMiss) = add32 (rcGet s (.ilk p .hbMiss)) 1 ∧
      (portAt u p).misses = k.misses + 1 ∧ (portAt u p).hbRef = (t / 1024).toNat ∧
      (k.misses < 3 → (portAt u p).lstate = 2 ∧ u = { s with rc := u.rc, time := u.time, ilk := u.ilk, erc := u.erc }) ∧
      (3 ≤ k.misses → (portAt u p).lstate = (if k.linkUp then 1 else 0) ∧ rcGet u (.ilk p .lost) = add32 (rcGet s (.ilk p .lost)) 1 ∧
        u = { s with pow := u.pow, rst := u.rst, mm := u.mm, rc := u.rc, time := u.time, sealing := u.sealing, vrd := u.vrd, ilk := u.ilk, mir := u.mir, erc := u.erc, cmp := u.cmp, flt := u.flt, boot := u.boot })) ∧
  (∀ (s : State) (p : Nat), (portAt s p).lstate ≠ 2 ∨ mmQuiet s = true → exec (.heartbeatMiss p) s = .next s) ∧
  (∀ (s : State) (p : Nat), portAbsent s p = false → (portAt s p).lstate = 2 → ∃ u, exec (.linkUpFall p) s = .next u ∧ (portAt u p).linkUp = false ∧ (portAt u p).lstate = 0 ∧
    ((portAt s p).pfailAt = none → (portAt u p).loss = 2) ∧ rcGet u (.ilk p .lost) = add32 (rcGet s (.ilk p .lost)) 1 ∧ (portAt u p).reUp = none ∧ (portAt u p).reDown = none ∧
    u = { s with pow := u.pow, rst := u.rst, mm := u.mm, rc := u.rc, sealing := u.sealing, vrd := u.vrd, ilk := u.ilk, mir := u.mir, erc := u.erc, cmp := u.cmp, flt := u.flt, boot := u.boot }) ∧
  (∀ (s : State) (p : Nat), portAbsent s p = false → (portAt s p).lstate ≠ 2 → exec (.linkUpFall p) s = .next (modPort s p (fun k => { k with linkUp := false, hbDue := false, lstate := 0 }))) ∧
  (∀ (s : State) (p : Nat), portAbsent s p = true → exec (.linkUpFall p) s = .next s ∧ exec (.linkUpRise p) s = .next s) ∧
  (∀ (s : State) (p : Nat), portAbsent s p = false → exec (.linkUpRise p) s = .next (modPort s p (fun k => { k with linkUp := true, hbDue := true, lstate := if k.lstate = 0 then 1 else k.lstate }))) ∧
  (∀ (s : State) (p : Nat), 128 ≤ p → (portAt s p).linkUp = false → (portAt s p).queue ≠ [] → ∃ u, exec (.portClockStop p) s = .next u ∧ (portAt u p).queue = [] ∧
    rcGet u (.ilk p .flush) = add32 (rcGet s (.ilk p .flush)) (portAt s p).queue.length ∧ (∀ q, q ≠ p → portAt u q = portAt s q) ∧
    u = { s with pow := u.pow, mm := u.mm, rc := u.rc, ilk := u.ilk, host := u.host, erc := u.erc }) ∧
  (∀ (s : State) (p : Nat), p < 128 ∨ (portAt s p).linkUp = true → exec (.portClockStop p) s = .next s)

/-- FRAME_TRANSMIT_START sends the first waiting frame where gate, credits and tokens allow it; gate changes and UPLINK_REVERT act at their instants. -/
def Obligations.FramesStartInOrderAtTheGate : Prop :=
  (∀ (s0 : State) (p : Nat) (e : PortEnt), entOfPort s0 p = some e → mmQuiet s0 = false → (portAt s0 p).linkUp = true →
    ∃ s, exec (.downExpired p) s0 = .next s ∧ (gateAdmits s p e (wireTick s p) = true →
    ((portAt s p).hbDue = true → ∃ u, exec (.frameTransmitStart p) s0 = .next u ∧ (portAt u p).hbDue = false ∧ (portAt u p).hbSeq = ((portAt s p).hbSeq + 1) % 2 ^ 32 ∧
      (portAt u p).queue = (portAt s p).queue ∧ (portAt u p).recs = (portAt s p).recs ∧ u = { s with ilk := u.ilk }) ∧
    ((portAt s p).hbDue = false → (portAt s p).lstate ≠ 2 → exec (.frameTransmitStart p) s0 = .next s) ∧
    ((portAt s p).hbDue = false → (portAt s p).lstate = 2 → firstWaiting s e = none → exec (.frameTransmitStart p) s0 = .next s) ∧
    (∀ w, (portAt s p).hbDue = false → (portAt s p).lstate = 2 → firstWaiting s e = some w → mayDepart s e w.d = false → exec (.frameTransmitStart p) s0 = .next s) ∧
    (∀ f row, (portAt s p).hbDue = false → (portAt s p).lstate = 2 → firstOf (portAt s p) row = some f → row ∈ [2, 3, 4] → (∀ r ∈ [2, 3, 4], r < row → firstOf (portAt s p) r = none) →
      f.mbx = none → mayDepart s e ⟨f.ty, f.tag.getD (epochNow s), f.flags, 0, f.payload⟩ = true → ∃ u, exec (.frameTransmitStart p) s0 = .next u ∧
      (portAt u p).queue = (portAt s p).queue.erase f ∧ (portAt u p).recs = (portAt s p).recs ∧ (f.ty ≠ tyHeart →
        (portAt u p).sent = ((portAt s p).sent + cellsOf (32 + roundUp f.payload.length 4)) % 2 ^ 32) ∧
      (∀ q, q ≠ p → portAt u q = portAt s q) ∧ u = { s with ilk := u.ilk, boot := { s.boot with sentLimit := u.boot.sentLimit } }) ∧
    (∀ r, (portAt s p).hbDue = false → (portAt s p).lstate = 2 → (∀ row ∈ [2, 3, 4], firstOf (portAt s p) row = none) → activeUplink s ≠ some p →
      (portAt s p).recs.find? (fun r => decide (r.next ≠ 0)) = some r → mayDepart s e (waitRec s e r).d = true → ∃ u, exec (.frameTransmitStart p) s0 = .next u ∧
      (portAt u p).queue = (portAt s p).queue ∧ (portAt u p).recs = (if r.next = framesFor r.data.length e.mtu - 1 then (portAt s p).recs.erase r
        else { r with next := r.next + 1, seq := (portAt u p).recs.head?.bind (·.seq) } :: (portAt s p).recs.erase r) ∧
      (∀ q, q ≠ p → (portAt u q).recs = (portAt s q).recs)) ∧
    (∀ r, (portAt s p).hbDue = false → (portAt s p).lstate = 2 → (∀ row ∈ [2, 3, 4], firstOf (portAt s p) row = none) → activeUplink s ≠ some p →
      (∀ r ∈ (portAt s p).recs, r.next = 0) → (portAt s p).recs.find? (fun r => r.row == 5) = some r → r.seq = none → mayDepart s e (waitRec s e r).d = true →
      ∃ u, exec (.frameTransmitStart p) s0 = .next u ∧ (portAt u p).queue = (portAt s p).queue ∧
      u.ilk.held.any (fun h => h.down && h.epoch == r.epoch && h.node == recNode r.data && h.port == p) = true ∧
      (portAt u p).recs = (if framesFor r.data.length e.mtu - 1 = 0 then (portAt s p).recs.erase r
        else { r with next := 1, seq := some (portAt s p).seqDown } :: (portAt s p).recs.erase r) ∧
      u = { s with ilk := u.ilk, boot := { s.boot with sentLimit := u.boot.sentLimit } }))) ∧
  (∀ (s : State) (p : Nat) (e : PortEnt), entOfPort s p = some e → mmQuiet s = true ∨ (portAt s p).linkUp = false →
    ∃ u, exec (.downExpired p) s = .next u ∧ exec (.frameTransmitStart p) s = .next u) ∧
  (∀ (s : State) (p : Nat), entOfPort s p = none → exec (.frameTransmitStart p) s = .next s) ∧
  (∀ (s : State) (p : Nat) (e : PortEnt) (g : GateList) (w : Int × Int) (rest : List (Int × Int)), entOfPort s p = some e → gateOf s p = some g → gateCloses g = true →
    mmQuiet s = false → windowsFrom s g (tb0Tick s) 0 = w :: rest →
    ((tb0Tick s : Int) < w.1 → exec (.gateWindowChange p) s = .next (modPort (advanceTick s w.1) p (fun k => { k with hbDue := k.linkUp }))) ∧
    let close : Int := w.2 - ((guardNs e * 1024 : Nat) : Int) + 1024 - ((txComp s p * 1024 : Nat) : Int)
    (w.1 ≤ (tb0Tick s : Int) → (tb0Tick s : Int) < close → ∃ u, exec (.gateWindowChange p) s = .next u ∧
      u.time = (advanceTick s close).time ∧ ((portAt s p).linkUp = false → u = { s with time := u.time }) ∧
      ((portAt s p).linkUp = true → (portAt s p).hbDue = true → rcGet u (.ilk p .withdraw) = add32 (rcGet s (.ilk p .withdraw)) 1) ∧
      u = { s with rc := u.rc, time := u.time, erc := u.erc })) ∧
  (∀ (s : State) (p : Nat), entOfPort s p = none ∨ gateOf s p = none ∨ mmQuiet s = true ∨ (∃ g, gateOf s p = some g ∧ gateCloses g = false) →
    exec (.gateWindowChange p) s = .next s) ∧
  (∀ (s : State) (p : Nat), uplinkPort s 0 = some p →
    (s.ilk.active = 1 → rwEff s .ilkRevert % 65536 ≠ 0 → portUp s p = true → rwEff s .ilkRevert % 65536 < (portAt s p).upEpochs →
      ∃ u, exec .uplinkRevert s = .next u ∧ u.ilk.active = 0 ∧ (portAt u p).hbDue = true ∧ (∀ q, q ≠ p → portAt u q = portAt s q) ∧ u = { s with ilk := u.ilk }) ∧
    (s.ilk.active ≠ 1 ∨ rwEff s .ilkRevert % 65536 = 0 ∨ portUp s p = false ∨ (portAt s p).upEpochs ≤ rwEff s .ilkRevert % 65536 → exec .uplinkRevert s = .next s)) ∧
  (∀ s : State, uplinkPort s 0 = none → exec .uplinkRevert s = .next s)

/-- A START or ACTIVATE that is news is held, acted on and forwarded; ACKs are kept by child, sent at the deadline, and the Dome takes the outcome. -/
def Obligations.BroadcastsAreTakenForwardedAndAnswered : Prop :=
  (∀ (s : State) (a : Access), reaches s a 7 → roleOf s = 3 → bcPending s = false → tb0Ns s + (s.img.active.map (·.node.hmax)).getD 0 * 8000 ≤ bcWord s .bcAckby →
    let j := rwGet s .bcJob
    let id := (s.ilk.bcid + 1) % 2 ^ 32
    let start := bcWord s .bcStart
    let pl := startPayload id (j % 65536) (j / 65536 % 256) (j / 2 ^ 24 % 4) (stampNs start) (stampNs (bcWord s .bcAckby))
    ∃ u, exec (.startIssue a) s = .next (answered a u) ∧ u.ilk.result.outcome = 3 ∧ u.ilk.result.act = false ∧ u.ilk.result.id = id ∧
      u.red.selPend = s.red.selPend ++ [⟨j / 2 ^ 24 % 4, j % 65536, j / 65536 % 256, start, decide (start < tb0Ns s)⟩] ∧
      (∃ b ∈ u.ilk.bcasts, b.act = false ∧ b.id = id ∧ b.payload = pl) ∧
      (∀ q ∈ downlinks (topoOf s), (portAt u q).queue.any (fun f => f.ty == tyStart && f.payload == pl) = true) ∧
      u = { touch s 7 with red := { s.red with selPend := u.red.selPend }, ilk := u.ilk }) ∧
  (∀ (s : State) (a : Access), reaches s a 7 → roleOf s = 3 →
    bcPending s = true ∨ bcWord s .bcAckby < tb0Ns s + (s.img.active.map (·.node.hmax)).getD 0 * 8000 →
    exec (.startIssue a) s = .next (answered a { touch s 7 with ilk := { s.ilk with result := { s.ilk.result with refused := true } } })) ∧
  (∀ (s : State) (p : Nat) (f0 : Bytes), rxClosed s p = false → mmQuiet s = false → asleep s 14 = false → frameFails s p false f0 = none → (frameAt f0).ty = tyStart →
    let b := (frameAt f0).payload
    let sel := byteAt b 7 % 4
    let start := stampTotal (stampAt b 8)
    (startNews s (beAt b 0 4) sel (beAt b 4 2) (byteAt b 6) = true → ∃ u, exec (.startReceive p f0) s = .next u ∧
      u.red.selPend = s.red.selPend ++ [⟨sel, beAt b 4 2, byteAt b 6, start, decide (start < tb0Ns s)⟩] ∧ lookup u.ilk.selIds sel = some (beAt b 0 4) ∧
      (∃ k ∈ u.ilk.bcasts, k.act = false ∧ k.sel = sel ∧ k.id = beAt b 0 4 ∧ k.payload = b.take 32) ∧
      (∀ q ∈ downlinks (topoOf s), (portAt u q).queue.any (fun f => f.ty == tyStart && f.payload == b.take 32) = true) ∧
      u = { touch s 14 with red := { s.red with selPend := u.red.selPend }, ilk := u.ilk }) ∧
    (startNews s (beAt b 0 4) sel (beAt b 4 2) (byteAt b 6) = false → ∃ u, exec (.startReceive p f0) s = .next u ∧ u.ilk.bcasts = s.ilk.bcasts ∧
      u.ilk.selIds = s.ilk.selIds ∧ u = { touch s 14 with ilk := u.ilk })) ∧
  (∀ (s : State) (p : Nat) (f0 : Bytes), rxClosed s p = false → mmQuiet s = false → asleep s 14 = false → frameFails s p false f0 = none → (frameAt f0).ty = tyActivate →
    let b := (frameAt f0).payload
    let eA := beAt b 4 8 % 2 ^ 48
    let old := s.ilk.bcasts.any (·.act) && !newer 32 (beAt b 0x0C 4) s.ilk.actid
    (old = true → ∃ u, exec (.activateReceive p f0) s = .next u ∧ u.ilk.bcasts = s.ilk.bcasts ∧ u.ilk.actid = s.ilk.actid ∧ u = { touch s 14 with ilk := u.ilk }) ∧
    (old = false → ∃ u, exec (.activateReceive p f0) s = .next u ∧ u.ilk.actid = beAt b 0x0C 4 ∧ rwGet u (.actEpoch false) = eA % 2 ^ 32 ∧
      rwGet u (.actEpoch true) = beAt b 0 2 * 65536 + eA / 2 ^ 32 % 65536 ∧ (∃ k ∈ u.ilk.bcasts, k.act = true ∧ k.id = beAt b 0x0C 4 ∧ k.payload = b.take 32) ∧
      (∀ q ∈ downlinks (topoOf s), (portAt u q).queue.any (fun f => f.ty == tyActivate && f.payload == b.take 32) = true) ∧
      (tooSoon s eA = true → u.img = { s.img with refused := true }) ∧
      (tooSoon s eA = false → ∃ k, u.img.sched = some k ∧ k.gen = beAt b 0 2 ∧ k.eA = eA ∧ k.e = signed 8 (byteAt b 2) ∧ k.lPeer = byteAt b 3 ∧
        k.late = (gridRuns s && decide (eA < epochNow s + 2)) ∧ k.actAt = (if k.late then epochNow s + 2 else eA)) ∧
      u = { touch s 14 with rw := u.rw, img := u.img, ilk := u.ilk })) ∧
  (∀ (s : State) (p : Nat) (f0 : Bytes) (c : ChildEnt) (k : Bcast), rxClosed s p = false → mmQuiet s = false → asleep s 14 = false → frameFails s p false f0 = none → (frameAt f0).ty = tyAck →
    let f := frameAt f0
    childNode (topoOf s) f.src = some c → c.standby = false → (byteAt f.payload 5).testBit 2 = false →
    s.ilk.bcasts.find? (fun x => x.act == (byteAt f.payload 4 == 1) && x.id == beAt f.payload 0 4) = some k →
    ∃ u, exec (.ackReceive p f0) s = .next u ∧ (∃ b ∈ u.ilk.bcasts, b.act = k.act ∧ b.id = k.id ∧ b.payload = k.payload ∧ lookup b.acks f.src = some (ackAt f.payload)) ∧
      u = { touch s 14 with ilk := u.ilk }) ∧
  (∀ (s : State) (p : Nat) (f0 : Bytes), rxClosed s p = false → mmQuiet s = false → asleep s 14 = false → frameFails s p false f0 = none → (frameAt f0).ty = tyAck → childNode (topoOf s) (frameAt f0).src = none →
    ∃ u, exec (.ackReceive p f0) s = .next u ∧ u = { touch s 14 with ilk := { s.ilk with ports := u.ilk.ports } }) ∧
  (∀ (s : State) (b : Bcast), (sortBy (fun b => ackDeadline s b) (s.ilk.bcasts.filter (fun b => b.sentAck.isNone))).head? = some b → roleOf s = 1 ∨ roleOf s = 2 → quiet s = false → asleep s 14 = false →
    ∃ u, exec .ackDeadline s = .next u ∧ u.time = (advanceTb0 s (ackDeadline s b)).time ∧ (∃ k ∈ u.ilk.bcasts, k.act = b.act ∧ k.id = b.id ∧ k.sentAck.isSome = true) ∧
      (∀ q, activeUplink s = some q → ∃ pl, (portAt u q).queue = (portAt s q).queue ++ [⟨2, 0, tyAck, none, 0, pl, none⟩]) ∧ u = { touch s 14 with time := u.time, ilk := u.ilk }) ∧
  (∀ s : State, asleep s 14 = false → (∀ b ∈ s.ilk.bcasts, b.sentAck.isSome = true) ∨ roleOf s = 3 ∨ roleOf s = 0 ∨ quiet s = true →
    exec .ackDeadline s = .next (touch s 14)) ∧
  (∀ (s : State) (b : Bcast), (sortBy (fun b => b.retryAt) (s.ilk.bcasts.filter (fun b => !b.done && decide (b.retryAt < ackDeadline s b)))).head? = some b →
    2 ≤ roleOf s → quiet s = false → asleep s 14 = false → ∃ u, exec .startRetry s = .next u ∧ u.time = (advanceTb0 s b.retryAt).time ∧
      (∃ k ∈ u.ilk.bcasts, k.act = b.act ∧ k.id = b.id ∧ b.retryAt + 10000 ≤ k.retryAt) ∧
      (∀ c ∈ childrenOf (topoOf s), lookup b.acks c.node = none →
        (portAt u c.port).queue.any (fun f => f.ty == (if b.act then tyActivate else tyStart) && f.payload == b.payload) = true) ∧
      u = { touch s 14 with time := u.time, ilk := u.ilk }) ∧
  (∀ s : State, asleep s 14 = false → (∀ b ∈ s.ilk.bcasts, b.done = true ∨ ackDeadline s b ≤ b.retryAt) ∨ roleOf s < 2 ∨ quiet s = true →
    exec .startRetry s = .next (touch s 14)) ∧
  (∀ (s : State) (b : Bcast), s.ilk.bcasts.find? (fun b => b.act == s.ilk.result.act && b.id == s.ilk.result.id) = some b → bcPending s = true → roleOf s = 3 → asleep s 14 = false →
    let i := ownInfo (advanceTb0 s b.ackBy) b 255
    let complete := decide (i.reached = i.expected) && !refusalBelow (advanceTb0 s b.ackBy) b && !i.refused
    ∃ u, exec .broadcastOutcome s = .next u ∧ u.time = (advanceTb0 s b.ackBy).time ∧ u.ilk.result.outcome = (if complete then 1 else 2) ∧ u.ilk.result.irq = true ∧
      u.ilk.result.reached = i.reached ∧ u.ilk.result.joined = i.joined ∧ u.ilk.result.expected = i.expected ∧ u.ilk.result.miss = i.miss ∧
      (b.act = false → u.img = s.img) ∧ (b.act = true → u.img.outcome = (if complete then 1 else 2)) ∧ u = { touch s 14 with time := u.time, img := u.img, ilk := u.ilk }) ∧
  (∀ s : State, asleep s 14 = false → bcPending s = false ∨ roleOf s ≠ 3 → exec .broadcastOutcome s = .next (touch s 14)) ∧
  (∀ (s : State) (im : Image), s.img.active = some im → im.role = 3 → bcPending s = false → quiet s = false → asleep s 14 = false →
    let hi := rwGet s (.actEpoch true)
    let eA := rwGet s (.actEpoch false) + hi % 65536 * 2 ^ 32
    let id := (s.ilk.actid + 1) % 2 ^ 32
    ∃ u, exec .activateIssue s = .next u ∧ u.ilk.result.outcome = 3 ∧ u.ilk.result.act = true ∧ u.ilk.result.id = id ∧ u.ilk.actid = id ∧
      (∃ b ∈ u.ilk.bcasts, b.act = true ∧ b.id = id ∧ b.payload = activatePayload (hi / 65536) im.node.e im.node.lPeer eA id) ∧
      (tooSoon s eA = true → u.img = { s.img with refused := true }) ∧
      (tooSoon s eA = false → ∃ k, u.img.sched = some k ∧ k.gen = hi / 65536 ∧ k.eA = eA ∧ k.e = im.node.e ∧ k.lPeer = im.node.lPeer) ∧
      u = { touch s 14 with img := u.img, ilk := u.ilk }) ∧
  (∀ s : State, asleep s 14 = false → s.img.active = none ∨ roleOf s ≠ 3 ∨ bcPending s = true ∨ quiet s = true →
    exec .activateIssue s = .next (touch s 14))

/-- Received verdicts enter the queue once, votes close by ballots or time, the ring takes the next verdict, and a PTP message its slot. -/
def Obligations.VerdictsVotesAndTheirRing : Prop :=
  (∀ (s : State) (p : Nat) (b : Bytes), rxClosed s p = false → mmQuiet s = false → asleep s 6 = false → frameFails s p false b = none → (frameAt b).ty = tyVerdict →
    let f := frameAt b
    let v := verdictAt f.payload 0
    (tagEpoch s f.tag = none → ∃ u, exec (.verdictReceive p b) s = .next u ∧ rcGet u .sealStaleDrop = add32 (rcGet s .sealStaleDrop) 1 ∧
      u = { touch s 6 with rc := u.rc, ilk := u.ilk, erc := u.erc }) ∧
    (∀ x, tagEpoch s f.tag = some x → f.gen ≠ genAt s x → ∃ u, exec (.verdictReceive p b) s = .next u ∧ rcGet u .sealGenDrop = add32 (rcGet s .sealGenDrop) 1 ∧
      u = { touch s 6 with rc := u.rc, ilk := u.ilk, erc := u.erc }) ∧
    (∀ x, tagEpoch s f.tag = some x → f.gen = genAt s x → s.vrd.keys.contains (v.issuer, v.vseq, v.epoch) = true → ∃ u, exec (.verdictReceive p b) s = .next u ∧
      rcGet u .vrdDupDrop = add32 (rcGet s .vrdDupDrop) 1 ∧ u = { touch s 6 with rc := u.rc, ilk := u.ilk, erc := u.erc }) ∧
    (∀ x, tagEpoch s f.tag = some x → f.gen = genAt s x → s.vrd.keys.contains (v.issuer, v.vseq, v.epoch) = false →
      s.vrd.queue.any (fun e => sameVerdict e.v v) = true → ∃ u, exec (.verdictReceive p b) s = .next u ∧
      u.vrd.queue = s.vrd.queue.map (fun e => if sameVerdict e.v v then { e with v := mergeVerdict e.v v } else e) ∧
      u = { touch s 6 with vrd := u.vrd, ilk := u.ilk }) ∧
    (∀ x, tagEpoch s f.tag = some x → f.gen = genAt s x → s.vrd.keys.contains (v.issuer, v.vseq, v.epoch) = false → s.vrd.queue = [] →
      (roleOf s < 2 ∨ v.cls < 3 ∨ v.cls = 6 → ∃ u, exec (.verdictReceive p b) s = .next u ∧ u.vrd.queue = [⟨v, tb0Ns s, some p, false, true, none⟩] ∧
        (2 ≤ roleOf s → (v.issuer, v.vseq, v.epoch) ∈ u.vrd.keys) ∧ u = { touch s 6 with vrd := u.vrd, ilk := u.ilk }) ∧
      (2 ≤ roleOf s → v.cls = 5 → underDeparture s v (some p) = true → ∃ u, exec (.verdictReceive p b) s = .next u ∧
        u.vrd.queue = [⟨{ v with cls := 6, reason := 3, decider := nodeId s }, tb0Ns s, some p, false, true, none⟩] ∧
        rcGet u .vrdHeld = add32 (rcGet s .vrdHeld) 1 ∧ u = { touch s 6 with rc := u.rc, vrd := u.vrd, ilk := u.ilk, erc := u.erc }))) ∧
  (∀ (s : State) (p : Nat) (b : Bytes) (im : Image) (x : Nat), rxClosed s p = false → mmQuiet s = false → asleep s 6 = false → frameFails s p false b = none → (frameAt b).ty = tyPropose →
    let f := frameAt b
    let v := verdictAt f.payload 8
    tagEpoch s f.tag = some x → f.gen = genAt s x → s.img.active = some im → ∃ u, exec (.voteProposeReceive p b) s = .next u ∧
      (portAt u p).queue = (portAt s p).queue ++ [⟨3, 0, tyBallot, none, 0,
        toBe 4 (beAt f.payload 0 4) ++ toBe 1 (flag (ballotOn s im v)) ++ zeros 3 ++ toBe 4 v.issuer ++ toBe 4 v.vseq, none⟩] ∧
      (∀ q, q ≠ p → portAt u q = portAt s q) ∧ u = { touch s 6 with ilk := u.ilk }) ∧
  (∀ (s : State) (p : Nat) (b : Bytes) (k : Vote) (x : Nat), rxClosed s p = false → mmQuiet s = false → asleep s 6 = false → frameFails s p false b = none → (frameAt b).ty = tyBallot →
    let f := frameAt b
    let yes := k.yes + flag (byteAt f.payload 4 == 1)
    tagEpoch s f.tag = some x → f.gen = genAt s x → s.vrd.votes.find? (fun k => k.vid == beAt f.payload 0 4) = some k → k.answered.contains f.src = false →
    k.members.contains f.src = true → (∀ e ∈ s.vrd.queue, e.ready = true ∨ e.voting.isSome = true) →
    (votesNeeded k.members.length ≤ yes → ∃ u, exec (.ballotReceive p b) s = .next u ∧ u.vrd.votes = s.vrd.votes.filter (fun x => x.vid != k.vid) ∧
      rcGet u .vrdVoteWon = add32 (rcGet s .vrdVoteWon) 1 ∧ u = { touch s 6 with rc := u.rc, vrd := u.vrd, ilk := u.ilk, erc := u.erc }) ∧
    (yes < votesNeeded k.members.length → votesNeeded k.members.length ≤ yes + (k.members.length - (k.answered.length + 1)) → ∃ u,
      exec (.ballotReceive p b) s = .next u ∧
      u.vrd = { s.vrd with votes := s.vrd.votes.map (fun x => if x.vid = k.vid then { x with yes := yes, answered := x.answered ++ [f.src] } else x) } ∧
      u = { touch s 6 with vrd := u.vrd, ilk := u.ilk })) ∧
  (∀ (s : State) (k : Vote) (e : VEntry), s.vrd.votes.find? (fun x => x.vid == k.vid) = some k → s.vrd.queue = [e] → e.voting = some k.vid → asleep s 6 = false →
    ∃ u, exec (.voteTimeout k.vid) s = .next u ∧ u.time = (advanceTb0 s k.deadline).time ∧ u.vrd.votes = s.vrd.votes.filter (fun x => x.vid != k.vid) ∧
      rcGet u .vrdVoteLost = add32 (rcGet s .vrdVoteLost) 1 ∧
      u.vrd.queue = [{ e with v := { e.v with cls := 6, reason := 5, decider := nodeId s }, ready := true, voting := none }] ∧
      u = { touch s 6 with rc := u.rc, time := u.time, vrd := u.vrd, erc := u.erc }) ∧
  (∀ (s : State) (vid : Nat), asleep s 6 = false → (∀ k ∈ s.vrd.votes, k.vid ≠ vid) → exec (.voteTimeout vid) s = .next (touch s 6)) ∧
  (∀ s : State, mmQuiet s = false → asleep s 6 = false → 2 ≤ vRingSlots s → vRingFull s = false → s.vrd.flying = none →
    (∀ (v : Verdict) (rest : List Verdict), roleOf s ≠ 3 → s.vrd.ringQ = v :: rest → ∃ u, exec .verdictRingWrite s = .next u ∧ u.vrd = { s.vrd with flying := some v, ringQ := rest } ∧
      (∃ j ∈ u.mm.jobs, j.owner = .vrdZero ∧ j.write = true ∧ j.addr = vRingAddr s ∧ j.data = zeros 8) ∧ (∀ v, v ≠ 13 → powOf u v = powOf (touch s 6) v) ∧ u = { s with pow := u.pow, mm := u.mm, vrd := u.vrd }) ∧
    (∀ q, roleOf s = 3 → nextVerdict s = some q → ∃ u, exec .verdictRingWrite s = .next u ∧ u.vrd.flying = some q.1.v ∧
      (∃ j ∈ u.mm.jobs, j.owner = .vrdZero ∧ j.write = true ∧ j.addr = vRingAddr s ∧ j.data = zeros 8) ∧
      (∀ p ∈ portsOfKind (topoOf s) 5, (portAt u p).queue.any (fun f => f.ty == tyVerdict && f.payload == verdictBytes toBe q.1.v) = true) ∧
      (∀ v, v ≠ 13 → powOf u v = powOf (touch s 6) v) ∧
      u = { s with pow := u.pow, mm := u.mm, vrd := u.vrd, ilk := u.ilk, erc := { s.erc with tally := u.erc.tally } })) ∧
  (∀ s : State, asleep s 6 = false → mmQuiet s = true ∨ (2 ≤ vRingSlots s ∧ (vRingFull s = true ∨ s.vrd.flying.isSome = true)) →
    exec .verdictRingWrite s = .next (touch s 6)) ∧
  (∀ (s : State) (a : Access) (d : Word) (e : DetEnt) (lo : Nat), reaches s a 6 → (detSec s).dets[rwGet s .vrdDetSel]? = some e →
    s.vrd.hHeld = some (rwGet s .vrdDetSel, lo) →
    (limitOk e (lo + d.toNat * 2 ^ 32) = true → ∃ u, exec (.detectorThresholdCommit a d) s = .next (answered a u) ∧
      rwGet u (.detH (rwGet s .vrdDetSel)) = lo + d.toNat * 2 ^ 32 ∧ u.vrd.hHeld = none) ∧
    (limitOk e (lo + d.toNat * 2 ^ 32) = false →
      exec (.detectorThresholdCommit a d) s = .next (answered a { touch s 6 with vrd := { s.vrd with hHeld := none } }))) ∧
  (∀ (s : State) (p : Nat) (b : Bytes), rxClosed s p = false → mmQuiet s = false → frameFails s p false b = none → (frameAt b).ty = tyPtp →
    let n := beAt (frameAt b).payload 0 2
    let no := ptpSlots s = 0 ∨ 192 < n ∨ (s.host.ptpWr + s.host.ptpQ.length + 1) % ptpSlots s = rwGet s .ptpRxRd % ptpSlots s
    (no → ∃ u, exec (.ptpReceive p b) s = .next u ∧ rcGet u .ptpRxDrop = add32 (rcGet s .ptpRxDrop) 1 ∧ u = { s with rc := u.rc, ilk := u.ilk, erc := u.erc }) ∧
    (¬ no → ∃ u, exec (.ptpReceive p b) s = .next u ∧ u.host = { s.host with ptpQ := s.host.ptpQ ++ [ptpSlot s p (sliceOf (frameAt b).payload 4 n)] } ∧
      (mmJobOf s .ptpRxZero = none → mmJobOf s .ptpRxBody = none → mmJobOf s .ptpRxSeq = none →
        ∃ j ∈ u.mm.jobs, j.owner = .ptpRxZero ∧ j.addr = pairBase s .ptpRxBase + 256 * s.host.ptpWr ∧ j.data = zeros 8) ∧
      (∀ v, v ≠ 13 → powOf u v = powOf s v) ∧ u = { s with pow := u.pow, mm := u.mm, ilk := u.ilk, host := u.host }))

/-- An aged merge entry drains, the scrub visits and mends one word, poisoned words are rewritten, and erasure and injection follow their registers. -/
def Obligations.MergeScrubAndRewriteOfTheBanks : Prop :=
  (∀ (s : State) (b : Nat) (e : MergeEnt) (rest : List MergeEnt), (bankAt s b).merge = e :: rest → asleep s 12 = false → ∃ u, exec (.mergeBufferAgeDrain b) s = .next u ∧
    u.time = (advanceCore s (e.since + 32)).time ∧ (bankAt u b).merge = (e :: rest).filter (fun x => x.idx != e.idx) ∧
    (e.bytes.all (·.isSome) = true → s.mem.inj.arm = false → u.mem.sram = (storeRaw s b e.idx (rsEncode (overlay e (List.replicate 16 0)))).mem.sram ∧
      u = { touch s 12 with time := u.time, mem := { s.mem with sram := u.mem.sram, banks := u.mem.banks } }) ∧
    (e.bytes.all (·.isSome) = false → rcGet u .memMergeRmw = add32 (rcGet s .memMergeRmw) 1) ∧ u = { s with pow := u.pow, rst := u.rst, mm := u.mm, rc := u.rc, time := u.time, erc := u.erc, cmp := u.cmp, flt := u.flt, mem := u.mem, boot := u.boot }) ∧
  (∀ (s : State) (b : Nat), asleep s 12 = false → (bankAt s b).merge = [] → exec (.mergeBufferAgeDrain b) s = .next (touch s 12)) ∧
  (∀ (s : State) (b : Nat), b < s.mem.banks.length → asleep s 12 = false →
    let i := (bankAt s b).scrub
    let r := rsDecode (rawWord s b i) (bankAt s b).erased
    ∃ u, exec (.memScrubRead b) s = .next u ∧
      u.time = (advanceTb2 s (ceilDiv (bankAt s b).dueAt (Config.bankWords s.integ))).time ∧ (bankAt u b).dueAt = (bankAt s b).dueAt + scrubPace s ∧
      (i + 1 < Config.bankWords s.integ → (bankAt u b).scrub = i + 1) ∧
      (Config.bankWords s.integ ≤ i + 1 → (bankAt u b).scrub = 0 ∧ (bankAt u b).counts = [] ∧ (bankAt u b).passes = satAdd 16 (bankAt s b).passes 1) ∧
      (entOf s b i = none → r.fixes = [] → r.bad = false → r.poison = false → u.mem.sram = s.mem.sram ∧ u.rc = s.rc ∧ (bankAt u b).fix = (bankAt s b).fix) ∧
      (∀ f, entOf s b i = none → r.fixes = [f] → r.bad = false → r.poison = false →
        u.mem.sram = s.mem.sram ∧ rcGet u .memCe = add32 (rcGet s .memCe) 1 ∧ (bankAt u b).fix = (bankAt s b).fix.filter (· != i) ++ [i]) ∧
      (entOf s b i = none → r.bad = true → r.poison = false → r.fixes = [] → rcGet u .memUe = add32 (rcGet s .memUe) 1 ∧
        rcGet u .memScrubFix = add32 (rcGet s .memScrubFix) 1 ∧ u.mem.sram = (storeRaw s b i (rsPoison ((rawWord s b i).drop 3))).mem.sram) ∧
      u = { s with pow := u.pow, rst := u.rst, mm := u.mm, rc := u.rc, time := u.time, erc := u.erc, cmp := u.cmp, flt := u.flt, mem := u.mem, boot := u.boot }) ∧
  (∀ (s : State) (b : Nat), asleep s 12 = false → s.mem.banks.length ≤ b → exec (.memScrubRead b) s = .next (touch s 12)) ∧
  (∀ (s : State) (b i : Nat) (rest : List Nat), (bankAt s b).fix = i :: rest → asleep s 12 = false → ∃ u, exec (.memScrubWriteback b) s = .next u ∧ (bankAt u b).fix = rest ∧
    rcGet u .memScrubFix = add32 (rcGet s .memScrubFix) 1 ∧
    u.mem.sram = (storeRaw s b i (rsEncode (rsDecode (rawWord s b i) (bankAt s b).erased).data)).mem.sram ∧
    u = { touch s 12 with rc := u.rc, erc := u.erc, mem := { s.mem with sram := u.mem.sram, banks := u.mem.banks } }) ∧
  (∀ (s : State) (b : Nat), asleep s 12 = false → (bankAt s b).fix = [] → exec (.memScrubWriteback b) s = .next (touch s 12)) ∧
  (∀ (s : State) (b i : Nat) (rest : List Nat) (h : Struck), (bankAt s b).rewrite = i :: rest → asleep s 12 = false → ∃ u,
    exec (.poisonRewrite ⟨b, h⟩) s = .next (settled (touch s 12) (struckOp u h)) ∧
    (bankAt u b).rewrite = rest.filter (fun x => x != i) ∧ (s.mem.inj.arm = false → u.mem.sram = (storeRaw s b i (rsPoison ((rawWord s b i).drop 3))).mem.sram) ∧
    u = { touch s 12 with mem := { s.mem with sram := u.mem.sram, banks := u.mem.banks, inj := u.mem.inj } }) ∧
  (∀ (s : State) (b : Nat), (bankAt s b).rewrite = [] → asleep s 12 = false → s.flt.active = false →
    let t := touch s 12
    exec (.poisonRewrite ⟨b, .data⟩) s = .next (settled t t) ∧
    exec (.poisonRewrite ⟨b, .captureMacro⟩) s = .next (settled t { t with cap := { s.cap with poisoned := true } }) ∧
    (∀ x, exec (.poisonRewrite ⟨b, .frozenCopy x⟩) s = .next (settled t { t with
      cap := { s.cap with frozen := s.cap.frozen.map (fun f => if f.epoch = x then { f with poisoned := true } else f) } })) ∧
    (∀ k, exec (.poisonRewrite ⟨b, .shadow k⟩) s = .next (settled t { t with leap := { s.leap with shadows := s.leap.shadows.filter (fun x => x.bundle != k) } })) ∧
    (∀ x, exec (.poisonRewrite ⟨b, .recordHeader x false⟩) s = .next (settled t { t with red := { s.red with unsent := s.red.unsent.filter (fun r => r.epoch != x) } })) ∧
    (∀ d x n, exec (.poisonRewrite ⟨b, .heldCopy d x n⟩) s = .next (settled t { t with
      ilk := { s.ilk with held := s.ilk.held.filter (fun k => !(k.down == d && k.epoch == x && k.node == n)) } })) ∧
    (∀ i, exec (.poisonRewrite ⟨b, .baseline i⟩) s = .next (settled t { t with vrd := { s.vrd with dets := s.vrd.dets.modify i (fun _ => detNone) } })) ∧
    (∀ k, ∃ u, exec (.poisonRewrite ⟨b, .wardenData k⟩) s = .next (settled t u) ∧ u.flt.active = true ∧ u.flt.cause = 11)) ∧
  (∀ (s : State) (a : Access), reaches s a 12 →
    exec (.erasureEnd a) s = .next (answered a (modBank (touch s 12) (rwGet s .memBankSel) (fun k => { k with erased := none })))) ∧
  (∀ (s : State) (a : Access) (d : Word), reaches s a 12 →
    (s.mem.inj.arm = true → exec (.injectionArm a d) s = .next (answered a (touch s 12))) ∧
    (s.mem.inj.arm = false → ∃ u, exec (.injectionArm a d) s = .next (answered a u) ∧
      u.mem.inj = ⟨d.getLsbD 31 && decide (d.toNat / 2 ^ 20 % 32 ≤ 18) && d.toNat % 256 != 0, d.getLsbD 30, d.toNat / 2 ^ 25 % 32, d.toNat / 2 ^ 20 % 32, d.toNat % 256⟩ ∧
      u = { touch s 12 with mem := { s.mem with inj := u.mem.inj } }))

/-- MCU_FLT_POP takes the oldest fault record, and the fail-silent key or the warden's watchdog makes the block fail-silent with its fault record. -/
def Obligations.FaultsAndFailSilence : Prop :=
  (∀ (s : State) (a : Access), portTakes s a → 6 ≤ s.rst.step → asleep s 14 = false →
    exec (.faultPop a) s = .next (answered a { touch s 14 with flt := { s.flt with ent := s.flt.fifo.head?, fifo := s.flt.fifo.drop 1 } })) ∧
  (∀ (s : State) (a : Access) (d : Word), reaches s a 14 →
    (d.toNat % 65536 ≠ 0xF5F5 → exec (.failSilentCommand a d) s = .next (answered a (touch s 14))) ∧
    (d.toNat % 65536 = 0xF5F5 → ∃ u f, exec (.failSilentCommand a d) s = .next (answered a u) ∧ u.flt.active = true ∧ u.flt.cause = 13 ∧
      u.flt.fifo.getLast? = some f ∧ f.cause = 13 ∧ f.sev = 3 ∧ f.loc = locWord s 5 0 0 0 0 ∧ f.epoch = epochNow s ∧ f.fseq = u.flt.fseq ∧
      u.flt.fseq = (s.flt.fseq + 1) % 2 ^ 32 ∧ u.flt.fifo.length = min 32 (s.flt.fifo.length + 1) + (s.flt.fifo.length - 32) ∧
      u.time = s.time ∧ u.rw = s.rw ∧ u.ilk = s.ilk ∧ u.vrd = s.vrd ∧ u.sealing = s.sealing ∧ u.red = s.red ∧ u.cap = s.cap ∧ u.bus = s.bus)) ∧
  (∀ s : State, quiet s = false → hasImage s = true → gridRuns s = true → ∃ u f, exec .wardenWatchdogExpiry s = .next u ∧
    u.time = (advanceTb2 s (s.flt.service + watchdogNs s)).time ∧ u.flt.active = true ∧ u.flt.cause = 12 ∧ u.flt.fifo.getLast? = some f ∧ f.cause = 12 ∧ f.sev = 3 ∧
    f.loc = locWord s 4 14 0 0 0 ∧ u = { s with pow := u.pow, rst := u.rst, mm := u.mm, rc := u.rc, time := u.time, feat := u.feat, leap := u.leap, img := u.img, host := u.host, trc := u.trc, erc := u.erc, cmp := u.cmp, flt := u.flt, mem := u.mem, boot := u.boot }) ∧
  (∀ s : State, quiet s = true ∨ hasImage s = false ∨ gridRuns s = false → exec .wardenWatchdogExpiry s = .next s)

/-- A mirror takes one of two places; a sync is asked for once, answered from a fresh mirror, and ends in a held block, FRESH or a rebuild. -/
def Obligations.MirrorsAndTheSyncOfASpare : Prop :=
  (∀ (s : State) (p : Nat) (r : RxRec) (rest : List RxRec), (portAt s p).rxUp = r :: rest → quiet s = false → kindOfPort s p = 4 → 2 ≤ roleOf s → asleep s 14 = false →
    let b := r.data.take (beAt r.data 0x1C 4)
    let node := beAt b 4 4 % 2 ^ 24
    (mirOk r.data = false → ∃ u, exec (.mirrorReceive p) s = .next u ∧ (portAt u p).rxUp = rest ∧ rcGet u .mcuMirBad = add32 (rcGet s .mcuMirBad) 1 ∧
      u = { touch s 14 with rc := u.rc, ilk := u.ilk, erc := u.erc }) ∧
    (mirOk r.data = true → mirKind r.data = 1 → ∃ u, exec (.mirrorReceive p) s = .next u ∧ (portAt u p).rxUp = rest ∧ (portAt u p).used = (portAt s p).used - r.cells ∧
      (s.mir.held.any (fun x => x.node == node) = false → s.mir.held.length < 2 →
        ∃ m, u.mir = { s.mir with held := s.mir.held ++ [m] } ∧ m.node = node ∧ m.data = b ∧ m.gen = beAt b 0x1A 2 ∧ m.epoch = beAt b 8 8 % 2 ^ 48) ∧
      (s.mir.held.any (fun x => x.node == node) = false → 2 ≤ s.mir.held.length →
        u.mir = s.mir ∧ rcGet u .mcuMirRefused = add32 (rcGet s .mcuMirRefused) 1) ∧
      (∀ x, s.mir.held = [x] → x.node = node → x.epoch ≤ beAt b 8 8 % 2 ^ 48 → ∃ m, u.mir = { s.mir with held := [m] } ∧ m.node = node ∧ m.data = b) ∧
      u = { touch s 14 with rc := u.rc, ilk := u.ilk, mir := u.mir, erc := u.erc }) ∧
    (mirOk r.data = true → mirKind r.data = 2 → ∃ u, exec (.syncReqReceive p) s = .next u ∧ (portAt u p).rxUp = rest ∧ u.mir = s.mir ∧
      (∀ m, s.mir.held.find? (fun m => m.node == node && mirFresh s m) = some m → u.freeDraws = s.freeDraws ∧
        (portAt u p).recs = insertBy (fun r => r.epoch) ⟨6, epochNow s, genAt s (epochNow s), false,
          sealCrc (patch (patch m.data 2 (toBe 1 3)) 0x3C (zeros 4)), 0, none⟩ (portAt s p).recs) ∧
      (s.mir.held.find? (fun m => m.node == node && mirFresh s m) = none → u.freeDraws = s.freeDraws + 5 ∧
        (portAt u p).recs = insertBy (fun r => r.epoch) ⟨6, epochNow s, genAt s (epochNow s), false, (mirEmpty s 3 true node).2, 0, none⟩ (portAt s p).recs) ∧
      u = { touch s 14 with ilk := u.ilk, freeDraws := u.freeDraws }) ∧
    (mirOk r.data = true → mirKind r.data = 3 → ∃ u, exec (.syncDataReceive p) s = .next u ∧ (portAt u p).rxUp = rest ∧
      (syncOpen s = false → u.mir = s.mir ∧ u.vrd = s.vrd) ∧
      (syncOpen s = true → (byteAt b 3).testBit 0 = false → u.mir = { s.mir with sync := 2, apply := some b } ∧ u.vrd = s.vrd) ∧
      (syncOpen s = true → (byteAt b 3).testBit 0 = true → (rwGet s .mirCfg).testBit 8 = false → u.mir = { s.mir with sync := 4, decided := true } ∧
        u.vrd.spLevel = 0 ∧ u.vrd.domeLevel = 0 ∧ (∀ k ∈ u.vrd.dets, k = detNone)) ∧
      (syncOpen s = true → (byteAt b 3).testBit 0 = true → (rwGet s .mirCfg).testBit 8 = true → u.mir.sync = 5 ∧ u.mir.left = rwGet s .rebuild % 2 ^ 24 ∧
        u.vrd.spLevel = 0) ∧ u = { touch s 14 with vrd := u.vrd, ilk := u.ilk, mir := u.mir }) ∧
    (mirOk r.data = false → syncOpen s = true → (s.mir.fails = 0 → ∃ u, exec (.syncDataReceive p) s = .next u ∧ u.mir = { s.mir with fails := 1 } ∧ u.vrd = s.vrd) ∧
      (1 ≤ s.mir.fails → ∃ u, exec (.syncDataReceive p) s = .next u ∧ u.mir.abandoned = true ∧ u.mir.sync = 5))) ∧
  (∀ (s : State) (p : Nat), asleep s 14 = false → (portAt s p).rxUp = [] ∨ quiet s = true ∨ kindOfPort s p ≠ 4 ∨ roleOf s < 2 →
    exec (.mirrorReceive p) s = .next (touch s 14) ∧ exec (.syncReqReceive p) s = .next (touch s 14) ∧ exec (.syncDataReceive p) s = .next (touch s 14)) ∧
  (∀ (s : State) (im : Image) (p : Nat), s.img.active = some im → mirrorPort im = some p → s.mir.sync = 0 → s.mir.decided = false → portUp s p = true → gridRuns s = true →
    quiet s = false → asleep s 14 = false → ∃ u, exec .syncReqSend s = .next u ∧ u.mir = { s.mir with sync := 1, askedAt := tb0Ns s, fails := 0 } ∧ u.freeDraws = s.freeDraws + 5 ∧
    (portAt u p).recs = insertBy (fun r => r.epoch) ⟨6, epochNow s, genAt s (epochNow s), false, (mirEmpty s 2 false (nodeId s)).2, 0, none⟩ (portAt s p).recs ∧
    u = { touch s 14 with ilk := u.ilk, mir := u.mir, freeDraws := u.freeDraws }) ∧
  (∀ s : State, asleep s 14 = false → s.mir.sync ≠ 0 ∨ s.mir.decided = true ∨ gridRuns s = false ∨ quiet s = true ∨ s.img.active = none →
    exec .syncReqSend s = .next (touch s 14)) ∧
  (∀ s : State, syncOpen s = true → asleep s 14 = false → ∃ u, exec .syncWaitExpiry s = .next u ∧ u.time = (advanceTb0 s (s.mir.askedAt + rwGet s .syncWait * 10 ^ 6)).time ∧
    u.mir.abandoned = true ∧ u.mir.sync = 5 ∧ u.mir.left = rwGet s .rebuild % 2 ^ 24 ∧ u = { touch s 14 with time := u.time, vrd := u.vrd, mir := u.mir }) ∧
  (∀ s : State, syncOpen s = false → asleep s 14 = false → exec .syncWaitExpiry s = .next (touch s 14)) ∧
  (∀ s : State, s.mir.sync = 5 → s.mir.left = 0 → asleep s 14 = false → exec .rebuildEnd s = .next { touch s 14 with
    vrd := { s.vrd with dets := s.vrd.dets.map (fun k => { k with warmup := none }) }, mir := { s.mir with sync := 6, decided := true } }) ∧
  (∀ s : State, s.mir.sync ≠ 5 ∨ s.mir.left ≠ 0 → asleep s 14 = false → exec .rebuildEnd s = .next (touch s 14))

/-- Settled edges enter the event FIFO, a request starts a departure, and each DEPART message moves parent or child to its next state. -/
def Obligations.PanelEventsAndPlannedDeparture : Prop :=
  (∀ (s : State) (n : Nat) (level : Bool), Config.isSpireL s.integ = true → n < 20 → (if n < 4 then s.pnl.btn.testBit n else s.pnl.plug.testBit (n - 4)) ≠ level →
    ∃ u, exec (.panelEdgeSettled n level) s = .next u ∧
    (if n < 4 then u.pnl.btn.testBit n else u.pnl.plug.testBit (n - 4)) = level ∧
    (panelSec s = none → u = { s with pnl := { s.pnl with btn := u.pnl.btn, plug := u.pnl.plug } }) ∧
    ((panelSec s).isSome = true → u.pnl.seq = (s.pnl.seq + 1) % 65536 ∧
      (s.pnl.evts.length < 32 → ∃ e, u.pnl.evts = s.pnl.evts ++ [e] ∧ e.input = n ∧ e.level = level ∧ e.seq = s.pnl.seq ∧ e.stamp = settleStamp s) ∧
      (32 ≤ s.pnl.evts.length → u.pnl.evts = s.pnl.evts ∧ rcGet u .pnlEvtLost = add32 (rcGet s .pnlEvtLost) 1) ∧
      (n = 0 → level = true → u.pnl.press = some (settleStart s) ∧ u.pnl.long = false)) ∧
    u = { s with pow := u.pow, rst := u.rst, mm := u.mm, rc := u.rc, sealing := u.sealing, ilk := u.ilk, pnl := u.pnl, erc := u.erc, cmp := u.cmp, flt := u.flt, boot := u.boot }) ∧
  (∀ (s : State) (n : Nat) (level : Bool), Config.isSpireL s.integ = false ∨ 20 ≤ n ∨ (if n < 4 then s.pnl.btn.testBit n else s.pnl.plug.testBit (n - 4)) = level →
    exec (.panelEdgeSettled n level) s = .next s) ∧
  (∀ (s : State) (a : Access) (e : PnlEvt) (rest : List PnlEvt), portTakes s a → 6 ≤ s.rst.step → (panelSec s).isSome = true → aget s.bus.latches (a.rq, .host (.evt 0)) = none →
    s.pnl.evts = e :: rest → exec (.panelEventPop a) s = .next (gave a (2 ^ 31 + flag e.level * 2 ^ 30 + e.input * 65536 + e.seq)
      { s with pnl := { s.pnl with evts := rest, evtOut := aset s.pnl.evtOut a.rq e } })) ∧
  (∀ (s : State) (c : Nat), s.pnl.press = some c → s.pnl.long = false → asleep s 18 = false → ∃ u, exec .longPress s = .next u ∧ u.time = (advanceSlow s (c + 98304)).time ∧
    u.pnl = { s.pnl with long := true } ∧
    (∀ p, isTray s = true → s.pnl.dep ≠ 0 → quiet s = false → uplinkPort s 0 = some p →
      (portAt u p).queue = (portAt s p).queue ++ [⟨2, 2, tyDepart, none, 0, departBody 4 1 (nodeId s) 0 0 0, none⟩]) ∧
    (isTray s = false ∨ s.pnl.dep = 0 ∨ quiet s = true → u.ilk = s.ilk) ∧ u = { touch s 18 with time := u.time, ilk := u.ilk, pnl := u.pnl }) ∧
  (∀ s : State, asleep s 18 = false → s.pnl.press = none ∨ s.pnl.long = true → exec .longPress s = .next (touch s 18)) ∧
  (∀ (s : State) (a : Access) (p : Nat), reaches s a 18 → isTray s = true → quiet s = false → uplinkPort s 0 = some p →
    (gridRuns s = true → s.pnl.dep = 0 → ∃ u, exec (.panelRequest a) s = .next (answered a u) ∧ u.pnl.dep = 1 ∧ u.pnl.cause = 2 ∧
      u.pnl.eD = epochNow s + 1 + drainLeadNow s ∧ u.pnl.askedAt = epochNow s ∧ u.pnl.rejoin = none ∧
      (portAt u p).queue = (portAt s p).queue ++ [⟨2, 2, tyDepart, none, 0, departBody 1 2 (nodeId s) u.pnl.eD 0 (ownExpect s), none⟩] ∧
      u = { touch s 18 with ilk := u.ilk, pnl := u.pnl }) ∧
    (gridRuns s = true → s.pnl.dep = 1 → ∃ u, exec (.panelRequest a) s = .next (answered a u) ∧ u.pnl = { s.pnl with askedAt := epochNow s } ∧
      (portAt u p).queue = (portAt s p).queue ++ [⟨2, 2, tyDepart, none, 0, departBody 1 s.pnl.cause (nodeId s) s.pnl.eD 0 (ownExpect s), none⟩]) ∧
    (gridRuns s = false ∨ 2 ≤ s.pnl.dep → exec (.panelRequest a) s = .next (answered a (touch s 18))) ∧
    (s.pnl.dep ≠ 0 → ∃ u, exec (.panelCancel a) s = .next (answered a u) ∧
      (portAt u p).queue = (portAt s p).queue ++ [⟨2, 2, tyDepart, none, 0, departBody 4 2 (nodeId s) 0 0 0, none⟩] ∧ u = { touch s 18 with ilk := u.ilk }) ∧
    (s.pnl.dep = 0 → exec (.panelCancel a) s = .next (answered a (touch s 18)))) ∧
  (∀ (s : State) (p : Nat), isTray s = true → s.pnl.dep = 1 → s.pnl.askedAt + drainLeadNow s ≤ epochNow s → quiet s = false → uplinkPort s 0 = some p → asleep s 18 = false →
    ∃ u, exec .departRequestRetry s = .next u ∧ u.pnl = { s.pnl with askedAt := epochNow s } ∧
    (portAt u p).queue = (portAt s p).queue ++ [⟨2, 2, tyDepart, none, 0, departBody 1 s.pnl.cause (nodeId s) s.pnl.eD 0 (ownExpect s), none⟩] ∧
    u = { touch s 18 with ilk := u.ilk, pnl := u.pnl }) ∧
  (∀ s : State, asleep s 18 = false → isTray s = false ∨ s.pnl.dep ≠ 1 ∨ epochNow s < s.pnl.askedAt + drainLeadNow s ∨ quiet s = true →
    exec .departRequestRetry s = .next (touch s 18)) ∧
  (∀ (s : State) (p : Nat) (b : Bytes) (c : ChildEnt) (i : Nat), rxClosed s p = false → mmQuiet s = false → asleep s 14 = false → frameFails s p false b = none → (frameAt b).ty = tyDepart →
    let d := (frameAt b).payload
    childOnPort (topoOf s) p = some c → c.node = departNode d → childIndex (topoOf s) c.node = some i →
    (byteAt d 0 = 1 → ∃ u, exec (.departRequestReceive p b) s = .next (safeCheck u) ∧
      let e := max (departEpoch d) (epochNow s + 2)
      departed u e i = true ∧ u.sealing.grants = s.sealing.grants.filter (fun g => g.1 != i) ++ [(i, e, byteAt d 1)] ∧
      (portAt u p).queue = (portAt s p).queue ++ [⟨2, 2, tyDepart, none, 0, departBody 2 (byteAt d 1) (departNode d) e 0 0, none⟩] ∧
      u = { s with pow := u.pow, rst := u.rst, mm := u.mm, rc := u.rc, sealing := u.sealing, ilk := u.ilk, erc := u.erc, cmp := u.cmp, flt := u.flt, boot := u.boot }) ∧
    (byteAt d 0 = 4 → ∃ u, exec (.departCancelReceive p b) s = .next u ∧ (∀ g ∈ u.sealing.grants, g.1 ≠ i) ∧
      (portAt u p).queue = (portAt s p).queue ++ [⟨2, 2, tyDepart, none, 0, departBody 5 (byteAt d 1) (departNode d) (epochNow s + 2) 0 0, none⟩] ∧
      (∀ m ∈ u.sealing.departs, m.1 = i → m.2.2.isSome = true) ∧ u = { touch s 14 with sealing := u.sealing, ilk := u.ilk })) ∧
  (∀ (s : State) (p : Nat) (b : Bytes), rxClosed s p = false → mmQuiet s = false → asleep s 14 = false → frameFails s p false b = none → (frameAt b).ty = tyDepart →
    let d := (frameAt b).payload
    departNode d = nodeId s → uplinkPort s 0 = some p →
    (byteAt d 0 = 2 → s.pnl.dep = 1 → ∃ u, exec (.departGrantReceive p b) s = .next u ∧ u.pnl = { s.pnl with dep := 2, eD := departEpoch d } ∧ u = { touch s 14 with ilk := u.ilk, pnl := u.pnl }) ∧
    (byteAt d 0 = 3 → s.pnl.dep = 2 → ∃ u, exec (.departSafeReceive p b) s = .next u ∧ u.pnl = { s.pnl with dep := 3 } ∧ u = { touch s 14 with ilk := u.ilk, pnl := u.pnl }) ∧
    (byteAt d 0 = 5 → s.pnl.dep ≠ 0 → ∃ u, exec (.departCancelledReceive p b) s = .next u ∧ u.pnl.dep = 0 ∧ u.pnl.rejoin = some (departEpoch d) ∧
      u.pnl.eD = (if s.pnl.dep = 1 then departEpoch d else s.pnl.eD) ∧ u = { touch s 14 with ilk := u.ilk, pnl := u.pnl }) ∧
    (byteAt d 0 = 2 → s.pnl.dep ≠ 1 → ∃ u, exec (.departGrantReceive p b) s = .next u ∧ u.pnl = s.pnl) ∧
    (byteAt d 0 = 3 → s.pnl.dep ≠ 2 → ∃ u, exec (.departSafeReceive p b) s = .next u ∧ u.pnl = s.pnl)) ∧
  (∀ (s : State) (p op : Nat) (b : Bytes), asleep s 14 = false → byteAt (frameAt b).payload 0 = op → (op ≠ 1 → exec (.departRequestReceive p b) s = .next (touch s 14)) ∧
    (op ≠ 2 → exec (.departGrantReceive p b) s = .next (touch s 14)) ∧ (op ≠ 3 → exec (.departSafeReceive p b) s = .next (touch s 14)) ∧
    (op ≠ 4 → exec (.departCancelReceive p b) s = .next (touch s 14)) ∧ (op ≠ 5 → exec (.departCancelledReceive p b) s = .next (touch s 14)))

/-- A lock read takes a free mailbox, RELEASE is the owner's and FORCE view 0's; a NOP completes OK and a message that fails a check with its code. -/
def Obligations.MailboxesAreOwnedAndTakeMessagesInOrder : Prop :=
  (∀ (s : State) (a : Access) (m : Nat), mbxReaches s a m → aget s.bus.latches (a.rq, .host (.mbxLock m)) = none →
    ((mbxAt s m).owner = none → exec (.mailboxLockRead a m) s = .next (gave a 0 (modMbx s m (fun k => { k with owner := some a.rq })))) ∧
    ((mbxAt s m).owner = some a.rq → exec (.mailboxLockRead a m) s = .next (gave a 0 s)) ∧
    (∀ o, (mbxAt s m).owner = some o → o ≠ a.rq → exec (.mailboxLockRead a m) s = .next (gave a (ownerWord o) s))) ∧
  (∀ (s : State) (a : Access) (m : Nat), mbxReaches s a m →
    ((mbxAt s m).owner = some a.rq → exec (.mailboxRelease a m) s = .next (answered a (modMbx (touch s 15) m (fun k => { k with owner := none })))) ∧
    ((mbxAt s m).owner ≠ some a.rq → exec (.mailboxRelease a m) s = .next (answered a (touch s 15))) ∧
    (viewOf a = 0 → exec (.mailboxForceRelease a m) s = .next (answered a (modMbx (touch s 15) m (fun k => { k with owner := none })))) ∧
    (viewOf a ≠ 0 → exec (.mailboxForceRelease a m) s = .next (answered a (touch s 15)))) ∧
  (∀ (s : State) (a : Access) (m : Nat) (d : Word), mbxReaches s a m → d.getLsbD 0 = true → (mbxAt s m).owner = some a.rq → (mbxAt s m).busy = false → pwrBusy s = false →
    let x := messageOf s m
    (∀ q, (mbxAt s m).lastSeq = some q → newer 16 x.seq q = true) → ∀ (c : Nat), messageBad s m x = some c ∨ (c = 0 ∧ x.op = 0 ∧ messageBad s m x = none) →
    ∃ u, (x.op = 0 → exec (.nop a m d) s = .next (answered a u)) ∧ (9 < x.op → c = 2 ∧ exec (.doorbellUnknownOpcode a m d) s = .next (answered a u)) ∧
      (x.op = 1 → exec (.dma a m d) s = .next (answered a u)) ∧ (x.op = 2 → exec (.leapRun a m d) s = .next (answered a u)) ∧
      (x.op = 3 → exec (.ptpTx a m d) s = .next (answered a u)) ∧ (x.op = 4 → exec (.viewCfg a m d) s = .next (answered a u)) ∧
      mbxAt u m = { mbxAt s m with busy := false, done := true, trunc := false, ackSeq := x.seq, ackCode := c, lastSeq := some x.seq, msg := none, cmd := none } ∧
      (∀ n, n ≠ m → mbxAt u n = mbxAt s n) ∧ (m < 8 → u = { touch s 15 with host := { s.host with mboxes := u.host.mboxes } }) ∧
      (∀ v, v ≠ 13 → powOf u v = powOf (touch s 15) v) ∧
      u = { s with pow := u.pow, mm := u.mm, host := { s.host with mboxes := u.host.mboxes, views := u.host.views } }) ∧
  (∀ (s : State) (a : Access) (m : Nat) (d : Word), mbxReaches s a m →
    let x := messageOf s m
    ((mbxAt s m).owner ≠ some a.rq ∨ (d.getLsbD 0 = true ∧ (mbxAt s m).busy = true) →
      (x.op = 0 → exec (.nop a m d) s = .next (answered a (rcInc (touch s 15) (.mbxIgnored m)))) ∧
      (9 < x.op → exec (.doorbellUnknownOpcode a m d) s = .next (answered a (rcInc (touch s 15) (.mbxIgnored m)))) ∧
      (x.op = 1 → exec (.dma a m d) s = .next (answered a (rcInc (touch s 15) (.mbxIgnored m)))) ∧
      (x.op = 2 → exec (.leapRun a m d) s = .next (answered a (rcInc (touch s 15) (.mbxIgnored m))))) ∧
    (∀ q, (mbxAt s m).owner = some a.rq → d.getLsbD 0 = true → (mbxAt s m).busy = false → (mbxAt s m).lastSeq = some q → newer 16 x.seq q = false →
      (x.op = 0 → exec (.nop a m d) s = .next (answered a (rcInc (touch s 15) (.mbxSeqDrop m)))) ∧
      (x.op = 1 → exec (.dma a m d) s = .next (answered a (rcInc (touch s 15) (.mbxSeqDrop m)))))) ∧
  (∀ (s : State) (a : Access) (m : Nat) (d : Word), ((messageOf s m).op ≠ 0 → exec (.nop a m d) s = .next s) ∧
    ((messageOf s m).op ≤ 9 → exec (.doorbellUnknownOpcode a m d) s = .next s))

/-- A doorbell whose message passes the checks of R619 keeps it, makes the mailbox busy and reads the body its command needs. -/
def Obligations.DoorbellsReadTheirMessageBodies : Prop :=
  (∀ (s : State) (a : Access) (m : Nat) (d : Word), mbxReaches s a m → d.getLsbD 0 = true → (mbxAt s m).owner = some a.rq → (mbxAt s m).busy = false → pwrBusy s = false →
    let x := messageOf s m
    (∀ q, (mbxAt s m).lastSeq = some q → newer 16 x.seq q = true) → messageBad s m x = none → x.op ≠ 0 →
    ∃ u, (x.op = 1 → exec (.dma a m d) s = .next (answered a u)) ∧ (x.op = 2 → exec (.leapRun a m d) s = .next (answered a u)) ∧
      (x.op = 3 → exec (.ptpTx a m d) s = .next (answered a u)) ∧ (x.op = 4 → exec (.viewCfg a m d) s = .next (answered a u)) ∧
      (x.op = 5 → exec (.viewFreeze a m d) s = .next (answered a u)) ∧ (x.op = 6 → exec (.viewThaw a m d) s = .next (answered a u)) ∧
      (x.op = 7 → exec (.viewSave a m d) s = .next (answered a u)) ∧ (x.op = 8 → exec (.viewRestore a m d) s = .next (answered a u)) ∧
      (x.op = 9 → exec (.viewReset a m d) s = .next (answered a u)) ∧
      mbxAt u m = { mbxAt s m with busy := true, done := false, trunc := false, lastSeq := some x.seq, msg := some x, cmd := some .body } ∧
      (∃ j ∈ u.mm.jobs, j.owner = .mbxBody m ∧ j.write = false ∧ j.qos = 2 ∧ j.addr = x.ptr ∧ j.len = x.len) ∧
      (∀ n, n ≠ m → mbxAt u n = mbxAt s n) ∧ (∀ v, v ≠ 13 → powOf u v = powOf (touch s 15) v) ∧
      u = { s with pow := u.pow, mm := u.mm, host := { s.host with mboxes := u.host.mboxes } }) ∧
  (∀ (s : State) (a : Access) (m : Nat) (d : Word),
    ((messageOf s m).op ≠ 1 → exec (.dma a m d) s = .next s) ∧ ((messageOf s m).op ≠ 2 → exec (.leapRun a m d) s = .next s) ∧
    ((messageOf s m).op ≠ 3 → exec (.ptpTx a m d) s = .next s) ∧ ((messageOf s m).op ≠ 4 → exec (.viewCfg a m d) s = .next s) ∧
    ((messageOf s m).op ≠ 5 → exec (.viewFreeze a m d) s = .next s) ∧ ((messageOf s m).op ≠ 6 → exec (.viewThaw a m d) s = .next s) ∧
    ((messageOf s m).op ≠ 7 → exec (.viewSave a m d) s = .next s) ∧ ((messageOf s m).op ≠ 8 → exec (.viewRestore a m d) s = .next s) ∧
    ((messageOf s m).op ≠ 9 → exec (.viewReset a m d) s = .next s)) ∧
  (∀ (s : State) (a : Access), reaches s a 13 →
    exec (.dmaHaltClear a) s = .next (answered a (mbxSettle { touch s 13 with mm := { s.mm with halted := dropKey s.mm.halted (rwGet s .dmaChSel) } })))

/-- A body that has arrived acts: views freeze, thaw, save, restore and reset, PTP frames wait on their port, bad bodies complete with their code. -/
def Obligations.BodiesActAsTheirCommandsSay : Prop :=
  (∀ (s : State) (tag m : Nat) (x : MmTx) (j : MmJob) (b : Bytes), lookup s.mm.tags tag = some x → x.write = false → x.owner = .mbxBody m → mmJobOf s x.owner = some j →
    j.err = 0 → j.len ≤ j.issued → j.left = txBytes j x → (mbxAt s m).cmd = some .body → ∃ u,
    exec (.mmReadBeat tag b true 0) s = .next (mmPump (pumpRuns (mbxSettle (bodyDoneAt u m (takeBeat j x b).data)))) ∧
    u.mm.tags = dropKey s.mm.tags tag ∧ u.mm.jobs.filter (fun k => k.owner != x.owner) = s.mm.jobs.filter (fun k => k.owner != x.owner) ∧ u = { s with mm := u.mm }) ∧
  (∀ (s : State) (m : Nat) (b : Bytes) (x : Msg), (mbxAt s m).msg = some x → headOkFor s x.op b = true →
    let v := headView b
    let t := bodyDoneAt s m b
    (x.op = 5 → (viewAt s v).st = 1 → (viewAt t v).st = 2 ∧ (mbxAt t m).cmd = some (.freezeWait v) ∧ (∀ w, w ≠ v → viewAt t w = viewAt s w)) ∧
    (x.op = 6 → m < 8 → (viewAt s v).st = 2 → (viewAt t v).st = 1 ∧ (mbxAt t m).done = true ∧ (mbxAt t m).busy = false ∧ (mbxAt t m).ackCode = 0) ∧
    (x.op = 7 → (viewAt s v).st = 2 → (mbxAt t m).cmd = some .saveWrite ∧ ∃ j, t.mm.jobs = s.mm.jobs ++ [j] ∧ j.write = true ∧ j.addr = headAddr b ∧ j.data = blobOf s v) ∧
    (x.op = 8 → bodyEntOk s b 16 = true → (readViewEnt b 16).view = v → (viewAt s v).st = 0 → dmaRoom s (readViewEnt b 16) = true →
      (readViewEnt b 16).sramKib / 64 ≤ poolFree s → (mbxAt t m).cmd = some (.restoreRead (readViewEnt b 16)) ∧
      ∃ j, t.mm.jobs = s.mm.jobs ++ [j] ∧ j.write = false ∧ j.addr = headAddr b ∧ j.len = 256) ∧
    (x.op = 9 → (viewAt s v).st = 1 ∨ (viewAt s v).st = 2 → (headMode b).testBit 0 = false → (viewAt t v).st = 3 ∧ (viewAt t v).removing = (headMode b).testBit 1 ∧
      (mbxAt t m).cmd = some (.resetWait v)) ∧
    (m < 8 → (x.op = 5 ∧ (viewAt s v).st ≠ 1) ∨ (x.op = 6 ∧ (viewAt s v).st ≠ 2) ∨ (x.op = 7 ∧ (viewAt s v).st ≠ 2) ∨
        (x.op = 9 ∧ ((viewAt s v).st = 0 ∨ (viewAt s v).st = 3)) →
      (mbxAt t m).ackCode = 0x0D ∧ (mbxAt t m).busy = false ∧ (mbxAt t m).done = true ∧ ∀ w, viewAt t w = viewAt s w)) ∧
  (∀ (s : State) (m : Nat) (b : Bytes) (x : Msg), (mbxAt s m).msg = some x → m < 8 →
    let t := bodyDoneAt s m b
    (x.op = 1 → (chainOf b (b.length / 32) 0).any (fun o => !descOk b o) = true → (mbxAt t m).ackCode = 7 ∧ (mbxAt t m).busy = false ∧ (mbxAt t m).ackSeq = x.seq) ∧
    (∀ c, x.op = 2 → ((List.range (b.length / 64)).map (· * 64)).findSome? (runDescBad s 0 b) = some c → (mbxAt t m).ackCode = c ∧ (mbxAt t m).busy = false ∧
      t.leap = s.leap) ∧
    (x.op = 3 → (entOfPort s (byteAt b 0)).isSome = true → byteAt b 1 = 0 → byteAt b 2 ≤ 1 → byteAt b 3 = 0 → 34 ≤ leAt b 4 2 → leAt b 4 2 ≤ 192 →
      b.length = 32 + roundUp (leAt b 4 2) 4 → (portAt t (byteAt b 0)).queue = (portAt s (byteAt b 0)).queue ++ [⟨2, 2, tyPtp, none, 0, [], some m⟩] ∧
      (mbxAt t m).cmd = some (.ptp (byteAt b 0) 0 (byteAt b 2 == 1) ⟨leAt b 8 6, leAt b 14 4⟩ (sliceOf b 32 (leAt b 4 2)))) ∧
    (x.op = 4 → bodyEntOk s b 0 = true → (viewAt s (readViewEnt b 0).view).st ≠ 3 → dmaRoom s (readViewEnt b 0) = true →
      (readViewEnt b 0).sramKib / 64 - (viewAt s (readViewEnt b 0).view).units.length ≤ poolFree s →
      ∃ us, (mbxAt t m).cmd = some (.cfgEdge (readViewEnt b 0) us) ∧ (∀ w, viewAt t w = viewAt s w) ∧ ∀ u ∈ us, (usedUnits s).contains u = false)) ∧
  (∀ (s : State) (v : Nat), resetReady s v = true → asleep s 16 = false → ∃ u, exec (.viewResetComplete v) s = .next (mbxSettle u) ∧
    (viewAt u v).st = (if (viewAt s v).removing then 0 else 1) ∧ (viewAt u v).acct = 0 ∧ (viewAt u v).dlvWr = 0 ∧ (viewAt u v).dlvSeq = 0 ∧
    ((viewAt s v).removing = true → (viewAt u v).ent = none ∧ (viewAt u v).units = [] ∧ (viewAt u v).chan = none) ∧
    (mbxAt u (7 + v)).owner = none ∧ (mbxAt u (7 + v)).lastSeq = none ∧ (∀ r, viewReg v r = true → rwGet u r = 0) ∧ (∀ r, viewCount v r = true → rcGet u r = 0) ∧
    u = { s with pow := u.pow, rst := u.rst, mm := u.mm, rc := u.rc, rw := u.rw, time := u.time, host := u.host, erc := u.erc, cmp := u.cmp, flt := u.flt, mem := u.mem, boot := u.boot }) ∧
  (∀ (s : State) (v : Nat), resetReady s v = false → asleep s 16 = false → exec (.viewResetComplete v) s = .next (touch s 16))

/-- STAGE starts or is refused busy, STAGING_DONE leaves the image staged or rejected, SCHEDULE_LOCAL schedules or activates, and the old image goes. -/
def Obligations.ImagesAreStagedScheduledAndReleased : Prop :=
  (∀ (s : State) (a : Access) (n : Nat), reaches s a 14 →
    let slot := if n = 0 then 0 else 1
    let blocked := noFirmware s || quiet s || (trialRuns s && slot != s.boot.cur.imgSlot) || s.img.st == .staging || s.img.st == .scheduled ||
      (s.img.st == .releasing && s.img.old.isSome)
    (blocked = true → exec (.stage a n) s = .next (answered a { touch s 14 with img := { s.img with busy := true } })) ∧
    (blocked = false → s.img.st ≠ .staged →
      exec (.stage a n) s = .next (answered a { touch s 14 with img := { s.img with st := .staging, loading := some (slot, false) } })) ∧
    (blocked = false → s.img.st = .staged → ∃ u, exec (.stage a n) s = .next (answered a u) ∧
      u.img = { s.img with staged := none, slot := 0, st := .staging, loading := some (slot, false) } ∧ (∀ x ∈ u.leap.loads, x.staged = false) ∧
      u = { s with pow := u.pow, mm := u.mm, rc := u.rc, feat := u.feat, leap := u.leap, img := u.img, host := u.host, erc := u.erc })) ∧
  (∀ (s : State) (a : Access), reaches s a 14 → quiet s = false →
    (s.img.st = .staging → exec (.discardStaged a) s = .next (answered a (leapSettle (touch s 14)
      { touch s 14 with img := { s.img with st := .rejected, loading := none, reject := 0x11, detail := 0 } }))) ∧
    (s.img.st = .staged → ∃ u, exec (.discardStaged a) s = .next (answered a (leapSettle (touch s 14) u)) ∧
      u.img = { s.img with st := .idle, staged := none, slot := 0 } ∧ (∀ x ∈ u.leap.loads, x.staged = false) ∧ u = { s with pow := u.pow, mm := u.mm, rc := u.rc, feat := u.feat, leap := u.leap, img := u.img, host := u.host, erc := u.erc }) ∧
    (s.img.st = .scheduled → ∃ u, exec (.discardStaged a) s = .next (answered a (leapSettle (touch s 14) u)) ∧ u.img = { s.img with staged := none, slot := 0 } ∧
      (∀ x ∈ u.leap.loads, x.staged = false) ∧ u = { s with pow := u.pow, mm := u.mm, rc := u.rc, feat := u.feat, leap := u.leap, img := u.img, host := u.host, erc := u.erc })) ∧
  (∀ (s : State) (a : Access), reaches s a 14 → noFirmware s = false → quiet s = false →
    let hi := rwGet s (.actEpoch true)
    let eA := rwGet s (.actEpoch false) + hi % 65536 * 2 ^ 32
    (∀ im, s.img.active = some im → gridRuns s = true → tooSoon s eA = false → ∃ u, exec (.scheduleLocal a) s = .next (answered a (pumpRuns (leapSettle (touch s 14) u))) ∧
      (∃ k, u.img.sched = some k ∧ k.gen = hi / 65536 ∧ k.eA = eA ∧ k.e = im.node.e ∧ k.lPeer = im.node.lPeer ∧ k.late = decide (eA < epochNow s + 2)) ∧
      u.img.active = some im ∧ u = { touch s 14 with img := u.img }) ∧
    (hasImage s = true → gridRuns s = true → tooSoon s eA = true →
      exec (.scheduleLocal a) s = .next (answered a (pumpRuns (leapSettle (touch s 14) { touch s 14 with img := { s.img with refused := true } })))) ∧
    (∀ im, hasImage s = false ∨ gridRuns s = false → s.img.staged = some im → im.gen = hi / 65536 → immediateFits s im = true → ∃ u,
      exec (.scheduleLocal a) s = .next (answered a (pumpRuns (leapSettle (touch s 14) u))) ∧ u.img.active = some im ∧ u.img.gen = im.gen ∧ u.img.staged = none ∧
      u.boot.st = 4 ∧ u.adj = [])) ∧
  (∀ (s : State) (a : Access), reaches s a 14 → hasImage s = false → s.img.staged = none →
      exec (.scheduleLocal a) s = .next (answered a (pumpRuns (leapSettle (touch s 14) { touch s 14 with img := { s.img with busy := true } })))) ∧
  (∀ (s : State) (slot : Nat) (startup : Bool), s.img.loading = some (slot, startup) → quiet s = false → asleep s 14 = false →
    let b := slotItem s (.img slot) imageLen
    (startup = false → imageBad s (.img slot) false b = none → ∃ u, exec .stagingDone s = .next (settled (touch s 14) u) ∧ u.img.staged = some (readImage s.integ b) ∧
      u.img.st = (if s.img.sched.isSome then .scheduled else .staged) ∧ u.img.loading = none ∧ u.img.slot = slot + 1 ∧ u.img.reject = 0 ∧ u.img.active = s.img.active ∧
      u = { s with pow := u.pow, mm := u.mm, rc := u.rc, feat := u.feat, leap := u.leap, img := u.img, host := u.host, erc := u.erc }) ∧
    (∀ r, startup = false → imageBad s (.img slot) false b = some r → exec .stagingDone s = .next (settled (touch s 14) { touch s 14 with
      img := { s.img with st := .rejected, loading := none, reject := r.1, detail := r.2.1 * 2 ^ 24 + r.2.2 % 2 ^ 24 } })) ∧
    (startup = true → imageBad s (.img slot) true b = none → immediateFits s (readImage s.integ b) = true → ∃ u, exec .stagingDone s = .next (settled (touch s 14) u) ∧
      u.img.active = some (readImage s.integ b) ∧ u.img.gen = (readImage s.integ b).gen ∧ u.boot.st = 4 ∧
      u = { s with pow := u.pow, rst := u.rst, mm := u.mm, rc := u.rc, rw := u.rw, adj := u.adj, time := u.time, cap := u.cap, feat := u.feat, leap := u.leap, img := u.img, red := u.red, sealing := u.sealing, vrd := u.vrd, ilk := u.ilk, pnl := u.pnl, host := u.host, trc := u.trc, erc := u.erc, cmp := u.cmp, flt := u.flt, mem := u.mem, boot := u.boot }) ∧
    (∀ r, startup = true → imageBad s (.img slot) true b = some r → s.boot.triedImg = true → ∃ u, exec .stagingDone s = .next (settled (touch s 14) u) ∧ u.boot.st = 3 ∧
      u.img.st = .rejected ∧ u.img.reject = r.1 ∧ u = { touch s 14 with img := u.img, boot := u.boot }) ∧
    (∀ r, startup = true → imageBad s (.img slot) true b = some r → s.boot.triedImg = false → ∃ u, exec .stagingDone s = .next (settled (touch s 14) u) ∧
      u.img.loading = some (1 - slot, true) ∧ u.rst.fallback = true ∧ u.boot.cur.imgSlot = 1 - slot ∧ u = { touch s 14 with rst := u.rst, img := u.img, boot := u.boot })) ∧
  (∀ s : State, asleep s 14 = false → s.img.loading = none ∨ quiet s = true → exec .stagingDone s = .next (settled (touch s 14) (touch s 14))) ∧
  (∀ (s : State) (x : Nat), releaseEpoch s = some x → x ≤ epochNow s → ∃ u, exec .oldImageRelease s = .next u ∧ u.img.old = none ∧ u.img.oldRegs = [] ∧
    (s.img.st = .releasing → u.img.st = (if s.img.sched.isSome then .scheduled else .idle)) ∧ u.img.active = s.img.active ∧
    u = { s with pow := u.pow, mm := u.mm, rc := u.rc, feat := u.feat, img := u.img, vrd := u.vrd, ilk := u.ilk, host := u.host, erc := u.erc }) ∧
  (∀ s : State, releaseEpoch s = none ∨ (∃ x, releaseEpoch s = some x ∧ epochNow s < x) → exec .oldImageRelease s = .next s)

/-- SETTINGS_READ takes the newer valid copy or defaults, FIRMWARE_LOAD the first slot that passes, and a settings write lands in the other copy. -/
def Obligations.StartUpReadsSettingsAndFirmware : Prop :=
  (∀ s : State, s.rst.step = 6 → s.boot.phase = 1 → s.flt.active = false → s.boot.want = none →
    (∀ k x, settingsCopy s = some (k, 3, x) → x.trial = 0 ∨ s.boot.switching = true → ∃ u, exec .settingsRead s = .next u ∧ u.boot.cur = x ∧ u.boot.copy = k ∧
      u.boot.phase = 2 ∧ u.boot.want = none ∧ rwGet u .flashCfg = x.flash / 4 * 4 ∧ u = { s with rw := u.rw, boot := u.boot }) ∧
    (settingsCopy s = none → ∃ u, exec .settingsRead s = .next u ∧ u.boot.cur = { settingsDefault s.integ with sseq := 0 } ∧ u.boot.want = some u.boot.cur ∧
      u.boot.phase = 2 ∧ u.boot.reset = s.boot.reset ∧ u = { s with rw := u.rw, boot := u.boot }) ∧
    (∀ k v x, settingsCopy s = some (k, v, x) → v ≠ 3 → ∃ u, exec .settingsRead s = .next u ∧ u.boot.cur = { settingsDefault s.integ with sseq := x.sseq } ∧
      u.boot.want = some u.boot.cur ∧ u.boot.phase = 2 ∧ u.boot.reset = true ∧ u = { s with rw := u.rw, boot := u.boot }) ∧
    (∀ k x, settingsCopy s = some (k, 3, x) → x.trial ≠ 0 → s.boot.switching = false → ∃ u, exec .settingsRead s = .next u ∧ u.boot.want = some (abandoned x) ∧
      u.boot.after = .restart true ∧ u.boot.phase = 1 ∧ u = { s with rw := u.rw, boot := u.boot })) ∧
  (∀ s : State, s.rst.step ≠ 6 ∨ s.boot.phase ≠ 1 ∨ s.flt.active = true ∨ s.boot.want.isSome = true → exec .settingsRead s = .next s) ∧
  (∀ s : State, s.rst.step = 6 → s.boot.phase = 2 → s.flt.active = false → s.boot.st ≠ 5 →
    let a := s.boot.cur.fwSlot
    (firmwareBad s a = none → ∃ u, exec .firmwareLoad s = .next u ∧ u.boot.phase = 3 ∧ u.boot.st = 2 ∧ u.boot.cur.fwSlot = a ∧ u.boot.want = some u.boot.cur ∧
      u.boot.cur.bbBank = 1 - s.boot.cur.bbBank ∧ u.rst = s.rst ∧ u.erc.bbSets = 0 ∧
      (hasImage s = false → s.img.loading = none → pwrBusy s = false → u.img.loading = some (s.boot.cur.imgSlot, true) ∧ u.img.st = .staging) ∧
      u = { s with img := u.img, erc := u.erc, boot := u.boot }) ∧
    (s.rst.keyState = 1 → (firmwareBad s a).isSome = true → firmwareBad s (1 - a) = none → ∃ u, exec .firmwareLoad s = .next u ∧ u.boot.phase = 3 ∧ u.boot.st = 2 ∧
      u.boot.cur.fwSlot = 1 - a ∧ u.rst = { s.rst with fallback := true } ∧ u = { s with rst := u.rst, img := u.img, erc := u.erc, boot := u.boot }) ∧
    (s.rst.keyState = 2 ∨ (s.rst.keyState = 1 ∧ (firmwareBad s a).isSome = true ∧ (firmwareBad s (1 - a)).isSome = true) →
      exec .firmwareLoad s = .next { s with boot := { s.boot with st := 5 } })) ∧
  (∀ s : State, s.rst.step ≠ 6 ∨ s.boot.phase ≠ 2 ∨ s.flt.active = true ∨ s.boot.st = 5 ∨ s.rst.keyState = 0 → exec .firmwareLoad s = .next s) ∧
  (∀ (s : State) (x : Settings), s.boot.want = some x →
    let k := 1 - s.boot.copy
    let y := { x with sseq := (x.sseq + 1) % 2 ^ 32 }
    let m := memWrite 0xFF (memClear s.boot.store (0x1000 * k) 4096) (0x1000 * k) (settingsBytes y)
    (s.boot.after = .idle → exec .settingsWriteDone s = .next { s with
      boot := { s.boot with store := m, copy := k, cur := { s.boot.cur with sseq := y.sseq }, want := none, after := .idle } }) ∧
    (∀ fb, s.boot.after = .restart fb → ∃ u, exec .settingsWriteDone s = .next u ∧ u.boot.store = m ∧ u.rst.step = 5 ∧ u.rst.warm = true ∧
      u.rst.fallback = (s.rst.fallback || fb) ∧ u.boot.switching = s.boot.switching ∧ u.rst.key = s.rst.key ∧ u.img.active = none ∧ u.pending = s.pending ∧
      u.integ = s.integ)) ∧
  (∀ s : State, s.boot.want = none → exec .settingsWriteDone s = .next s)

/-- A boot-store command is taken when none runs, else CONFLICT; its completion does the operation and leaves its RESULT. -/
def Obligations.BootStoreCommandsRunOneAtATime : Prop :=
  (∀ (s : State) (a : Access), reaches s a 17 →
    let take := fun (op : Nat) => (if s.boot.cmd.isSome then { touch s 17 with boot := { s.boot with conflict := true } }
      else { touch s 17 with boot := { s.boot with cmd := some ⟨op, rwGet s .bstAddr, rwGet s .bstLen⟩ } } : State)
    exec (.erase a) s = .next (answered a (take 1)) ∧ exec (.program a) s = .next (answered a (take 2)) ∧ exec (.read a) s = .next (answered a (take 3)) ∧
    exec (.check a) s = .next (answered a (take 4)) ∧ exec (.saveFlash a) s = .next (answered a (take 5))) ∧
  (∀ (s : State) (c : BstCmd) (e : Bool), s.boot.cmd = some c → asleep s 12 = false →
    let v := touch s 12
    (∀ r, c.op = 1 ∨ c.op = 2 ∨ c.op = 3 → rangeBad s c = some r →
      exec (.bootStoreCommandDone e) s = .next { v with boot := { s.boot with cmd := none, result := r, detail := 0 } }) ∧
    (c.op = 1 → rangeBad s c = none → e = false →
      exec (.bootStoreCommandDone e) s = .next { v with boot := { s.boot with store := memClear s.boot.store c.addr c.len, cmd := none, result := 0, detail := 0 } }) ∧
    (c.op = 1 ∨ c.op = 2 → rangeBad s c = none → e = true → ∃ u, exec (.bootStoreCommandDone e) s = .next u ∧ u.freeDraws = s.freeDraws + c.len ∧
      u.boot.store = memWrite 0xFF s.boot.store c.addr ((List.range c.len).map (fun i => Config.flashOpen (s.freeDraws + i))) ∧ u.boot.result = 4 ∧
      u.boot.cmd = none ∧ u = { v with boot := u.boot, freeDraws := u.freeDraws }) ∧
    (c.op = 2 → rangeBad s c = none → e = false →
      let r := sramRead v false (bufAddr s) c.len
      ∃ u, exec (.bootStoreCommandDone e) s = .next u ∧ u.boot.store = flashProgram r.1.boot.store c.addr r.2.1 ∧ u.boot.cmd = none ∧
      u.boot.result = (if memRead 0xFF u.boot.store c.addr c.len = r.2.1 then 0 else 4) ∧ u.mem = r.1.mem) ∧
    (c.op = 3 → rangeBad s c = none → ∃ u, exec (.bootStoreCommandDone e) s = .next u ∧ u.boot.cmd = none ∧ u.boot.result = 0 ∧
      u.mem = (sramWrite v false (bufAddr s) (storeRead s c.addr c.len)).mem) ∧
    (c.op = 5 → e = false → ∃ u, exec (.bootStoreCommandDone e) s = .next u ∧ u.boot.result = 0 ∧ u.boot.cmd = none ∧ u.boot.cur.flash = rwGet s .flashCfg ∧
      u.boot.copy = 1 - s.boot.copy ∧ u.boot.cur.sseq = (s.boot.cur.sseq + 1) % 2 ^ 32 ∧ u = { v with boot := u.boot }) ∧
    (c.op = 5 → e = true → exec (.bootStoreCommandDone e) s = .next { v with boot := { s.boot with cmd := none, result := 4, detail := 0 } }) ∧
    (∀ k, c.op = 4 → regionOf s.integ c.addr 1 = some (.fw k) → ∃ u, exec (.bootStoreCommandDone e) s = .next u ∧ u.boot.cmd = none ∧
      u.boot.result = (if (firmwareBad s k).isNone then 0 else 5) ∧ u.boot.detail = (firmwareBad s k).getD 0 ∧ u = { v with boot := u.boot }) ∧
    (∀ k, c.op = 4 → regionOf s.integ c.addr 1 = some (.img k) → ∃ u, exec (.bootStoreCommandDone e) s = .next u ∧ u.boot.cmd = none ∧
      u.boot.result = (if (imageHeadBad s (.img k) (slotItem s (.img k) imageLen)).isNone then 0 else 5) ∧ u = { v with boot := u.boot }) ∧
    (∀ k, c.op = 4 → regionOf s.integ c.addr 1 = some (.pack k) → ∃ u, exec (.bootStoreCommandDone e) s = .next u ∧ u.boot.cmd = none ∧
      u.boot.result = (if (packBad s k).isNone then 0 else 5) ∧ u.boot.detail = ((packBad s k).map (fun q => q.1 * 256 + q.2)).getD 0 ∧ u = { v with boot := u.boot })) ∧
  (∀ (s : State) (e : Bool), asleep s 12 = true → s.boot.cmd.isSome = true → exec (.bootStoreCommandDone e) s = .next (touch s 12)) ∧
  (∀ (s : State) (e : Bool), s.boot.cmd = none → exec (.bootStoreCommandDone e) s = .next s)

/-- A firmware switch arms for a later epoch; a running trial is confirmed, confirms itself when healthy, is rejected or expires. -/
def Obligations.TrialsConfirmRejectOrExpire : Prop :=
  (∀ (s : State) (a : Access) (d : Word), reaches s a 17 →
    let slot := d.toNat / 2 ^ 29 % 2
    let epoch := rwGet s .fwEpochLo + d.toNat % 65536 * 2 ^ 32
    ∃ u, exec (.firmwareSwitchArm a d) s = .next (answered a u) ∧ u.boot.schedSlot = slot ∧ u.boot.schedHi = d.toNat % 65536 ∧
      (d.getLsbD 31 = false → u.boot.arm = s.boot.arm ∧ u.boot.refused = (s.boot.refused && !d.getLsbD 30)) ∧
      (d.getLsbD 31 = true → slot = s.boot.cur.fwSlot ∨ trialRuns s = true ∨ epoch ≤ epochNow s → u.boot.refused = true ∧ u.boot.arm = s.boot.arm) ∧
      (d.getLsbD 31 = true → slot ≠ s.boot.cur.fwSlot → trialRuns s = false → epochNow s < epoch → u.boot.arm = true) ∧
      u = { touch s 17 with boot := { s.boot with schedSlot := u.boot.schedSlot, schedHi := u.boot.schedHi, refused := u.boot.refused, arm := u.boot.arm } }) ∧
  (∀ (s : State) (a : Access), reaches s a 14 → trialRuns s = true → 3 ≤ s.boot.phase →
    exec (.trialConfirm a) s = .next (answered a { touch s 14 with
      boot := { s.boot with cur := { s.boot.cur with trial := 0 }, want := some { s.boot.cur with trial := 0 } } }) ∧
    exec (.trialReject a) s = .next (answered a { touch s 14 with
      boot := { s.boot with cur := abandoned s.boot.cur, want := some (abandoned s.boot.cur), after := .restart true } })) ∧
  (∀ (s : State) (a : Access), reaches s a 14 → trialRuns s = false ∨ s.boot.phase < 3 →
    exec (.trialConfirm a) s = .next (answered a (touch s 14)) ∧ exec (.trialReject a) s = .next (answered a (touch s 14))) ∧
  (∀ s : State, trialRuns s = true → 3 ≤ s.boot.phase → rwGet s .confirmHold = 0 → healthy s = true →
    exec .trialSelfConfirm s = .next { s with boot := { s.boot with cur := { s.boot.cur with trial := 0 }, want := some { s.boot.cur with trial := 0 } } }) ∧
  (∀ s : State, trialRuns s = false ∨ s.boot.phase < 3 ∨ rwGet s .confirmHold ≠ 0 ∨ healthy s = false → exec .trialSelfConfirm s = .next s) ∧
  (∀ s : State, trialRuns s = true → 3 ≤ s.boot.phase → exec .trialExpiry s = .next { advanceSlow s (s.boot.trialAt + 983040) with
    boot := { s.boot with cur := abandoned s.boot.cur, want := some (abandoned s.boot.cur), after := .restart true } }) ∧
  (∀ s : State, trialRuns s = false ∨ s.boot.phase < 3 → exec .trialExpiry s = .next s) ∧
  (∀ (s : State) (a : Access) (d : Word), reaches s a 17 →
    exec (.packSelect a d) s = .next (answered a { touch s 17 with boot := { s.boot with packWant := some (d.toNat % 2) } }))

/-- Every step keeps the invariant, never changes the integration parameters, and takes exactly the front command off the queue. -/
def Obligations.EveryStepKeepsTheInvariant : Prop :=
  ∀ s t : State, BlockInv s → step s = .next t → BlockInv t ∧ t.integ = s.integ ∧ t.pending = s.pending.tail

/-- The state right after reset meets the invariant, and so does a power-on reset of any integration over a boot store in canonical form. -/
def Obligations.ResetMeetsTheInvariant : Prop :=
  BlockInv State.reset ∧ ∀ (g : Integ) (p : Straps) (store : List Host.Cell), Memory.wf 0xFF store = true → BlockInv (State.initial g p store)
end

