-- ==== Sys2Proof/Laws/Access.lean ====
section
/-!
SUPPORT. A register access that reaches its register does what the register does, and is acknowledged: the statements about register commands rest on
these two facts.
-/
namespace Sys2Proof.Machine

variable {s : State} {a : Access} {u off d : Nat} {r x : Reg}

theorem viewOf_portTakes (h : portTakes s a) : viewOf a = 0 := by
  obtain ⟨rq, v⟩ := a
  cases rq with
  | svc => rfl
  | reg n => exact h.1

/-- Everything a write of a register of an awake unit does. -/
theorem putAt_reaches (h : reaches s a u) (ht : targetAt s 0 (off / 4 * 4) = .reg u 0 r) (hx : actOn s 0 r = some x) :
    putAt s a off d = answered a (writeReg (touch s u) a 0 x d) := by
  obtain ⟨hp, h6, ha, hu⟩ := h
  have he : earlyStart s = false := by simp [earlyStart]; omega
  have hv := viewOf_portTakes hp
  have hw : accessAt s a off (some d) = (writeReg (touch s u) a 0 x d, 0) := by
    simp [accessAt, hv, ht, he, writeAt, ha, hx, hu]
  obtain ⟨rq, v⟩ := a
  cases rq with
  | svc => simp [putAt, accessOp, answered, hw]
  | reg n =>
    have hq : ¬ 8 ≤ s.bus.queue.length := by have := hp.2; omega
    simp [putAt, accessOp, answered, gave, hw, portFull, hq, ackReg, modBus]

/-- Everything a read of a register does. -/
theorem getAt_reaches (hp : portTakes s a) (h6 : 6 ≤ s.rst.step) (ht : targetAt s 0 (off / 4 * 4) = .reg u 0 r) (hx : actOn s 0 r = some x) :
    getAt s a off = gave a (readReg s a.rq x).2 (readReg s a.rq x).1 := by
  have he : earlyStart s = false := by simp [earlyStart]; omega
  have hv := viewOf_portTakes hp
  have hw : accessAt s a off none = readReg s a.rq x := by
    simp [accessAt, hv, ht, he, readAt, hx]
  obtain ⟨rq, v⟩ := a
  cases rq with
  | svc => simp [getAt, accessOp, gave, hw, ackReg, modBoot]
  | reg n =>
    have hq : ¬ 8 ≤ s.bus.queue.length := by have := hp.2; omega
    simp [getAt, accessOp, gave, hw, portFull, hq, ackReg, modBus]

end Sys2Proof.Machine
end

