-- ==== Sys2Proof/Laws/Memory.lean ====
section
/-!
SUPPORT. Stored bytes: every operation keeps the canonical form, a byte reads as it was stored, and a store leaves every other byte alone.
-/
namespace Sys2Proof.Machine

variable {d v : Byte} {m : List Host.Cell} {lo a n : Nat}

theorem memOk_mono (h : memOk d lo m = true) {k : Nat} (hk : k ≤ lo) : memOk d k m = true := by
  cases m with
  | nil => rfl
  | cons c r =>
    obtain ⟨b, w⟩ := c
    simp only [memOk, Bool.and_eq_true, decide_eq_true_eq] at h ⊢
    exact ⟨⟨Nat.le_trans hk h.1.1, h.1.2⟩, h.2⟩

theorem memOk_memSet (h : memOk d lo m = true) (ha : lo ≤ a) : memOk d lo (memSet d m a v) = true := by
  induction m generalizing lo with
  | nil => simp only [memSet]; split <;> simp_all [memOk]
  | cons c r ih =>
    obtain ⟨b, w⟩ := c
    simp only [memOk, Bool.and_eq_true, decide_eq_true_eq] at h
    obtain ⟨⟨hb, hw⟩, hr⟩ := h
    simp only [memSet]
    split
    · split
      · simp [memOk, hb, hw, hr]
      · simp [memOk, ha, hw, hr]; exact ⟨‹_›, ‹_›⟩
    · split
      · subst a
        split
        · exact memOk_mono hr (by omega)
        · simp [memOk, ha, hr]; exact ‹_›
      · simp only [memOk, Bool.and_eq_true, decide_eq_true_eq]
        exact ⟨⟨hb, hw⟩, ih hr (by omega)⟩

/-- Storing a byte keeps the canonical form. -/
theorem wf_memSet (h : Memory.wf d m = true) : Memory.wf d (memSet d m a v) = true := memOk_memSet h (Nat.zero_le _)

/-- Storing a run of bytes keeps the canonical form. -/
theorem wf_memWrite {b : Bytes} (h : Memory.wf d m = true) : Memory.wf d (memWrite d m a b) = true := by
  induction b generalizing m a with
  | nil => exact h
  | cons x xs ih => exact ih (wf_memSet h)

theorem memOk_filter (p : Host.Cell → Bool) (h : memOk d lo m = true) : memOk d lo (m.filter p) = true := by
  induction m generalizing lo with
  | nil => rfl
  | cons c r ih =>
    obtain ⟨b, w⟩ := c
    simp only [memOk, Bool.and_eq_true, decide_eq_true_eq] at h
    simp only [List.filter_cons]
    split
    · simp only [memOk, Bool.and_eq_true, decide_eq_true_eq]; exact ⟨h.1, ih h.2⟩
    · exact memOk_mono (ih h.2) (by omega)

/-- Clearing a span keeps the canonical form. -/
theorem wf_memClear (h : Memory.wf d m = true) : Memory.wf d (memClear m a n) = true := memOk_filter _ h

/-- The canonical form of an empty memory. -/
theorem wf_nil : Memory.wf d [] = true := rfl

/-- The memories of the state after reset are in canonical form. -/
theorem wf_reset : Memory.wf 0 State.reset.mem.sram = true ∧ Memory.wf 0xFF State.reset.boot.store = true := ⟨rfl, rfl⟩

theorem memGet_below (h : memOk d lo m = true) (ha : a < lo) : memGet d m a = d := by
  induction m generalizing lo with
  | nil => rfl
  | cons c r ih =>
    obtain ⟨b, w⟩ := c
    simp only [memOk, Bool.and_eq_true, decide_eq_true_eq] at h
    simp only [memGet, if_neg (show ¬ b = a by omega)]
    exact ih h.2 (by omega)

theorem memGet_memSet_ok (h : memOk d lo m = true) (ha : lo ≤ a) (x : Nat) :
    memGet d (memSet d m a v) x = if x = a then v else memGet d m x := by
  induction m generalizing lo with
  | nil =>
    simp only [memSet]
    split
    · subst v; simp [memGet]
    · by_cases hx : a = x
      · subst x; simp [memGet]
      · simp [memGet, hx, Ne.symm hx]
  | cons c r ih =>
    obtain ⟨b, w⟩ := c
    simp only [memOk, Bool.and_eq_true, decide_eq_true_eq] at h
    obtain ⟨⟨hb, hw⟩, hr⟩ := h
    simp only [memSet]
    split
    · split
      · by_cases hx : x = a
        · subst x v; simp only [memGet, if_neg (show ¬ b = a by omega), ite_true]
          exact memGet_below hr (by omega)
        · simp [hx]
      · by_cases hx : a = x
        · subst x; simp [memGet]
        · simp [memGet, hx, Ne.symm hx]
    · split
      · subst a
        split
        · subst v
          by_cases hx : x = b
          · subst x; simp only [ite_true]; exact memGet_below hr (by omega)
          · simp [memGet, hx, Ne.symm hx]
        · by_cases hx : b = x
          · subst x; simp [memGet]
          · simp [memGet, hx, Ne.symm hx]
      · simp only [memGet, ih hr (show b + 1 ≤ a by omega)]
        by_cases hx : b = x
        · subst x; simp [show ¬ b = a by omega]
        · simp [hx]

/-- A byte reads as it was stored, and every other byte as before. -/
theorem memGet_memSet (h : Memory.wf d m = true) (x : Nat) : memGet d (memSet d m a v) x = if x = a then v else memGet d m x :=
  memGet_memSet_ok h (Nat.zero_le _) x

/-- A run of stored bytes leaves every byte outside it alone. -/
theorem memGet_memWrite_outside {b : Bytes} (h : Memory.wf d m = true) {x : Nat} (hx : x < a ∨ a + b.length ≤ x) :
    memGet d (memWrite d m a b) x = memGet d m x := by
  induction b generalizing m a with
  | nil => rfl
  | cons y ys ih =>
    simp only [List.length_cons] at hx
    rw [memWrite, ih (wf_memSet h) (by omega), memGet_memSet h, if_neg (by omega)]

/-- A run of stored bytes reads back. -/
theorem memRead_memWrite {b : Bytes} (h : Memory.wf d m = true) : memRead d (memWrite d m a b) a b.length = b := by
  induction b generalizing m a with
  | nil => rfl
  | cons y ys ih =>
    simp only [List.length_cons, memRead, memWrite]
    rw [memGet_memWrite_outside (wf_memSet h) (by omega), memGet_memSet h, if_pos rfl, ih (wf_memSet h)]

theorem memRead_length : (memRead d m a n).length = n := by
  induction n generalizing a with
  | zero => rfl
  | succ n ih => simp [memRead, ih]

theorem memGet_memClear_ok (h : memOk d lo m = true) (x : Nat) :
    memGet d (memClear m a n) x = if a ≤ x ∧ x < a + n then d else memGet d m x := by
  induction m generalizing lo with
  | nil => simp [memClear, memGet]
  | cons c r ih =>
    obtain ⟨b, w⟩ := c
    simp only [memOk, Bool.and_eq_true, decide_eq_true_eq] at h
    have ih' := ih h.2
    simp only [memClear, List.filter_cons] at ih' ⊢
    by_cases hb : a ≤ b ∧ b < a + n
    · simp only [hb.1, hb.2, decide_true, Bool.and_self, Bool.not_true, Bool.false_eq_true, if_false, ih', memGet]
      by_cases hx : b = x
      · subst x; simp [hb]
      · simp [hx]
    · have : (!(decide (a ≤ b) && decide (b < a + n))) = true := by simp; omega
      rw [if_pos this]
      simp only [memGet, ih']
      by_cases hx : b = x
      · subst x; simp [hb]
      · simp [hx]

/-- A cleared span reads as an unlisted address does, and every other byte as before. -/
theorem memGet_memClear (h : Memory.wf d m = true) (x : Nat) :
    memGet d (memClear m a n) x = if a ≤ x ∧ x < a + n then d else memGet d m x := memGet_memClear_ok h x

/-- Equal memories are equal data: two canonical memories that read alike are the same list. -/
theorem mem_ext {k : List Host.Cell} (hm : memOk d lo m = true) (hk : memOk d lo k = true) (h : ∀ x, memGet d m x = memGet d k x) : m = k := by
  induction m generalizing lo k with
  | nil =>
    cases k with
    | nil => rfl
    | cons c r =>
      obtain ⟨b, w⟩ := c
      simp only [memOk, Bool.and_eq_true, decide_eq_true_eq] at hk
      have := h b; simp only [memGet, if_true] at this
      exact absurd this.symm hk.1.2
  | cons c r ih =>
    obtain ⟨b, w⟩ := c
    simp only [memOk, Bool.and_eq_true, decide_eq_true_eq] at hm
    cases k with
    | nil =>
      have := h b; simp only [memGet, if_true] at this
      exact absurd this hm.1.2
    | cons e q =>
      obtain ⟨b', w'⟩ := e
      simp only [memOk, Bool.and_eq_true, decide_eq_true_eq] at hk
      have e1 : b = b' := Classical.byContradiction fun hne => by
        have hlt : b < b' ∨ b' < b := by omega
        obtain hlt | hlt := hlt
        · have := h b
          simp only [memGet, if_true, if_neg (show ¬ b' = b by omega), memGet_below hk.2 (show b < b' + 1 by omega)] at this
          exact hm.1.2 this
        · have := h b'
          simp only [memGet, if_true, if_neg hne, memGet_below hm.2 (show b' < b + 1 by omega)] at this
          exact hk.1.2 this.symm
      subst e1
      have e2 : w = w' := by simpa [memGet] using h b
      subst e2
      refine congrArg _ (ih hm.2 hk.2 fun x => ?_)
      by_cases hx : b = x
      · subst x; rw [memGet_below hm.2 (by omega), memGet_below hk.2 (by omega)]
      · simpa [memGet, hx] using h x

end Sys2Proof.Machine
end

