-- ==== Sys2Proof/Laws/State.lean ====
section
/-!
SUPPORT. What each named update of the state leaves in each field, so that no proof unfolds a record update.
-/
namespace Sys2Proof.Machine

variable (s : State)


@[simp] theorem modBus_integ (f : Bus → Bus) : (modBus s f).integ = s.integ := rfl
@[simp] theorem modBus_pending (f : Bus → Bus) : (modBus s f).pending = s.pending := rfl
@[simp] theorem modBus_bus (f : Bus → Bus) : (modBus s f).bus = f s.bus := rfl
@[simp] theorem modBus_pow (f : Bus → Bus) : (modBus s f).pow = s.pow := rfl
@[simp] theorem modBus_rst (f : Bus → Bus) : (modBus s f).rst = s.rst := rfl
@[simp] theorem modBus_mm (f : Bus → Bus) : (modBus s f).mm = s.mm := rfl
@[simp] theorem modBus_rc (f : Bus → Bus) : (modBus s f).rc = s.rc := rfl
@[simp] theorem modBus_rw (f : Bus → Bus) : (modBus s f).rw = s.rw := rfl
@[simp] theorem modBus_adj (f : Bus → Bus) : (modBus s f).adj = s.adj := rfl
@[simp] theorem modBus_time (f : Bus → Bus) : (modBus s f).time = s.time := rfl
@[simp] theorem modBus_cap (f : Bus → Bus) : (modBus s f).cap = s.cap := rfl
@[simp] theorem modBus_feat (f : Bus → Bus) : (modBus s f).feat = s.feat := rfl
@[simp] theorem modBus_leap (f : Bus → Bus) : (modBus s f).leap = s.leap := rfl
@[simp] theorem modBus_img (f : Bus → Bus) : (modBus s f).img = s.img := rfl
@[simp] theorem modBus_red (f : Bus → Bus) : (modBus s f).red = s.red := rfl
@[simp] theorem modBus_sealing (f : Bus → Bus) : (modBus s f).sealing = s.sealing := rfl
@[simp] theorem modBus_vrd (f : Bus → Bus) : (modBus s f).vrd = s.vrd := rfl
@[simp] theorem modBus_ilk (f : Bus → Bus) : (modBus s f).ilk = s.ilk := rfl
@[simp] theorem modBus_mir (f : Bus → Bus) : (modBus s f).mir = s.mir := rfl
@[simp] theorem modBus_pnl (f : Bus → Bus) : (modBus s f).pnl = s.pnl := rfl
@[simp] theorem modBus_host (f : Bus → Bus) : (modBus s f).host = s.host := rfl
@[simp] theorem modBus_trc (f : Bus → Bus) : (modBus s f).trc = s.trc := rfl
@[simp] theorem modBus_erc (f : Bus → Bus) : (modBus s f).erc = s.erc := rfl
@[simp] theorem modBus_cmp (f : Bus → Bus) : (modBus s f).cmp = s.cmp := rfl
@[simp] theorem modBus_flt (f : Bus → Bus) : (modBus s f).flt = s.flt := rfl
@[simp] theorem modBus_mem (f : Bus → Bus) : (modBus s f).mem = s.mem := rfl
@[simp] theorem modBus_boot (f : Bus → Bus) : (modBus s f).boot = s.boot := rfl
@[simp] theorem modBus_freeDraws (f : Bus → Bus) : (modBus s f).freeDraws = s.freeDraws := rfl

@[simp] theorem modTime_integ (f : TimeU → TimeU) : (modTime s f).integ = s.integ := rfl
@[simp] theorem modTime_pending (f : TimeU → TimeU) : (modTime s f).pending = s.pending := rfl
@[simp] theorem modTime_bus (f : TimeU → TimeU) : (modTime s f).bus = s.bus := rfl
@[simp] theorem modTime_pow (f : TimeU → TimeU) : (modTime s f).pow = s.pow := rfl
@[simp] theorem modTime_rst (f : TimeU → TimeU) : (modTime s f).rst = s.rst := rfl
@[simp] theorem modTime_mm (f : TimeU → TimeU) : (modTime s f).mm = s.mm := rfl
@[simp] theorem modTime_rc (f : TimeU → TimeU) : (modTime s f).rc = s.rc := rfl
@[simp] theorem modTime_rw (f : TimeU → TimeU) : (modTime s f).rw = s.rw := rfl
@[simp] theorem modTime_adj (f : TimeU → TimeU) : (modTime s f).adj = s.adj := rfl
@[simp] theorem modTime_time (f : TimeU → TimeU) : (modTime s f).time = f s.time := rfl
@[simp] theorem modTime_cap (f : TimeU → TimeU) : (modTime s f).cap = s.cap := rfl
@[simp] theorem modTime_feat (f : TimeU → TimeU) : (modTime s f).feat = s.feat := rfl
@[simp] theorem modTime_leap (f : TimeU → TimeU) : (modTime s f).leap = s.leap := rfl
@[simp] theorem modTime_img (f : TimeU → TimeU) : (modTime s f).img = s.img := rfl
@[simp] theorem modTime_red (f : TimeU → TimeU) : (modTime s f).red = s.red := rfl
@[simp] theorem modTime_sealing (f : TimeU → TimeU) : (modTime s f).sealing = s.sealing := rfl
@[simp] theorem modTime_vrd (f : TimeU → TimeU) : (modTime s f).vrd = s.vrd := rfl
@[simp] theorem modTime_ilk (f : TimeU → TimeU) : (modTime s f).ilk = s.ilk := rfl
@[simp] theorem modTime_mir (f : TimeU → TimeU) : (modTime s f).mir = s.mir := rfl
@[simp] theorem modTime_pnl (f : TimeU → TimeU) : (modTime s f).pnl = s.pnl := rfl
@[simp] theorem modTime_host (f : TimeU → TimeU) : (modTime s f).host = s.host := rfl
@[simp] theorem modTime_trc (f : TimeU → TimeU) : (modTime s f).trc = s.trc := rfl
@[simp] theorem modTime_erc (f : TimeU → TimeU) : (modTime s f).erc = s.erc := rfl
@[simp] theorem modTime_cmp (f : TimeU → TimeU) : (modTime s f).cmp = s.cmp := rfl
@[simp] theorem modTime_flt (f : TimeU → TimeU) : (modTime s f).flt = s.flt := rfl
@[simp] theorem modTime_mem (f : TimeU → TimeU) : (modTime s f).mem = s.mem := rfl
@[simp] theorem modTime_boot (f : TimeU → TimeU) : (modTime s f).boot = s.boot := rfl
@[simp] theorem modTime_freeDraws (f : TimeU → TimeU) : (modTime s f).freeDraws = s.freeDraws := rfl

@[simp] theorem modCap_integ (f : CapU → CapU) : (modCap s f).integ = s.integ := rfl
@[simp] theorem modCap_pending (f : CapU → CapU) : (modCap s f).pending = s.pending := rfl
@[simp] theorem modCap_bus (f : CapU → CapU) : (modCap s f).bus = s.bus := rfl
@[simp] theorem modCap_pow (f : CapU → CapU) : (modCap s f).pow = s.pow := rfl
@[simp] theorem modCap_rst (f : CapU → CapU) : (modCap s f).rst = s.rst := rfl
@[simp] theorem modCap_mm (f : CapU → CapU) : (modCap s f).mm = s.mm := rfl
@[simp] theorem modCap_rc (f : CapU → CapU) : (modCap s f).rc = s.rc := rfl
@[simp] theorem modCap_rw (f : CapU → CapU) : (modCap s f).rw = s.rw := rfl
@[simp] theorem modCap_adj (f : CapU → CapU) : (modCap s f).adj = s.adj := rfl
@[simp] theorem modCap_time (f : CapU → CapU) : (modCap s f).time = s.time := rfl
@[simp] theorem modCap_cap (f : CapU → CapU) : (modCap s f).cap = f s.cap := rfl
@[simp] theorem modCap_feat (f : CapU → CapU) : (modCap s f).feat = s.feat := rfl
@[simp] theorem modCap_leap (f : CapU → CapU) : (modCap s f).leap = s.leap := rfl
@[simp] theorem modCap_img (f : CapU → CapU) : (modCap s f).img = s.img := rfl
@[simp] theorem modCap_red (f : CapU → CapU) : (modCap s f).red = s.red := rfl
@[simp] theorem modCap_sealing (f : CapU → CapU) : (modCap s f).sealing = s.sealing := rfl
@[simp] theorem modCap_vrd (f : CapU → CapU) : (modCap s f).vrd = s.vrd := rfl
@[simp] theorem modCap_ilk (f : CapU → CapU) : (modCap s f).ilk = s.ilk := rfl
@[simp] theorem modCap_mir (f : CapU → CapU) : (modCap s f).mir = s.mir := rfl
@[simp] theorem modCap_pnl (f : CapU → CapU) : (modCap s f).pnl = s.pnl := rfl
@[simp] theorem modCap_host (f : CapU → CapU) : (modCap s f).host = s.host := rfl
@[simp] theorem modCap_trc (f : CapU → CapU) : (modCap s f).trc = s.trc := rfl
@[simp] theorem modCap_erc (f : CapU → CapU) : (modCap s f).erc = s.erc := rfl
@[simp] theorem modCap_cmp (f : CapU → CapU) : (modCap s f).cmp = s.cmp := rfl
@[simp] theorem modCap_flt (f : CapU → CapU) : (modCap s f).flt = s.flt := rfl
@[simp] theorem modCap_mem (f : CapU → CapU) : (modCap s f).mem = s.mem := rfl
@[simp] theorem modCap_boot (f : CapU → CapU) : (modCap s f).boot = s.boot := rfl
@[simp] theorem modCap_freeDraws (f : CapU → CapU) : (modCap s f).freeDraws = s.freeDraws := rfl

@[simp] theorem modFeat_integ (f : FeatU → FeatU) : (modFeat s f).integ = s.integ := rfl
@[simp] theorem modFeat_pending (f : FeatU → FeatU) : (modFeat s f).pending = s.pending := rfl
@[simp] theorem modFeat_bus (f : FeatU → FeatU) : (modFeat s f).bus = s.bus := rfl
@[simp] theorem modFeat_pow (f : FeatU → FeatU) : (modFeat s f).pow = s.pow := rfl
@[simp] theorem modFeat_rst (f : FeatU → FeatU) : (modFeat s f).rst = s.rst := rfl
@[simp] theorem modFeat_mm (f : FeatU → FeatU) : (modFeat s f).mm = s.mm := rfl
@[simp] theorem modFeat_rc (f : FeatU → FeatU) : (modFeat s f).rc = s.rc := rfl
@[simp] theorem modFeat_rw (f : FeatU → FeatU) : (modFeat s f).rw = s.rw := rfl
@[simp] theorem modFeat_adj (f : FeatU → FeatU) : (modFeat s f).adj = s.adj := rfl
@[simp] theorem modFeat_time (f : FeatU → FeatU) : (modFeat s f).time = s.time := rfl
@[simp] theorem modFeat_cap (f : FeatU → FeatU) : (modFeat s f).cap = s.cap := rfl
@[simp] theorem modFeat_feat (f : FeatU → FeatU) : (modFeat s f).feat = f s.feat := rfl
@[simp] theorem modFeat_leap (f : FeatU → FeatU) : (modFeat s f).leap = s.leap := rfl
@[simp] theorem modFeat_img (f : FeatU → FeatU) : (modFeat s f).img = s.img := rfl
@[simp] theorem modFeat_red (f : FeatU → FeatU) : (modFeat s f).red = s.red := rfl
@[simp] theorem modFeat_sealing (f : FeatU → FeatU) : (modFeat s f).sealing = s.sealing := rfl
@[simp] theorem modFeat_vrd (f : FeatU → FeatU) : (modFeat s f).vrd = s.vrd := rfl
@[simp] theorem modFeat_ilk (f : FeatU → FeatU) : (modFeat s f).ilk = s.ilk := rfl
@[simp] theorem modFeat_mir (f : FeatU → FeatU) : (modFeat s f).mir = s.mir := rfl
@[simp] theorem modFeat_pnl (f : FeatU → FeatU) : (modFeat s f).pnl = s.pnl := rfl
@[simp] theorem modFeat_host (f : FeatU → FeatU) : (modFeat s f).host = s.host := rfl
@[simp] theorem modFeat_trc (f : FeatU → FeatU) : (modFeat s f).trc = s.trc := rfl
@[simp] theorem modFeat_erc (f : FeatU → FeatU) : (modFeat s f).erc = s.erc := rfl
@[simp] theorem modFeat_cmp (f : FeatU → FeatU) : (modFeat s f).cmp = s.cmp := rfl
@[simp] theorem modFeat_flt (f : FeatU → FeatU) : (modFeat s f).flt = s.flt := rfl
@[simp] theorem modFeat_mem (f : FeatU → FeatU) : (modFeat s f).mem = s.mem := rfl
@[simp] theorem modFeat_boot (f : FeatU → FeatU) : (modFeat s f).boot = s.boot := rfl
@[simp] theorem modFeat_freeDraws (f : FeatU → FeatU) : (modFeat s f).freeDraws = s.freeDraws := rfl

@[simp] theorem modLeap_integ (f : LeapU → LeapU) : (modLeap s f).integ = s.integ := rfl
@[simp] theorem modLeap_pending (f : LeapU → LeapU) : (modLeap s f).pending = s.pending := rfl
@[simp] theorem modLeap_bus (f : LeapU → LeapU) : (modLeap s f).bus = s.bus := rfl
@[simp] theorem modLeap_pow (f : LeapU → LeapU) : (modLeap s f).pow = s.pow := rfl
@[simp] theorem modLeap_rst (f : LeapU → LeapU) : (modLeap s f).rst = s.rst := rfl
@[simp] theorem modLeap_mm (f : LeapU → LeapU) : (modLeap s f).mm = s.mm := rfl
@[simp] theorem modLeap_rc (f : LeapU → LeapU) : (modLeap s f).rc = s.rc := rfl
@[simp] theorem modLeap_rw (f : LeapU → LeapU) : (modLeap s f).rw = s.rw := rfl
@[simp] theorem modLeap_adj (f : LeapU → LeapU) : (modLeap s f).adj = s.adj := rfl
@[simp] theorem modLeap_time (f : LeapU → LeapU) : (modLeap s f).time = s.time := rfl
@[simp] theorem modLeap_cap (f : LeapU → LeapU) : (modLeap s f).cap = s.cap := rfl
@[simp] theorem modLeap_feat (f : LeapU → LeapU) : (modLeap s f).feat = s.feat := rfl
@[simp] theorem modLeap_leap (f : LeapU → LeapU) : (modLeap s f).leap = f s.leap := rfl
@[simp] theorem modLeap_img (f : LeapU → LeapU) : (modLeap s f).img = s.img := rfl
@[simp] theorem modLeap_red (f : LeapU → LeapU) : (modLeap s f).red = s.red := rfl
@[simp] theorem modLeap_sealing (f : LeapU → LeapU) : (modLeap s f).sealing = s.sealing := rfl
@[simp] theorem modLeap_vrd (f : LeapU → LeapU) : (modLeap s f).vrd = s.vrd := rfl
@[simp] theorem modLeap_ilk (f : LeapU → LeapU) : (modLeap s f).ilk = s.ilk := rfl
@[simp] theorem modLeap_mir (f : LeapU → LeapU) : (modLeap s f).mir = s.mir := rfl
@[simp] theorem modLeap_pnl (f : LeapU → LeapU) : (modLeap s f).pnl = s.pnl := rfl
@[simp] theorem modLeap_host (f : LeapU → LeapU) : (modLeap s f).host = s.host := rfl
@[simp] theorem modLeap_trc (f : LeapU → LeapU) : (modLeap s f).trc = s.trc := rfl
@[simp] theorem modLeap_erc (f : LeapU → LeapU) : (modLeap s f).erc = s.erc := rfl
@[simp] theorem modLeap_cmp (f : LeapU → LeapU) : (modLeap s f).cmp = s.cmp := rfl
@[simp] theorem modLeap_flt (f : LeapU → LeapU) : (modLeap s f).flt = s.flt := rfl
@[simp] theorem modLeap_mem (f : LeapU → LeapU) : (modLeap s f).mem = s.mem := rfl
@[simp] theorem modLeap_boot (f : LeapU → LeapU) : (modLeap s f).boot = s.boot := rfl
@[simp] theorem modLeap_freeDraws (f : LeapU → LeapU) : (modLeap s f).freeDraws = s.freeDraws := rfl

@[simp] theorem modImg_integ (f : ImgU → ImgU) : (modImg s f).integ = s.integ := rfl
@[simp] theorem modImg_pending (f : ImgU → ImgU) : (modImg s f).pending = s.pending := rfl
@[simp] theorem modImg_bus (f : ImgU → ImgU) : (modImg s f).bus = s.bus := rfl
@[simp] theorem modImg_pow (f : ImgU → ImgU) : (modImg s f).pow = s.pow := rfl
@[simp] theorem modImg_rst (f : ImgU → ImgU) : (modImg s f).rst = s.rst := rfl
@[simp] theorem modImg_mm (f : ImgU → ImgU) : (modImg s f).mm = s.mm := rfl
@[simp] theorem modImg_rc (f : ImgU → ImgU) : (modImg s f).rc = s.rc := rfl
@[simp] theorem modImg_rw (f : ImgU → ImgU) : (modImg s f).rw = s.rw := rfl
@[simp] theorem modImg_adj (f : ImgU → ImgU) : (modImg s f).adj = s.adj := rfl
@[simp] theorem modImg_time (f : ImgU → ImgU) : (modImg s f).time = s.time := rfl
@[simp] theorem modImg_cap (f : ImgU → ImgU) : (modImg s f).cap = s.cap := rfl
@[simp] theorem modImg_feat (f : ImgU → ImgU) : (modImg s f).feat = s.feat := rfl
@[simp] theorem modImg_leap (f : ImgU → ImgU) : (modImg s f).leap = s.leap := rfl
@[simp] theorem modImg_img (f : ImgU → ImgU) : (modImg s f).img = f s.img := rfl
@[simp] theorem modImg_red (f : ImgU → ImgU) : (modImg s f).red = s.red := rfl
@[simp] theorem modImg_sealing (f : ImgU → ImgU) : (modImg s f).sealing = s.sealing := rfl
@[simp] theorem modImg_vrd (f : ImgU → ImgU) : (modImg s f).vrd = s.vrd := rfl
@[simp] theorem modImg_ilk (f : ImgU → ImgU) : (modImg s f).ilk = s.ilk := rfl
@[simp] theorem modImg_mir (f : ImgU → ImgU) : (modImg s f).mir = s.mir := rfl
@[simp] theorem modImg_pnl (f : ImgU → ImgU) : (modImg s f).pnl = s.pnl := rfl
@[simp] theorem modImg_host (f : ImgU → ImgU) : (modImg s f).host = s.host := rfl
@[simp] theorem modImg_trc (f : ImgU → ImgU) : (modImg s f).trc = s.trc := rfl
@[simp] theorem modImg_erc (f : ImgU → ImgU) : (modImg s f).erc = s.erc := rfl
@[simp] theorem modImg_cmp (f : ImgU → ImgU) : (modImg s f).cmp = s.cmp := rfl
@[simp] theorem modImg_flt (f : ImgU → ImgU) : (modImg s f).flt = s.flt := rfl
@[simp] theorem modImg_mem (f : ImgU → ImgU) : (modImg s f).mem = s.mem := rfl
@[simp] theorem modImg_boot (f : ImgU → ImgU) : (modImg s f).boot = s.boot := rfl
@[simp] theorem modImg_freeDraws (f : ImgU → ImgU) : (modImg s f).freeDraws = s.freeDraws := rfl

@[simp] theorem modRed_integ (f : RedU → RedU) : (modRed s f).integ = s.integ := rfl
@[simp] theorem modRed_pending (f : RedU → RedU) : (modRed s f).pending = s.pending := rfl
@[simp] theorem modRed_bus (f : RedU → RedU) : (modRed s f).bus = s.bus := rfl
@[simp] theorem modRed_pow (f : RedU → RedU) : (modRed s f).pow = s.pow := rfl
@[simp] theorem modRed_rst (f : RedU → RedU) : (modRed s f).rst = s.rst := rfl
@[simp] theorem modRed_mm (f : RedU → RedU) : (modRed s f).mm = s.mm := rfl
@[simp] theorem modRed_rc (f : RedU → RedU) : (modRed s f).rc = s.rc := rfl
@[simp] theorem modRed_rw (f : RedU → RedU) : (modRed s f).rw = s.rw := rfl
@[simp] theorem modRed_adj (f : RedU → RedU) : (modRed s f).adj = s.adj := rfl
@[simp] theorem modRed_time (f : RedU → RedU) : (modRed s f).time = s.time := rfl
@[simp] theorem modRed_cap (f : RedU → RedU) : (modRed s f).cap = s.cap := rfl
@[simp] theorem modRed_feat (f : RedU → RedU) : (modRed s f).feat = s.feat := rfl
@[simp] theorem modRed_leap (f : RedU → RedU) : (modRed s f).leap = s.leap := rfl
@[simp] theorem modRed_img (f : RedU → RedU) : (modRed s f).img = s.img := rfl
@[simp] theorem modRed_red (f : RedU → RedU) : (modRed s f).red = f s.red := rfl
@[simp] theorem modRed_sealing (f : RedU → RedU) : (modRed s f).sealing = s.sealing := rfl
@[simp] theorem modRed_vrd (f : RedU → RedU) : (modRed s f).vrd = s.vrd := rfl
@[simp] theorem modRed_ilk (f : RedU → RedU) : (modRed s f).ilk = s.ilk := rfl
@[simp] theorem modRed_mir (f : RedU → RedU) : (modRed s f).mir = s.mir := rfl
@[simp] theorem modRed_pnl (f : RedU → RedU) : (modRed s f).pnl = s.pnl := rfl
@[simp] theorem modRed_host (f : RedU → RedU) : (modRed s f).host = s.host := rfl
@[simp] theorem modRed_trc (f : RedU → RedU) : (modRed s f).trc = s.trc := rfl
@[simp] theorem modRed_erc (f : RedU → RedU) : (modRed s f).erc = s.erc := rfl
@[simp] theorem modRed_cmp (f : RedU → RedU) : (modRed s f).cmp = s.cmp := rfl
@[simp] theorem modRed_flt (f : RedU → RedU) : (modRed s f).flt = s.flt := rfl
@[simp] theorem modRed_mem (f : RedU → RedU) : (modRed s f).mem = s.mem := rfl
@[simp] theorem modRed_boot (f : RedU → RedU) : (modRed s f).boot = s.boot := rfl
@[simp] theorem modRed_freeDraws (f : RedU → RedU) : (modRed s f).freeDraws = s.freeDraws := rfl

@[simp] theorem modSeal_integ (f : SealU → SealU) : (modSeal s f).integ = s.integ := rfl
@[simp] theorem modSeal_pending (f : SealU → SealU) : (modSeal s f).pending = s.pending := rfl
@[simp] theorem modSeal_bus (f : SealU → SealU) : (modSeal s f).bus = s.bus := rfl
@[simp] theorem modSeal_pow (f : SealU → SealU) : (modSeal s f).pow = s.pow := rfl
@[simp] theorem modSeal_rst (f : SealU → SealU) : (modSeal s f).rst = s.rst := rfl
@[simp] theorem modSeal_mm (f : SealU → SealU) : (modSeal s f).mm = s.mm := rfl
@[simp] theorem modSeal_rc (f : SealU → SealU) : (modSeal s f).rc = s.rc := rfl
@[simp] theorem modSeal_rw (f : SealU → SealU) : (modSeal s f).rw = s.rw := rfl
@[simp] theorem modSeal_adj (f : SealU → SealU) : (modSeal s f).adj = s.adj := rfl
@[simp] theorem modSeal_time (f : SealU → SealU) : (modSeal s f).time = s.time := rfl
@[simp] theorem modSeal_cap (f : SealU → SealU) : (modSeal s f).cap = s.cap := rfl
@[simp] theorem modSeal_feat (f : SealU → SealU) : (modSeal s f).feat = s.feat := rfl
@[simp] theorem modSeal_leap (f : SealU → SealU) : (modSeal s f).leap = s.leap := rfl
@[simp] theorem modSeal_img (f : SealU → SealU) : (modSeal s f).img = s.img := rfl
@[simp] theorem modSeal_red (f : SealU → SealU) : (modSeal s f).red = s.red := rfl
@[simp] theorem modSeal_sealing (f : SealU → SealU) : (modSeal s f).sealing = f s.sealing := rfl
@[simp] theorem modSeal_vrd (f : SealU → SealU) : (modSeal s f).vrd = s.vrd := rfl
@[simp] theorem modSeal_ilk (f : SealU → SealU) : (modSeal s f).ilk = s.ilk := rfl
@[simp] theorem modSeal_mir (f : SealU → SealU) : (modSeal s f).mir = s.mir := rfl
@[simp] theorem modSeal_pnl (f : SealU → SealU) : (modSeal s f).pnl = s.pnl := rfl
@[simp] theorem modSeal_host (f : SealU → SealU) : (modSeal s f).host = s.host := rfl
@[simp] theorem modSeal_trc (f : SealU → SealU) : (modSeal s f).trc = s.trc := rfl
@[simp] theorem modSeal_erc (f : SealU → SealU) : (modSeal s f).erc = s.erc := rfl
@[simp] theorem modSeal_cmp (f : SealU → SealU) : (modSeal s f).cmp = s.cmp := rfl
@[simp] theorem modSeal_flt (f : SealU → SealU) : (modSeal s f).flt = s.flt := rfl
@[simp] theorem modSeal_mem (f : SealU → SealU) : (modSeal s f).mem = s.mem := rfl
@[simp] theorem modSeal_boot (f : SealU → SealU) : (modSeal s f).boot = s.boot := rfl
@[simp] theorem modSeal_freeDraws (f : SealU → SealU) : (modSeal s f).freeDraws = s.freeDraws := rfl

@[simp] theorem modVrd_integ (f : VrdU → VrdU) : (modVrd s f).integ = s.integ := rfl
@[simp] theorem modVrd_pending (f : VrdU → VrdU) : (modVrd s f).pending = s.pending := rfl
@[simp] theorem modVrd_bus (f : VrdU → VrdU) : (modVrd s f).bus = s.bus := rfl
@[simp] theorem modVrd_pow (f : VrdU → VrdU) : (modVrd s f).pow = s.pow := rfl
@[simp] theorem modVrd_rst (f : VrdU → VrdU) : (modVrd s f).rst = s.rst := rfl
@[simp] theorem modVrd_mm (f : VrdU → VrdU) : (modVrd s f).mm = s.mm := rfl
@[simp] theorem modVrd_rc (f : VrdU → VrdU) : (modVrd s f).rc = s.rc := rfl
@[simp] theorem modVrd_rw (f : VrdU → VrdU) : (modVrd s f).rw = s.rw := rfl
@[simp] theorem modVrd_adj (f : VrdU → VrdU) : (modVrd s f).adj = s.adj := rfl
@[simp] theorem modVrd_time (f : VrdU → VrdU) : (modVrd s f).time = s.time := rfl
@[simp] theorem modVrd_cap (f : VrdU → VrdU) : (modVrd s f).cap = s.cap := rfl
@[simp] theorem modVrd_feat (f : VrdU → VrdU) : (modVrd s f).feat = s.feat := rfl
@[simp] theorem modVrd_leap (f : VrdU → VrdU) : (modVrd s f).leap = s.leap := rfl
@[simp] theorem modVrd_img (f : VrdU → VrdU) : (modVrd s f).img = s.img := rfl
@[simp] theorem modVrd_red (f : VrdU → VrdU) : (modVrd s f).red = s.red := rfl
@[simp] theorem modVrd_sealing (f : VrdU → VrdU) : (modVrd s f).sealing = s.sealing := rfl
@[simp] theorem modVrd_vrd (f : VrdU → VrdU) : (modVrd s f).vrd = f s.vrd := rfl
@[simp] theorem modVrd_ilk (f : VrdU → VrdU) : (modVrd s f).ilk = s.ilk := rfl
@[simp] theorem modVrd_mir (f : VrdU → VrdU) : (modVrd s f).mir = s.mir := rfl
@[simp] theorem modVrd_pnl (f : VrdU → VrdU) : (modVrd s f).pnl = s.pnl := rfl
@[simp] theorem modVrd_host (f : VrdU → VrdU) : (modVrd s f).host = s.host := rfl
@[simp] theorem modVrd_trc (f : VrdU → VrdU) : (modVrd s f).trc = s.trc := rfl
@[simp] theorem modVrd_erc (f : VrdU → VrdU) : (modVrd s f).erc = s.erc := rfl
@[simp] theorem modVrd_cmp (f : VrdU → VrdU) : (modVrd s f).cmp = s.cmp := rfl
@[simp] theorem modVrd_flt (f : VrdU → VrdU) : (modVrd s f).flt = s.flt := rfl
@[simp] theorem modVrd_mem (f : VrdU → VrdU) : (modVrd s f).mem = s.mem := rfl
@[simp] theorem modVrd_boot (f : VrdU → VrdU) : (modVrd s f).boot = s.boot := rfl
@[simp] theorem modVrd_freeDraws (f : VrdU → VrdU) : (modVrd s f).freeDraws = s.freeDraws := rfl

@[simp] theorem modIlk_integ (f : Ilk → Ilk) : (modIlk s f).integ = s.integ := rfl
@[simp] theorem modIlk_pending (f : Ilk → Ilk) : (modIlk s f).pending = s.pending := rfl
@[simp] theorem modIlk_bus (f : Ilk → Ilk) : (modIlk s f).bus = s.bus := rfl
@[simp] theorem modIlk_pow (f : Ilk → Ilk) : (modIlk s f).pow = s.pow := rfl
@[simp] theorem modIlk_rst (f : Ilk → Ilk) : (modIlk s f).rst = s.rst := rfl
@[simp] theorem modIlk_mm (f : Ilk → Ilk) : (modIlk s f).mm = s.mm := rfl
@[simp] theorem modIlk_rc (f : Ilk → Ilk) : (modIlk s f).rc = s.rc := rfl
@[simp] theorem modIlk_rw (f : Ilk → Ilk) : (modIlk s f).rw = s.rw := rfl
@[simp] theorem modIlk_adj (f : Ilk → Ilk) : (modIlk s f).adj = s.adj := rfl
@[simp] theorem modIlk_time (f : Ilk → Ilk) : (modIlk s f).time = s.time := rfl
@[simp] theorem modIlk_cap (f : Ilk → Ilk) : (modIlk s f).cap = s.cap := rfl
@[simp] theorem modIlk_feat (f : Ilk → Ilk) : (modIlk s f).feat = s.feat := rfl
@[simp] theorem modIlk_leap (f : Ilk → Ilk) : (modIlk s f).leap = s.leap := rfl
@[simp] theorem modIlk_img (f : Ilk → Ilk) : (modIlk s f).img = s.img := rfl
@[simp] theorem modIlk_red (f : Ilk → Ilk) : (modIlk s f).red = s.red := rfl
@[simp] theorem modIlk_sealing (f : Ilk → Ilk) : (modIlk s f).sealing = s.sealing := rfl
@[simp] theorem modIlk_vrd (f : Ilk → Ilk) : (modIlk s f).vrd = s.vrd := rfl
@[simp] theorem modIlk_ilk (f : Ilk → Ilk) : (modIlk s f).ilk = f s.ilk := rfl
@[simp] theorem modIlk_mir (f : Ilk → Ilk) : (modIlk s f).mir = s.mir := rfl
@[simp] theorem modIlk_pnl (f : Ilk → Ilk) : (modIlk s f).pnl = s.pnl := rfl
@[simp] theorem modIlk_host (f : Ilk → Ilk) : (modIlk s f).host = s.host := rfl
@[simp] theorem modIlk_trc (f : Ilk → Ilk) : (modIlk s f).trc = s.trc := rfl
@[simp] theorem modIlk_erc (f : Ilk → Ilk) : (modIlk s f).erc = s.erc := rfl
@[simp] theorem modIlk_cmp (f : Ilk → Ilk) : (modIlk s f).cmp = s.cmp := rfl
@[simp] theorem modIlk_flt (f : Ilk → Ilk) : (modIlk s f).flt = s.flt := rfl
@[simp] theorem modIlk_mem (f : Ilk → Ilk) : (modIlk s f).mem = s.mem := rfl
@[simp] theorem modIlk_boot (f : Ilk → Ilk) : (modIlk s f).boot = s.boot := rfl
@[simp] theorem modIlk_freeDraws (f : Ilk → Ilk) : (modIlk s f).freeDraws = s.freeDraws := rfl

@[simp] theorem modMir_integ (f : MirU → MirU) : (modMir s f).integ = s.integ := rfl
@[simp] theorem modMir_pending (f : MirU → MirU) : (modMir s f).pending = s.pending := rfl
@[simp] theorem modMir_bus (f : MirU → MirU) : (modMir s f).bus = s.bus := rfl
@[simp] theorem modMir_pow (f : MirU → MirU) : (modMir s f).pow = s.pow := rfl
@[simp] theorem modMir_rst (f : MirU → MirU) : (modMir s f).rst = s.rst := rfl
@[simp] theorem modMir_mm (f : MirU → MirU) : (modMir s f).mm = s.mm := rfl
@[simp] theorem modMir_rc (f : MirU → MirU) : (modMir s f).rc = s.rc := rfl
@[simp] theorem modMir_rw (f : MirU → MirU) : (modMir s f).rw = s.rw := rfl
@[simp] theorem modMir_adj (f : MirU → MirU) : (modMir s f).adj = s.adj := rfl
@[simp] theorem modMir_time (f : MirU → MirU) : (modMir s f).time = s.time := rfl
@[simp] theorem modMir_cap (f : MirU → MirU) : (modMir s f).cap = s.cap := rfl
@[simp] theorem modMir_feat (f : MirU → MirU) : (modMir s f).feat = s.feat := rfl
@[simp] theorem modMir_leap (f : MirU → MirU) : (modMir s f).leap = s.leap := rfl
@[simp] theorem modMir_img (f : MirU → MirU) : (modMir s f).img = s.img := rfl
@[simp] theorem modMir_red (f : MirU → MirU) : (modMir s f).red = s.red := rfl
@[simp] theorem modMir_sealing (f : MirU → MirU) : (modMir s f).sealing = s.sealing := rfl
@[simp] theorem modMir_vrd (f : MirU → MirU) : (modMir s f).vrd = s.vrd := rfl
@[simp] theorem modMir_ilk (f : MirU → MirU) : (modMir s f).ilk = s.ilk := rfl
@[simp] theorem modMir_mir (f : MirU → MirU) : (modMir s f).mir = f s.mir := rfl
@[simp] theorem modMir_pnl (f : MirU → MirU) : (modMir s f).pnl = s.pnl := rfl
@[simp] theorem modMir_host (f : MirU → MirU) : (modMir s f).host = s.host := rfl
@[simp] theorem modMir_trc (f : MirU → MirU) : (modMir s f).trc = s.trc := rfl
@[simp] theorem modMir_erc (f : MirU → MirU) : (modMir s f).erc = s.erc := rfl
@[simp] theorem modMir_cmp (f : MirU → MirU) : (modMir s f).cmp = s.cmp := rfl
@[simp] theorem modMir_flt (f : MirU → MirU) : (modMir s f).flt = s.flt := rfl
@[simp] theorem modMir_mem (f : MirU → MirU) : (modMir s f).mem = s.mem := rfl
@[simp] theorem modMir_boot (f : MirU → MirU) : (modMir s f).boot = s.boot := rfl
@[simp] theorem modMir_freeDraws (f : MirU → MirU) : (modMir s f).freeDraws = s.freeDraws := rfl

@[simp] theorem modPnl_integ (f : PnlU → PnlU) : (modPnl s f).integ = s.integ := rfl
@[simp] theorem modPnl_pending (f : PnlU → PnlU) : (modPnl s f).pending = s.pending := rfl
@[simp] theorem modPnl_bus (f : PnlU → PnlU) : (modPnl s f).bus = s.bus := rfl
@[simp] theorem modPnl_pow (f : PnlU → PnlU) : (modPnl s f).pow = s.pow := rfl
@[simp] theorem modPnl_rst (f : PnlU → PnlU) : (modPnl s f).rst = s.rst := rfl
@[simp] theorem modPnl_mm (f : PnlU → PnlU) : (modPnl s f).mm = s.mm := rfl
@[simp] theorem modPnl_rc (f : PnlU → PnlU) : (modPnl s f).rc = s.rc := rfl
@[simp] theorem modPnl_rw (f : PnlU → PnlU) : (modPnl s f).rw = s.rw := rfl
@[simp] theorem modPnl_adj (f : PnlU → PnlU) : (modPnl s f).adj = s.adj := rfl
@[simp] theorem modPnl_time (f : PnlU → PnlU) : (modPnl s f).time = s.time := rfl
@[simp] theorem modPnl_cap (f : PnlU → PnlU) : (modPnl s f).cap = s.cap := rfl
@[simp] theorem modPnl_feat (f : PnlU → PnlU) : (modPnl s f).feat = s.feat := rfl
@[simp] theorem modPnl_leap (f : PnlU → PnlU) : (modPnl s f).leap = s.leap := rfl
@[simp] theorem modPnl_img (f : PnlU → PnlU) : (modPnl s f).img = s.img := rfl
@[simp] theorem modPnl_red (f : PnlU → PnlU) : (modPnl s f).red = s.red := rfl
@[simp] theorem modPnl_sealing (f : PnlU → PnlU) : (modPnl s f).sealing = s.sealing := rfl
@[simp] theorem modPnl_vrd (f : PnlU → PnlU) : (modPnl s f).vrd = s.vrd := rfl
@[simp] theorem modPnl_ilk (f : PnlU → PnlU) : (modPnl s f).ilk = s.ilk := rfl
@[simp] theorem modPnl_mir (f : PnlU → PnlU) : (modPnl s f).mir = s.mir := rfl
@[simp] theorem modPnl_pnl (f : PnlU → PnlU) : (modPnl s f).pnl = f s.pnl := rfl
@[simp] theorem modPnl_host (f : PnlU → PnlU) : (modPnl s f).host = s.host := rfl
@[simp] theorem modPnl_trc (f : PnlU → PnlU) : (modPnl s f).trc = s.trc := rfl
@[simp] theorem modPnl_erc (f : PnlU → PnlU) : (modPnl s f).erc = s.erc := rfl
@[simp] theorem modPnl_cmp (f : PnlU → PnlU) : (modPnl s f).cmp = s.cmp := rfl
@[simp] theorem modPnl_flt (f : PnlU → PnlU) : (modPnl s f).flt = s.flt := rfl
@[simp] theorem modPnl_mem (f : PnlU → PnlU) : (modPnl s f).mem = s.mem := rfl
@[simp] theorem modPnl_boot (f : PnlU → PnlU) : (modPnl s f).boot = s.boot := rfl
@[simp] theorem modPnl_freeDraws (f : PnlU → PnlU) : (modPnl s f).freeDraws = s.freeDraws := rfl

@[simp] theorem modHost_integ (f : HostU → HostU) : (modHost s f).integ = s.integ := rfl
@[simp] theorem modHost_pending (f : HostU → HostU) : (modHost s f).pending = s.pending := rfl
@[simp] theorem modHost_bus (f : HostU → HostU) : (modHost s f).bus = s.bus := rfl
@[simp] theorem modHost_pow (f : HostU → HostU) : (modHost s f).pow = s.pow := rfl
@[simp] theorem modHost_rst (f : HostU → HostU) : (modHost s f).rst = s.rst := rfl
@[simp] theorem modHost_mm (f : HostU → HostU) : (modHost s f).mm = s.mm := rfl
@[simp] theorem modHost_rc (f : HostU → HostU) : (modHost s f).rc = s.rc := rfl
@[simp] theorem modHost_rw (f : HostU → HostU) : (modHost s f).rw = s.rw := rfl
@[simp] theorem modHost_adj (f : HostU → HostU) : (modHost s f).adj = s.adj := rfl
@[simp] theorem modHost_time (f : HostU → HostU) : (modHost s f).time = s.time := rfl
@[simp] theorem modHost_cap (f : HostU → HostU) : (modHost s f).cap = s.cap := rfl
@[simp] theorem modHost_feat (f : HostU → HostU) : (modHost s f).feat = s.feat := rfl
@[simp] theorem modHost_leap (f : HostU → HostU) : (modHost s f).leap = s.leap := rfl
@[simp] theorem modHost_img (f : HostU → HostU) : (modHost s f).img = s.img := rfl
@[simp] theorem modHost_red (f : HostU → HostU) : (modHost s f).red = s.red := rfl
@[simp] theorem modHost_sealing (f : HostU → HostU) : (modHost s f).sealing = s.sealing := rfl
@[simp] theorem modHost_vrd (f : HostU → HostU) : (modHost s f).vrd = s.vrd := rfl
@[simp] theorem modHost_ilk (f : HostU → HostU) : (modHost s f).ilk = s.ilk := rfl
@[simp] theorem modHost_mir (f : HostU → HostU) : (modHost s f).mir = s.mir := rfl
@[simp] theorem modHost_pnl (f : HostU → HostU) : (modHost s f).pnl = s.pnl := rfl
@[simp] theorem modHost_host (f : HostU → HostU) : (modHost s f).host = f s.host := rfl
@[simp] theorem modHost_trc (f : HostU → HostU) : (modHost s f).trc = s.trc := rfl
@[simp] theorem modHost_erc (f : HostU → HostU) : (modHost s f).erc = s.erc := rfl
@[simp] theorem modHost_cmp (f : HostU → HostU) : (modHost s f).cmp = s.cmp := rfl
@[simp] theorem modHost_flt (f : HostU → HostU) : (modHost s f).flt = s.flt := rfl
@[simp] theorem modHost_mem (f : HostU → HostU) : (modHost s f).mem = s.mem := rfl
@[simp] theorem modHost_boot (f : HostU → HostU) : (modHost s f).boot = s.boot := rfl
@[simp] theorem modHost_freeDraws (f : HostU → HostU) : (modHost s f).freeDraws = s.freeDraws := rfl

@[simp] theorem modCmp_integ (f : Cmp → Cmp) : (modCmp s f).integ = s.integ := rfl
@[simp] theorem modCmp_pending (f : Cmp → Cmp) : (modCmp s f).pending = s.pending := rfl
@[simp] theorem modCmp_bus (f : Cmp → Cmp) : (modCmp s f).bus = s.bus := rfl
@[simp] theorem modCmp_pow (f : Cmp → Cmp) : (modCmp s f).pow = s.pow := rfl
@[simp] theorem modCmp_rst (f : Cmp → Cmp) : (modCmp s f).rst = s.rst := rfl
@[simp] theorem modCmp_mm (f : Cmp → Cmp) : (modCmp s f).mm = s.mm := rfl
@[simp] theorem modCmp_rc (f : Cmp → Cmp) : (modCmp s f).rc = s.rc := rfl
@[simp] theorem modCmp_rw (f : Cmp → Cmp) : (modCmp s f).rw = s.rw := rfl
@[simp] theorem modCmp_adj (f : Cmp → Cmp) : (modCmp s f).adj = s.adj := rfl
@[simp] theorem modCmp_time (f : Cmp → Cmp) : (modCmp s f).time = s.time := rfl
@[simp] theorem modCmp_cap (f : Cmp → Cmp) : (modCmp s f).cap = s.cap := rfl
@[simp] theorem modCmp_feat (f : Cmp → Cmp) : (modCmp s f).feat = s.feat := rfl
@[simp] theorem modCmp_leap (f : Cmp → Cmp) : (modCmp s f).leap = s.leap := rfl
@[simp] theorem modCmp_img (f : Cmp → Cmp) : (modCmp s f).img = s.img := rfl
@[simp] theorem modCmp_red (f : Cmp → Cmp) : (modCmp s f).red = s.red := rfl
@[simp] theorem modCmp_sealing (f : Cmp → Cmp) : (modCmp s f).sealing = s.sealing := rfl
@[simp] theorem modCmp_vrd (f : Cmp → Cmp) : (modCmp s f).vrd = s.vrd := rfl
@[simp] theorem modCmp_ilk (f : Cmp → Cmp) : (modCmp s f).ilk = s.ilk := rfl
@[simp] theorem modCmp_mir (f : Cmp → Cmp) : (modCmp s f).mir = s.mir := rfl
@[simp] theorem modCmp_pnl (f : Cmp → Cmp) : (modCmp s f).pnl = s.pnl := rfl
@[simp] theorem modCmp_host (f : Cmp → Cmp) : (modCmp s f).host = s.host := rfl
@[simp] theorem modCmp_trc (f : Cmp → Cmp) : (modCmp s f).trc = s.trc := rfl
@[simp] theorem modCmp_erc (f : Cmp → Cmp) : (modCmp s f).erc = s.erc := rfl
@[simp] theorem modCmp_cmp (f : Cmp → Cmp) : (modCmp s f).cmp = f s.cmp := rfl
@[simp] theorem modCmp_flt (f : Cmp → Cmp) : (modCmp s f).flt = s.flt := rfl
@[simp] theorem modCmp_mem (f : Cmp → Cmp) : (modCmp s f).mem = s.mem := rfl
@[simp] theorem modCmp_boot (f : Cmp → Cmp) : (modCmp s f).boot = s.boot := rfl
@[simp] theorem modCmp_freeDraws (f : Cmp → Cmp) : (modCmp s f).freeDraws = s.freeDraws := rfl

@[simp] theorem modBoot_integ (f : Boot → Boot) : (modBoot s f).integ = s.integ := rfl
@[simp] theorem modBoot_pending (f : Boot → Boot) : (modBoot s f).pending = s.pending := rfl
@[simp] theorem modBoot_bus (f : Boot → Boot) : (modBoot s f).bus = s.bus := rfl
@[simp] theorem modBoot_pow (f : Boot → Boot) : (modBoot s f).pow = s.pow := rfl
@[simp] theorem modBoot_rst (f : Boot → Boot) : (modBoot s f).rst = s.rst := rfl
@[simp] theorem modBoot_mm (f : Boot → Boot) : (modBoot s f).mm = s.mm := rfl
@[simp] theorem modBoot_rc (f : Boot → Boot) : (modBoot s f).rc = s.rc := rfl
@[simp] theorem modBoot_rw (f : Boot → Boot) : (modBoot s f).rw = s.rw := rfl
@[simp] theorem modBoot_adj (f : Boot → Boot) : (modBoot s f).adj = s.adj := rfl
@[simp] theorem modBoot_time (f : Boot → Boot) : (modBoot s f).time = s.time := rfl
@[simp] theorem modBoot_cap (f : Boot → Boot) : (modBoot s f).cap = s.cap := rfl
@[simp] theorem modBoot_feat (f : Boot → Boot) : (modBoot s f).feat = s.feat := rfl
@[simp] theorem modBoot_leap (f : Boot → Boot) : (modBoot s f).leap = s.leap := rfl
@[simp] theorem modBoot_img (f : Boot → Boot) : (modBoot s f).img = s.img := rfl
@[simp] theorem modBoot_red (f : Boot → Boot) : (modBoot s f).red = s.red := rfl
@[simp] theorem modBoot_sealing (f : Boot → Boot) : (modBoot s f).sealing = s.sealing := rfl
@[simp] theorem modBoot_vrd (f : Boot → Boot) : (modBoot s f).vrd = s.vrd := rfl
@[simp] theorem modBoot_ilk (f : Boot → Boot) : (modBoot s f).ilk = s.ilk := rfl
@[simp] theorem modBoot_mir (f : Boot → Boot) : (modBoot s f).mir = s.mir := rfl
@[simp] theorem modBoot_pnl (f : Boot → Boot) : (modBoot s f).pnl = s.pnl := rfl
@[simp] theorem modBoot_host (f : Boot → Boot) : (modBoot s f).host = s.host := rfl
@[simp] theorem modBoot_trc (f : Boot → Boot) : (modBoot s f).trc = s.trc := rfl
@[simp] theorem modBoot_erc (f : Boot → Boot) : (modBoot s f).erc = s.erc := rfl
@[simp] theorem modBoot_cmp (f : Boot → Boot) : (modBoot s f).cmp = s.cmp := rfl
@[simp] theorem modBoot_flt (f : Boot → Boot) : (modBoot s f).flt = s.flt := rfl
@[simp] theorem modBoot_mem (f : Boot → Boot) : (modBoot s f).mem = s.mem := rfl
@[simp] theorem modBoot_boot (f : Boot → Boot) : (modBoot s f).boot = f s.boot := rfl
@[simp] theorem modBoot_freeDraws (f : Boot → Boot) : (modBoot s f).freeDraws = s.freeDraws := rfl

@[simp] theorem modPow_integ (u : Nat) (f : UnitPow → UnitPow) : (modPow s u f).integ = s.integ := rfl
@[simp] theorem modPow_pending (u : Nat) (f : UnitPow → UnitPow) : (modPow s u f).pending = s.pending := rfl
@[simp] theorem modPow_bus (u : Nat) (f : UnitPow → UnitPow) : (modPow s u f).bus = s.bus := rfl
@[simp] theorem modPow_pow (u : Nat) (f : UnitPow → UnitPow) : (modPow s u f).pow = s.pow.modify (u - 1) f := rfl
@[simp] theorem modPow_rst (u : Nat) (f : UnitPow → UnitPow) : (modPow s u f).rst = s.rst := rfl
@[simp] theorem modPow_mm (u : Nat) (f : UnitPow → UnitPow) : (modPow s u f).mm = s.mm := rfl
@[simp] theorem modPow_rc (u : Nat) (f : UnitPow → UnitPow) : (modPow s u f).rc = s.rc := rfl
@[simp] theorem modPow_rw (u : Nat) (f : UnitPow → UnitPow) : (modPow s u f).rw = s.rw := rfl
@[simp] theorem modPow_adj (u : Nat) (f : UnitPow → UnitPow) : (modPow s u f).adj = s.adj := rfl
@[simp] theorem modPow_time (u : Nat) (f : UnitPow → UnitPow) : (modPow s u f).time = s.time := rfl
@[simp] theorem modPow_cap (u : Nat) (f : UnitPow → UnitPow) : (modPow s u f).cap = s.cap := rfl
@[simp] theorem modPow_feat (u : Nat) (f : UnitPow → UnitPow) : (modPow s u f).feat = s.feat := rfl
@[simp] theorem modPow_leap (u : Nat) (f : UnitPow → UnitPow) : (modPow s u f).leap = s.leap := rfl
@[simp] theorem modPow_img (u : Nat) (f : UnitPow → UnitPow) : (modPow s u f).img = s.img := rfl
@[simp] theorem modPow_red (u : Nat) (f : UnitPow → UnitPow) : (modPow s u f).red = s.red := rfl
@[simp] theorem modPow_sealing (u : Nat) (f : UnitPow → UnitPow) : (modPow s u f).sealing = s.sealing := rfl
@[simp] theorem modPow_vrd (u : Nat) (f : UnitPow → UnitPow) : (modPow s u f).vrd = s.vrd := rfl
@[simp] theorem modPow_ilk (u : Nat) (f : UnitPow → UnitPow) : (modPow s u f).ilk = s.ilk := rfl
@[simp] theorem modPow_mir (u : Nat) (f : UnitPow → UnitPow) : (modPow s u f).mir = s.mir := rfl
@[simp] theorem modPow_pnl (u : Nat) (f : UnitPow → UnitPow) : (modPow s u f).pnl = s.pnl := rfl
@[simp] theorem modPow_host (u : Nat) (f : UnitPow → UnitPow) : (modPow s u f).host = s.host := rfl
@[simp] theorem modPow_trc (u : Nat) (f : UnitPow → UnitPow) : (modPow s u f).trc = s.trc := rfl
@[simp] theorem modPow_erc (u : Nat) (f : UnitPow → UnitPow) : (modPow s u f).erc = s.erc := rfl
@[simp] theorem modPow_cmp (u : Nat) (f : UnitPow → UnitPow) : (modPow s u f).cmp = s.cmp := rfl
@[simp] theorem modPow_flt (u : Nat) (f : UnitPow → UnitPow) : (modPow s u f).flt = s.flt := rfl
@[simp] theorem modPow_mem (u : Nat) (f : UnitPow → UnitPow) : (modPow s u f).mem = s.mem := rfl
@[simp] theorem modPow_boot (u : Nat) (f : UnitPow → UnitPow) : (modPow s u f).boot = s.boot := rfl
@[simp] theorem modPow_freeDraws (u : Nat) (f : UnitPow → UnitPow) : (modPow s u f).freeDraws = s.freeDraws := rfl

@[simp] theorem modGrid_integ (f : Grid → Grid) : (modGrid s f).integ = s.integ := rfl
@[simp] theorem modGrid_pending (f : Grid → Grid) : (modGrid s f).pending = s.pending := rfl
@[simp] theorem modGrid_bus (f : Grid → Grid) : (modGrid s f).bus = s.bus := rfl
@[simp] theorem modGrid_pow (f : Grid → Grid) : (modGrid s f).pow = s.pow := rfl
@[simp] theorem modGrid_rst (f : Grid → Grid) : (modGrid s f).rst = s.rst := rfl
@[simp] theorem modGrid_mm (f : Grid → Grid) : (modGrid s f).mm = s.mm := rfl
@[simp] theorem modGrid_rc (f : Grid → Grid) : (modGrid s f).rc = s.rc := rfl
@[simp] theorem modGrid_rw (f : Grid → Grid) : (modGrid s f).rw = s.rw := rfl
@[simp] theorem modGrid_adj (f : Grid → Grid) : (modGrid s f).adj = s.adj := rfl
@[simp] theorem modGrid_time (f : Grid → Grid) : (modGrid s f).time = { s.time with grid := f s.time.grid } := rfl
@[simp] theorem modGrid_cap (f : Grid → Grid) : (modGrid s f).cap = s.cap := rfl
@[simp] theorem modGrid_feat (f : Grid → Grid) : (modGrid s f).feat = s.feat := rfl
@[simp] theorem modGrid_leap (f : Grid → Grid) : (modGrid s f).leap = s.leap := rfl
@[simp] theorem modGrid_img (f : Grid → Grid) : (modGrid s f).img = s.img := rfl
@[simp] theorem modGrid_red (f : Grid → Grid) : (modGrid s f).red = s.red := rfl
@[simp] theorem modGrid_sealing (f : Grid → Grid) : (modGrid s f).sealing = s.sealing := rfl
@[simp] theorem modGrid_vrd (f : Grid → Grid) : (modGrid s f).vrd = s.vrd := rfl
@[simp] theorem modGrid_ilk (f : Grid → Grid) : (modGrid s f).ilk = s.ilk := rfl
@[simp] theorem modGrid_mir (f : Grid → Grid) : (modGrid s f).mir = s.mir := rfl
@[simp] theorem modGrid_pnl (f : Grid → Grid) : (modGrid s f).pnl = s.pnl := rfl
@[simp] theorem modGrid_host (f : Grid → Grid) : (modGrid s f).host = s.host := rfl
@[simp] theorem modGrid_trc (f : Grid → Grid) : (modGrid s f).trc = s.trc := rfl
@[simp] theorem modGrid_erc (f : Grid → Grid) : (modGrid s f).erc = s.erc := rfl
@[simp] theorem modGrid_cmp (f : Grid → Grid) : (modGrid s f).cmp = s.cmp := rfl
@[simp] theorem modGrid_flt (f : Grid → Grid) : (modGrid s f).flt = s.flt := rfl
@[simp] theorem modGrid_mem (f : Grid → Grid) : (modGrid s f).mem = s.mem := rfl
@[simp] theorem modGrid_boot (f : Grid → Grid) : (modGrid s f).boot = s.boot := rfl
@[simp] theorem modGrid_freeDraws (f : Grid → Grid) : (modGrid s f).freeDraws = s.freeDraws := rfl

@[simp] theorem modBase_integ (n : Nat) (f : Base → Base) : (modBase s n f).integ = s.integ := rfl
@[simp] theorem modBase_pending (n : Nat) (f : Base → Base) : (modBase s n f).pending = s.pending := rfl
@[simp] theorem modBase_bus (n : Nat) (f : Base → Base) : (modBase s n f).bus = s.bus := rfl
@[simp] theorem modBase_pow (n : Nat) (f : Base → Base) : (modBase s n f).pow = s.pow := rfl
@[simp] theorem modBase_rst (n : Nat) (f : Base → Base) : (modBase s n f).rst = s.rst := rfl
@[simp] theorem modBase_mm (n : Nat) (f : Base → Base) : (modBase s n f).mm = s.mm := rfl
@[simp] theorem modBase_rc (n : Nat) (f : Base → Base) : (modBase s n f).rc = s.rc := rfl
@[simp] theorem modBase_rw (n : Nat) (f : Base → Base) : (modBase s n f).rw = s.rw := rfl
@[simp] theorem modBase_adj (n : Nat) (f : Base → Base) : (modBase s n f).adj = s.adj := rfl
@[simp] theorem modBase_time (n : Nat) (f : Base → Base) : (modBase s n f).time = { s.time with bases := s.time.bases.modify n f } := rfl
@[simp] theorem modBase_cap (n : Nat) (f : Base → Base) : (modBase s n f).cap = s.cap := rfl
@[simp] theorem modBase_feat (n : Nat) (f : Base → Base) : (modBase s n f).feat = s.feat := rfl
@[simp] theorem modBase_leap (n : Nat) (f : Base → Base) : (modBase s n f).leap = s.leap := rfl
@[simp] theorem modBase_img (n : Nat) (f : Base → Base) : (modBase s n f).img = s.img := rfl
@[simp] theorem modBase_red (n : Nat) (f : Base → Base) : (modBase s n f).red = s.red := rfl
@[simp] theorem modBase_sealing (n : Nat) (f : Base → Base) : (modBase s n f).sealing = s.sealing := rfl
@[simp] theorem modBase_vrd (n : Nat) (f : Base → Base) : (modBase s n f).vrd = s.vrd := rfl
@[simp] theorem modBase_ilk (n : Nat) (f : Base → Base) : (modBase s n f).ilk = s.ilk := rfl
@[simp] theorem modBase_mir (n : Nat) (f : Base → Base) : (modBase s n f).mir = s.mir := rfl
@[simp] theorem modBase_pnl (n : Nat) (f : Base → Base) : (modBase s n f).pnl = s.pnl := rfl
@[simp] theorem modBase_host (n : Nat) (f : Base → Base) : (modBase s n f).host = s.host := rfl
@[simp] theorem modBase_trc (n : Nat) (f : Base → Base) : (modBase s n f).trc = s.trc := rfl
@[simp] theorem modBase_erc (n : Nat) (f : Base → Base) : (modBase s n f).erc = s.erc := rfl
@[simp] theorem modBase_cmp (n : Nat) (f : Base → Base) : (modBase s n f).cmp = s.cmp := rfl
@[simp] theorem modBase_flt (n : Nat) (f : Base → Base) : (modBase s n f).flt = s.flt := rfl
@[simp] theorem modBase_mem (n : Nat) (f : Base → Base) : (modBase s n f).mem = s.mem := rfl
@[simp] theorem modBase_boot (n : Nat) (f : Base → Base) : (modBase s n f).boot = s.boot := rfl
@[simp] theorem modBase_freeDraws (n : Nat) (f : Base → Base) : (modBase s n f).freeDraws = s.freeDraws := rfl

@[simp] theorem modPort_integ (p : Nat) (f : IPort → IPort) : (modPort s p f).integ = s.integ := rfl
@[simp] theorem modPort_pending (p : Nat) (f : IPort → IPort) : (modPort s p f).pending = s.pending := rfl
@[simp] theorem modPort_bus (p : Nat) (f : IPort → IPort) : (modPort s p f).bus = s.bus := rfl
@[simp] theorem modPort_pow (p : Nat) (f : IPort → IPort) : (modPort s p f).pow = s.pow := rfl
@[simp] theorem modPort_rst (p : Nat) (f : IPort → IPort) : (modPort s p f).rst = s.rst := rfl
@[simp] theorem modPort_mm (p : Nat) (f : IPort → IPort) : (modPort s p f).mm = s.mm := rfl
@[simp] theorem modPort_rc (p : Nat) (f : IPort → IPort) : (modPort s p f).rc = s.rc := rfl
@[simp] theorem modPort_rw (p : Nat) (f : IPort → IPort) : (modPort s p f).rw = s.rw := rfl
@[simp] theorem modPort_adj (p : Nat) (f : IPort → IPort) : (modPort s p f).adj = s.adj := rfl
@[simp] theorem modPort_time (p : Nat) (f : IPort → IPort) : (modPort s p f).time = s.time := rfl
@[simp] theorem modPort_cap (p : Nat) (f : IPort → IPort) : (modPort s p f).cap = s.cap := rfl
@[simp] theorem modPort_feat (p : Nat) (f : IPort → IPort) : (modPort s p f).feat = s.feat := rfl
@[simp] theorem modPort_leap (p : Nat) (f : IPort → IPort) : (modPort s p f).leap = s.leap := rfl
@[simp] theorem modPort_img (p : Nat) (f : IPort → IPort) : (modPort s p f).img = s.img := rfl
@[simp] theorem modPort_red (p : Nat) (f : IPort → IPort) : (modPort s p f).red = s.red := rfl
@[simp] theorem modPort_sealing (p : Nat) (f : IPort → IPort) : (modPort s p f).sealing = s.sealing := rfl
@[simp] theorem modPort_vrd (p : Nat) (f : IPort → IPort) : (modPort s p f).vrd = s.vrd := rfl
@[simp] theorem modPort_ilk (p : Nat) (f : IPort → IPort) : (modPort s p f).ilk = { s.ilk with ports := modKey s.ilk.ports p portNone f } := rfl
@[simp] theorem modPort_mir (p : Nat) (f : IPort → IPort) : (modPort s p f).mir = s.mir := rfl
@[simp] theorem modPort_pnl (p : Nat) (f : IPort → IPort) : (modPort s p f).pnl = s.pnl := rfl
@[simp] theorem modPort_host (p : Nat) (f : IPort → IPort) : (modPort s p f).host = s.host := rfl
@[simp] theorem modPort_trc (p : Nat) (f : IPort → IPort) : (modPort s p f).trc = s.trc := rfl
@[simp] theorem modPort_erc (p : Nat) (f : IPort → IPort) : (modPort s p f).erc = s.erc := rfl
@[simp] theorem modPort_cmp (p : Nat) (f : IPort → IPort) : (modPort s p f).cmp = s.cmp := rfl
@[simp] theorem modPort_flt (p : Nat) (f : IPort → IPort) : (modPort s p f).flt = s.flt := rfl
@[simp] theorem modPort_mem (p : Nat) (f : IPort → IPort) : (modPort s p f).mem = s.mem := rfl
@[simp] theorem modPort_boot (p : Nat) (f : IPort → IPort) : (modPort s p f).boot = s.boot := rfl
@[simp] theorem modPort_freeDraws (p : Nat) (f : IPort → IPort) : (modPort s p f).freeDraws = s.freeDraws := rfl

@[simp] theorem modMbx_integ (m : Nat) (f : Mbx → Mbx) : (modMbx s m f).integ = s.integ := rfl
@[simp] theorem modMbx_pending (m : Nat) (f : Mbx → Mbx) : (modMbx s m f).pending = s.pending := rfl
@[simp] theorem modMbx_bus (m : Nat) (f : Mbx → Mbx) : (modMbx s m f).bus = s.bus := rfl
@[simp] theorem modMbx_pow (m : Nat) (f : Mbx → Mbx) : (modMbx s m f).pow = s.pow := rfl
@[simp] theorem modMbx_rst (m : Nat) (f : Mbx → Mbx) : (modMbx s m f).rst = s.rst := rfl
@[simp] theorem modMbx_mm (m : Nat) (f : Mbx → Mbx) : (modMbx s m f).mm = s.mm := rfl
@[simp] theorem modMbx_rc (m : Nat) (f : Mbx → Mbx) : (modMbx s m f).rc = s.rc := rfl
@[simp] theorem modMbx_rw (m : Nat) (f : Mbx → Mbx) : (modMbx s m f).rw = s.rw := rfl
@[simp] theorem modMbx_adj (m : Nat) (f : Mbx → Mbx) : (modMbx s m f).adj = s.adj := rfl
@[simp] theorem modMbx_time (m : Nat) (f : Mbx → Mbx) : (modMbx s m f).time = s.time := rfl
@[simp] theorem modMbx_cap (m : Nat) (f : Mbx → Mbx) : (modMbx s m f).cap = s.cap := rfl
@[simp] theorem modMbx_feat (m : Nat) (f : Mbx → Mbx) : (modMbx s m f).feat = s.feat := rfl
@[simp] theorem modMbx_leap (m : Nat) (f : Mbx → Mbx) : (modMbx s m f).leap = s.leap := rfl
@[simp] theorem modMbx_img (m : Nat) (f : Mbx → Mbx) : (modMbx s m f).img = s.img := rfl
@[simp] theorem modMbx_red (m : Nat) (f : Mbx → Mbx) : (modMbx s m f).red = s.red := rfl
@[simp] theorem modMbx_sealing (m : Nat) (f : Mbx → Mbx) : (modMbx s m f).sealing = s.sealing := rfl
@[simp] theorem modMbx_vrd (m : Nat) (f : Mbx → Mbx) : (modMbx s m f).vrd = s.vrd := rfl
@[simp] theorem modMbx_ilk (m : Nat) (f : Mbx → Mbx) : (modMbx s m f).ilk = s.ilk := rfl
@[simp] theorem modMbx_mir (m : Nat) (f : Mbx → Mbx) : (modMbx s m f).mir = s.mir := rfl
@[simp] theorem modMbx_pnl (m : Nat) (f : Mbx → Mbx) : (modMbx s m f).pnl = s.pnl := rfl
@[simp] theorem modMbx_host (m : Nat) (f : Mbx → Mbx) : (modMbx s m f).host = { s.host with mboxes := modKey s.host.mboxes m mbxNone f } := rfl
@[simp] theorem modMbx_trc (m : Nat) (f : Mbx → Mbx) : (modMbx s m f).trc = s.trc := rfl
@[simp] theorem modMbx_erc (m : Nat) (f : Mbx → Mbx) : (modMbx s m f).erc = s.erc := rfl
@[simp] theorem modMbx_cmp (m : Nat) (f : Mbx → Mbx) : (modMbx s m f).cmp = s.cmp := rfl
@[simp] theorem modMbx_flt (m : Nat) (f : Mbx → Mbx) : (modMbx s m f).flt = s.flt := rfl
@[simp] theorem modMbx_mem (m : Nat) (f : Mbx → Mbx) : (modMbx s m f).mem = s.mem := rfl
@[simp] theorem modMbx_boot (m : Nat) (f : Mbx → Mbx) : (modMbx s m f).boot = s.boot := rfl
@[simp] theorem modMbx_freeDraws (m : Nat) (f : Mbx → Mbx) : (modMbx s m f).freeDraws = s.freeDraws := rfl

@[simp] theorem modView_integ (v : Nat) (f : View → View) : (modView s v f).integ = s.integ := rfl
@[simp] theorem modView_pending (v : Nat) (f : View → View) : (modView s v f).pending = s.pending := rfl
@[simp] theorem modView_bus (v : Nat) (f : View → View) : (modView s v f).bus = s.bus := rfl
@[simp] theorem modView_pow (v : Nat) (f : View → View) : (modView s v f).pow = s.pow := rfl
@[simp] theorem modView_rst (v : Nat) (f : View → View) : (modView s v f).rst = s.rst := rfl
@[simp] theorem modView_mm (v : Nat) (f : View → View) : (modView s v f).mm = s.mm := rfl
@[simp] theorem modView_rc (v : Nat) (f : View → View) : (modView s v f).rc = s.rc := rfl
@[simp] theorem modView_rw (v : Nat) (f : View → View) : (modView s v f).rw = s.rw := rfl
@[simp] theorem modView_adj (v : Nat) (f : View → View) : (modView s v f).adj = s.adj := rfl
@[simp] theorem modView_time (v : Nat) (f : View → View) : (modView s v f).time = s.time := rfl
@[simp] theorem modView_cap (v : Nat) (f : View → View) : (modView s v f).cap = s.cap := rfl
@[simp] theorem modView_feat (v : Nat) (f : View → View) : (modView s v f).feat = s.feat := rfl
@[simp] theorem modView_leap (v : Nat) (f : View → View) : (modView s v f).leap = s.leap := rfl
@[simp] theorem modView_img (v : Nat) (f : View → View) : (modView s v f).img = s.img := rfl
@[simp] theorem modView_red (v : Nat) (f : View → View) : (modView s v f).red = s.red := rfl
@[simp] theorem modView_sealing (v : Nat) (f : View → View) : (modView s v f).sealing = s.sealing := rfl
@[simp] theorem modView_vrd (v : Nat) (f : View → View) : (modView s v f).vrd = s.vrd := rfl
@[simp] theorem modView_ilk (v : Nat) (f : View → View) : (modView s v f).ilk = s.ilk := rfl
@[simp] theorem modView_mir (v : Nat) (f : View → View) : (modView s v f).mir = s.mir := rfl
@[simp] theorem modView_pnl (v : Nat) (f : View → View) : (modView s v f).pnl = s.pnl := rfl
@[simp] theorem modView_host (v : Nat) (f : View → View) : (modView s v f).host = { s.host with views := modKey s.host.views v viewNone f } := rfl
@[simp] theorem modView_trc (v : Nat) (f : View → View) : (modView s v f).trc = s.trc := rfl
@[simp] theorem modView_erc (v : Nat) (f : View → View) : (modView s v f).erc = s.erc := rfl
@[simp] theorem modView_cmp (v : Nat) (f : View → View) : (modView s v f).cmp = s.cmp := rfl
@[simp] theorem modView_flt (v : Nat) (f : View → View) : (modView s v f).flt = s.flt := rfl
@[simp] theorem modView_mem (v : Nat) (f : View → View) : (modView s v f).mem = s.mem := rfl
@[simp] theorem modView_boot (v : Nat) (f : View → View) : (modView s v f).boot = s.boot := rfl
@[simp] theorem modView_freeDraws (v : Nat) (f : View → View) : (modView s v f).freeDraws = s.freeDraws := rfl

@[simp] theorem modCore_integ (c : Nat) (f : TCore → TCore) : (modCore s c f).integ = s.integ := rfl
@[simp] theorem modCore_pending (c : Nat) (f : TCore → TCore) : (modCore s c f).pending = s.pending := rfl
@[simp] theorem modCore_bus (c : Nat) (f : TCore → TCore) : (modCore s c f).bus = s.bus := rfl
@[simp] theorem modCore_pow (c : Nat) (f : TCore → TCore) : (modCore s c f).pow = s.pow := rfl
@[simp] theorem modCore_rst (c : Nat) (f : TCore → TCore) : (modCore s c f).rst = s.rst := rfl
@[simp] theorem modCore_mm (c : Nat) (f : TCore → TCore) : (modCore s c f).mm = s.mm := rfl
@[simp] theorem modCore_rc (c : Nat) (f : TCore → TCore) : (modCore s c f).rc = s.rc := rfl
@[simp] theorem modCore_rw (c : Nat) (f : TCore → TCore) : (modCore s c f).rw = s.rw := rfl
@[simp] theorem modCore_adj (c : Nat) (f : TCore → TCore) : (modCore s c f).adj = s.adj := rfl
@[simp] theorem modCore_time (c : Nat) (f : TCore → TCore) : (modCore s c f).time = s.time := rfl
@[simp] theorem modCore_cap (c : Nat) (f : TCore → TCore) : (modCore s c f).cap = s.cap := rfl
@[simp] theorem modCore_feat (c : Nat) (f : TCore → TCore) : (modCore s c f).feat = s.feat := rfl
@[simp] theorem modCore_leap (c : Nat) (f : TCore → TCore) : (modCore s c f).leap = s.leap := rfl
@[simp] theorem modCore_img (c : Nat) (f : TCore → TCore) : (modCore s c f).img = s.img := rfl
@[simp] theorem modCore_red (c : Nat) (f : TCore → TCore) : (modCore s c f).red = s.red := rfl
@[simp] theorem modCore_sealing (c : Nat) (f : TCore → TCore) : (modCore s c f).sealing = s.sealing := rfl
@[simp] theorem modCore_vrd (c : Nat) (f : TCore → TCore) : (modCore s c f).vrd = s.vrd := rfl
@[simp] theorem modCore_ilk (c : Nat) (f : TCore → TCore) : (modCore s c f).ilk = s.ilk := rfl
@[simp] theorem modCore_mir (c : Nat) (f : TCore → TCore) : (modCore s c f).mir = s.mir := rfl
@[simp] theorem modCore_pnl (c : Nat) (f : TCore → TCore) : (modCore s c f).pnl = s.pnl := rfl
@[simp] theorem modCore_host (c : Nat) (f : TCore → TCore) : (modCore s c f).host = s.host := rfl
@[simp] theorem modCore_trc (c : Nat) (f : TCore → TCore) : (modCore s c f).trc = s.trc.modify c f := rfl
@[simp] theorem modCore_erc (c : Nat) (f : TCore → TCore) : (modCore s c f).erc = s.erc := rfl
@[simp] theorem modCore_cmp (c : Nat) (f : TCore → TCore) : (modCore s c f).cmp = s.cmp := rfl
@[simp] theorem modCore_flt (c : Nat) (f : TCore → TCore) : (modCore s c f).flt = s.flt := rfl
@[simp] theorem modCore_mem (c : Nat) (f : TCore → TCore) : (modCore s c f).mem = s.mem := rfl
@[simp] theorem modCore_boot (c : Nat) (f : TCore → TCore) : (modCore s c f).boot = s.boot := rfl
@[simp] theorem modCore_freeDraws (c : Nat) (f : TCore → TCore) : (modCore s c f).freeDraws = s.freeDraws := rfl

@[simp] theorem modBank_integ (b : Nat) (f : Bank → Bank) : (modBank s b f).integ = s.integ := rfl
@[simp] theorem modBank_pending (b : Nat) (f : Bank → Bank) : (modBank s b f).pending = s.pending := rfl
@[simp] theorem modBank_bus (b : Nat) (f : Bank → Bank) : (modBank s b f).bus = s.bus := rfl
@[simp] theorem modBank_pow (b : Nat) (f : Bank → Bank) : (modBank s b f).pow = s.pow := rfl
@[simp] theorem modBank_rst (b : Nat) (f : Bank → Bank) : (modBank s b f).rst = s.rst := rfl
@[simp] theorem modBank_mm (b : Nat) (f : Bank → Bank) : (modBank s b f).mm = s.mm := rfl
@[simp] theorem modBank_rc (b : Nat) (f : Bank → Bank) : (modBank s b f).rc = s.rc := rfl
@[simp] theorem modBank_rw (b : Nat) (f : Bank → Bank) : (modBank s b f).rw = s.rw := rfl
@[simp] theorem modBank_adj (b : Nat) (f : Bank → Bank) : (modBank s b f).adj = s.adj := rfl
@[simp] theorem modBank_time (b : Nat) (f : Bank → Bank) : (modBank s b f).time = s.time := rfl
@[simp] theorem modBank_cap (b : Nat) (f : Bank → Bank) : (modBank s b f).cap = s.cap := rfl
@[simp] theorem modBank_feat (b : Nat) (f : Bank → Bank) : (modBank s b f).feat = s.feat := rfl
@[simp] theorem modBank_leap (b : Nat) (f : Bank → Bank) : (modBank s b f).leap = s.leap := rfl
@[simp] theorem modBank_img (b : Nat) (f : Bank → Bank) : (modBank s b f).img = s.img := rfl
@[simp] theorem modBank_red (b : Nat) (f : Bank → Bank) : (modBank s b f).red = s.red := rfl
@[simp] theorem modBank_sealing (b : Nat) (f : Bank → Bank) : (modBank s b f).sealing = s.sealing := rfl
@[simp] theorem modBank_vrd (b : Nat) (f : Bank → Bank) : (modBank s b f).vrd = s.vrd := rfl
@[simp] theorem modBank_ilk (b : Nat) (f : Bank → Bank) : (modBank s b f).ilk = s.ilk := rfl
@[simp] theorem modBank_mir (b : Nat) (f : Bank → Bank) : (modBank s b f).mir = s.mir := rfl
@[simp] theorem modBank_pnl (b : Nat) (f : Bank → Bank) : (modBank s b f).pnl = s.pnl := rfl
@[simp] theorem modBank_host (b : Nat) (f : Bank → Bank) : (modBank s b f).host = s.host := rfl
@[simp] theorem modBank_trc (b : Nat) (f : Bank → Bank) : (modBank s b f).trc = s.trc := rfl
@[simp] theorem modBank_erc (b : Nat) (f : Bank → Bank) : (modBank s b f).erc = s.erc := rfl
@[simp] theorem modBank_cmp (b : Nat) (f : Bank → Bank) : (modBank s b f).cmp = s.cmp := rfl
@[simp] theorem modBank_flt (b : Nat) (f : Bank → Bank) : (modBank s b f).flt = s.flt := rfl
@[simp] theorem modBank_mem (b : Nat) (f : Bank → Bank) : (modBank s b f).mem = { s.mem with banks := s.mem.banks.modify b f } := rfl
@[simp] theorem modBank_boot (b : Nat) (f : Bank → Bank) : (modBank s b f).boot = s.boot := rfl
@[simp] theorem modBank_freeDraws (b : Nat) (f : Bank → Bank) : (modBank s b f).freeDraws = s.freeDraws := rfl

@[simp] theorem modTally_integ (f : Tally → Tally) : (modTally s f).integ = s.integ := rfl
@[simp] theorem modTally_pending (f : Tally → Tally) : (modTally s f).pending = s.pending := rfl
@[simp] theorem modTally_bus (f : Tally → Tally) : (modTally s f).bus = s.bus := rfl
@[simp] theorem modTally_pow (f : Tally → Tally) : (modTally s f).pow = s.pow := rfl
@[simp] theorem modTally_rst (f : Tally → Tally) : (modTally s f).rst = s.rst := rfl
@[simp] theorem modTally_mm (f : Tally → Tally) : (modTally s f).mm = s.mm := rfl
@[simp] theorem modTally_rc (f : Tally → Tally) : (modTally s f).rc = s.rc := rfl
@[simp] theorem modTally_rw (f : Tally → Tally) : (modTally s f).rw = s.rw := rfl
@[simp] theorem modTally_adj (f : Tally → Tally) : (modTally s f).adj = s.adj := rfl
@[simp] theorem modTally_time (f : Tally → Tally) : (modTally s f).time = s.time := rfl
@[simp] theorem modTally_cap (f : Tally → Tally) : (modTally s f).cap = s.cap := rfl
@[simp] theorem modTally_feat (f : Tally → Tally) : (modTally s f).feat = s.feat := rfl
@[simp] theorem modTally_leap (f : Tally → Tally) : (modTally s f).leap = s.leap := rfl
@[simp] theorem modTally_img (f : Tally → Tally) : (modTally s f).img = s.img := rfl
@[simp] theorem modTally_red (f : Tally → Tally) : (modTally s f).red = s.red := rfl
@[simp] theorem modTally_sealing (f : Tally → Tally) : (modTally s f).sealing = s.sealing := rfl
@[simp] theorem modTally_vrd (f : Tally → Tally) : (modTally s f).vrd = s.vrd := rfl
@[simp] theorem modTally_ilk (f : Tally → Tally) : (modTally s f).ilk = s.ilk := rfl
@[simp] theorem modTally_mir (f : Tally → Tally) : (modTally s f).mir = s.mir := rfl
@[simp] theorem modTally_pnl (f : Tally → Tally) : (modTally s f).pnl = s.pnl := rfl
@[simp] theorem modTally_host (f : Tally → Tally) : (modTally s f).host = s.host := rfl
@[simp] theorem modTally_trc (f : Tally → Tally) : (modTally s f).trc = s.trc := rfl
@[simp] theorem modTally_erc (f : Tally → Tally) : (modTally s f).erc = { s.erc with tally := f s.erc.tally } := rfl
@[simp] theorem modTally_cmp (f : Tally → Tally) : (modTally s f).cmp = s.cmp := rfl
@[simp] theorem modTally_flt (f : Tally → Tally) : (modTally s f).flt = s.flt := rfl
@[simp] theorem modTally_mem (f : Tally → Tally) : (modTally s f).mem = s.mem := rfl
@[simp] theorem modTally_boot (f : Tally → Tally) : (modTally s f).boot = s.boot := rfl
@[simp] theorem modTally_freeDraws (f : Tally → Tally) : (modTally s f).freeDraws = s.freeDraws := rfl

@[simp] theorem rwSet_integ (r : RwReg) (v : Nat) : (rwSet s r v).integ = s.integ := rfl
@[simp] theorem rwSet_pending (r : RwReg) (v : Nat) : (rwSet s r v).pending = s.pending := rfl
@[simp] theorem rwSet_bus (r : RwReg) (v : Nat) : (rwSet s r v).bus = s.bus := rfl
@[simp] theorem rwSet_pow (r : RwReg) (v : Nat) : (rwSet s r v).pow = s.pow := rfl
@[simp] theorem rwSet_rst (r : RwReg) (v : Nat) : (rwSet s r v).rst = s.rst := rfl
@[simp] theorem rwSet_mm (r : RwReg) (v : Nat) : (rwSet s r v).mm = s.mm := rfl
@[simp] theorem rwSet_rc (r : RwReg) (v : Nat) : (rwSet s r v).rc = s.rc := rfl
@[simp] theorem rwSet_rw (r : RwReg) (v : Nat) : (rwSet s r v).rw = aset s.rw r v := rfl
@[simp] theorem rwSet_adj (r : RwReg) (v : Nat) : (rwSet s r v).adj = s.adj := rfl
@[simp] theorem rwSet_time (r : RwReg) (v : Nat) : (rwSet s r v).time = s.time := rfl
@[simp] theorem rwSet_cap (r : RwReg) (v : Nat) : (rwSet s r v).cap = s.cap := rfl
@[simp] theorem rwSet_feat (r : RwReg) (v : Nat) : (rwSet s r v).feat = s.feat := rfl
@[simp] theorem rwSet_leap (r : RwReg) (v : Nat) : (rwSet s r v).leap = s.leap := rfl
@[simp] theorem rwSet_img (r : RwReg) (v : Nat) : (rwSet s r v).img = s.img := rfl
@[simp] theorem rwSet_red (r : RwReg) (v : Nat) : (rwSet s r v).red = s.red := rfl
@[simp] theorem rwSet_sealing (r : RwReg) (v : Nat) : (rwSet s r v).sealing = s.sealing := rfl
@[simp] theorem rwSet_vrd (r : RwReg) (v : Nat) : (rwSet s r v).vrd = s.vrd := rfl
@[simp] theorem rwSet_ilk (r : RwReg) (v : Nat) : (rwSet s r v).ilk = s.ilk := rfl
@[simp] theorem rwSet_mir (r : RwReg) (v : Nat) : (rwSet s r v).mir = s.mir := rfl
@[simp] theorem rwSet_pnl (r : RwReg) (v : Nat) : (rwSet s r v).pnl = s.pnl := rfl
@[simp] theorem rwSet_host (r : RwReg) (v : Nat) : (rwSet s r v).host = s.host := rfl
@[simp] theorem rwSet_trc (r : RwReg) (v : Nat) : (rwSet s r v).trc = s.trc := rfl
@[simp] theorem rwSet_erc (r : RwReg) (v : Nat) : (rwSet s r v).erc = s.erc := rfl
@[simp] theorem rwSet_cmp (r : RwReg) (v : Nat) : (rwSet s r v).cmp = s.cmp := rfl
@[simp] theorem rwSet_flt (r : RwReg) (v : Nat) : (rwSet s r v).flt = s.flt := rfl
@[simp] theorem rwSet_mem (r : RwReg) (v : Nat) : (rwSet s r v).mem = s.mem := rfl
@[simp] theorem rwSet_boot (r : RwReg) (v : Nat) : (rwSet s r v).boot = s.boot := rfl
@[simp] theorem rwSet_freeDraws (r : RwReg) (v : Nat) : (rwSet s r v).freeDraws = s.freeDraws := rfl

@[simp] theorem rcClear_integ (r : RcReg) : (rcClear s r).integ = s.integ := rfl
@[simp] theorem rcClear_pending (r : RcReg) : (rcClear s r).pending = s.pending := rfl
@[simp] theorem rcClear_bus (r : RcReg) : (rcClear s r).bus = s.bus := rfl
@[simp] theorem rcClear_pow (r : RcReg) : (rcClear s r).pow = s.pow := rfl
@[simp] theorem rcClear_rst (r : RcReg) : (rcClear s r).rst = s.rst := rfl
@[simp] theorem rcClear_mm (r : RcReg) : (rcClear s r).mm = s.mm := rfl
@[simp] theorem rcClear_rc (r : RcReg) : (rcClear s r).rc = adel s.rc r := rfl
@[simp] theorem rcClear_rw (r : RcReg) : (rcClear s r).rw = s.rw := rfl
@[simp] theorem rcClear_adj (r : RcReg) : (rcClear s r).adj = s.adj := rfl
@[simp] theorem rcClear_time (r : RcReg) : (rcClear s r).time = s.time := rfl
@[simp] theorem rcClear_cap (r : RcReg) : (rcClear s r).cap = s.cap := rfl
@[simp] theorem rcClear_feat (r : RcReg) : (rcClear s r).feat = s.feat := rfl
@[simp] theorem rcClear_leap (r : RcReg) : (rcClear s r).leap = s.leap := rfl
@[simp] theorem rcClear_img (r : RcReg) : (rcClear s r).img = s.img := rfl
@[simp] theorem rcClear_red (r : RcReg) : (rcClear s r).red = s.red := rfl
@[simp] theorem rcClear_sealing (r : RcReg) : (rcClear s r).sealing = s.sealing := rfl
@[simp] theorem rcClear_vrd (r : RcReg) : (rcClear s r).vrd = s.vrd := rfl
@[simp] theorem rcClear_ilk (r : RcReg) : (rcClear s r).ilk = s.ilk := rfl
@[simp] theorem rcClear_mir (r : RcReg) : (rcClear s r).mir = s.mir := rfl
@[simp] theorem rcClear_pnl (r : RcReg) : (rcClear s r).pnl = s.pnl := rfl
@[simp] theorem rcClear_host (r : RcReg) : (rcClear s r).host = s.host := rfl
@[simp] theorem rcClear_trc (r : RcReg) : (rcClear s r).trc = s.trc := rfl
@[simp] theorem rcClear_erc (r : RcReg) : (rcClear s r).erc = s.erc := rfl
@[simp] theorem rcClear_cmp (r : RcReg) : (rcClear s r).cmp = s.cmp := rfl
@[simp] theorem rcClear_flt (r : RcReg) : (rcClear s r).flt = s.flt := rfl
@[simp] theorem rcClear_mem (r : RcReg) : (rcClear s r).mem = s.mem := rfl
@[simp] theorem rcClear_boot (r : RcReg) : (rcClear s r).boot = s.boot := rfl
@[simp] theorem rcClear_freeDraws (r : RcReg) : (rcClear s r).freeDraws = s.freeDraws := rfl

@[simp] theorem advanceTo_integ (n : Nat) : (advanceTo s n).integ = s.integ := rfl
@[simp] theorem advanceTo_pending (n : Nat) : (advanceTo s n).pending = s.pending := rfl
@[simp] theorem advanceTo_bus (n : Nat) : (advanceTo s n).bus = s.bus := rfl
@[simp] theorem advanceTo_pow (n : Nat) : (advanceTo s n).pow = s.pow := rfl
@[simp] theorem advanceTo_rst (n : Nat) : (advanceTo s n).rst = s.rst := rfl
@[simp] theorem advanceTo_mm (n : Nat) : (advanceTo s n).mm = s.mm := rfl
@[simp] theorem advanceTo_rc (n : Nat) : (advanceTo s n).rc = s.rc := rfl
@[simp] theorem advanceTo_rw (n : Nat) : (advanceTo s n).rw = s.rw := rfl
@[simp] theorem advanceTo_adj (n : Nat) : (advanceTo s n).adj = s.adj := rfl
@[simp] theorem advanceTo_time (n : Nat) : (advanceTo s n).time = { s.time with c := max s.time.c n } := rfl
@[simp] theorem advanceTo_cap (n : Nat) : (advanceTo s n).cap = s.cap := rfl
@[simp] theorem advanceTo_feat (n : Nat) : (advanceTo s n).feat = s.feat := rfl
@[simp] theorem advanceTo_leap (n : Nat) : (advanceTo s n).leap = s.leap := rfl
@[simp] theorem advanceTo_img (n : Nat) : (advanceTo s n).img = s.img := rfl
@[simp] theorem advanceTo_red (n : Nat) : (advanceTo s n).red = s.red := rfl
@[simp] theorem advanceTo_sealing (n : Nat) : (advanceTo s n).sealing = s.sealing := rfl
@[simp] theorem advanceTo_vrd (n : Nat) : (advanceTo s n).vrd = s.vrd := rfl
@[simp] theorem advanceTo_ilk (n : Nat) : (advanceTo s n).ilk = s.ilk := rfl
@[simp] theorem advanceTo_mir (n : Nat) : (advanceTo s n).mir = s.mir := rfl
@[simp] theorem advanceTo_pnl (n : Nat) : (advanceTo s n).pnl = s.pnl := rfl
@[simp] theorem advanceTo_host (n : Nat) : (advanceTo s n).host = s.host := rfl
@[simp] theorem advanceTo_trc (n : Nat) : (advanceTo s n).trc = s.trc := rfl
@[simp] theorem advanceTo_erc (n : Nat) : (advanceTo s n).erc = s.erc := rfl
@[simp] theorem advanceTo_cmp (n : Nat) : (advanceTo s n).cmp = s.cmp := rfl
@[simp] theorem advanceTo_flt (n : Nat) : (advanceTo s n).flt = s.flt := rfl
@[simp] theorem advanceTo_mem (n : Nat) : (advanceTo s n).mem = s.mem := rfl
@[simp] theorem advanceTo_boot (n : Nat) : (advanceTo s n).boot = s.boot := rfl
@[simp] theorem advanceTo_freeDraws (n : Nat) : (advanceTo s n).freeDraws = s.freeDraws := rfl

@[simp] theorem touch_integ (u : Nat) : (touch s u).integ = s.integ := rfl
@[simp] theorem touch_pending (u : Nat) : (touch s u).pending = s.pending := rfl
@[simp] theorem touch_bus (u : Nat) : (touch s u).bus = s.bus := rfl
@[simp] theorem touch_pow (u : Nat) : (touch s u).pow = s.pow.modify (u - 1) (touchPow s.time.c) := rfl
@[simp] theorem touch_rst (u : Nat) : (touch s u).rst = s.rst := rfl
@[simp] theorem touch_mm (u : Nat) : (touch s u).mm = s.mm := rfl
@[simp] theorem touch_rc (u : Nat) : (touch s u).rc = s.rc := rfl
@[simp] theorem touch_rw (u : Nat) : (touch s u).rw = s.rw := rfl
@[simp] theorem touch_adj (u : Nat) : (touch s u).adj = s.adj := rfl
@[simp] theorem touch_time (u : Nat) : (touch s u).time = s.time := rfl
@[simp] theorem touch_cap (u : Nat) : (touch s u).cap = s.cap := rfl
@[simp] theorem touch_feat (u : Nat) : (touch s u).feat = s.feat := rfl
@[simp] theorem touch_leap (u : Nat) : (touch s u).leap = s.leap := rfl
@[simp] theorem touch_img (u : Nat) : (touch s u).img = s.img := rfl
@[simp] theorem touch_red (u : Nat) : (touch s u).red = s.red := rfl
@[simp] theorem touch_sealing (u : Nat) : (touch s u).sealing = s.sealing := rfl
@[simp] theorem touch_vrd (u : Nat) : (touch s u).vrd = s.vrd := rfl
@[simp] theorem touch_ilk (u : Nat) : (touch s u).ilk = s.ilk := rfl
@[simp] theorem touch_mir (u : Nat) : (touch s u).mir = s.mir := rfl
@[simp] theorem touch_pnl (u : Nat) : (touch s u).pnl = s.pnl := rfl
@[simp] theorem touch_host (u : Nat) : (touch s u).host = s.host := rfl
@[simp] theorem touch_trc (u : Nat) : (touch s u).trc = s.trc := rfl
@[simp] theorem touch_erc (u : Nat) : (touch s u).erc = s.erc := rfl
@[simp] theorem touch_cmp (u : Nat) : (touch s u).cmp = s.cmp := rfl
@[simp] theorem touch_flt (u : Nat) : (touch s u).flt = s.flt := rfl
@[simp] theorem touch_mem (u : Nat) : (touch s u).mem = s.mem := rfl
@[simp] theorem touch_boot (u : Nat) : (touch s u).boot = s.boot := rfl
@[simp] theorem touch_freeDraws (u : Nat) : (touch s u).freeDraws = s.freeDraws := rfl

/-! Counters: everything but the counters and the recorder's tally stays -/


@[simp] theorem rcAdd_integ (r : RcReg) (n : Nat) : (rcAdd s r n).integ = s.integ := by unfold rcAdd; split <;> rfl
@[simp] theorem rcAdd_pending (r : RcReg) (n : Nat) : (rcAdd s r n).pending = s.pending := by unfold rcAdd; split <;> rfl
@[simp] theorem rcAdd_bus (r : RcReg) (n : Nat) : (rcAdd s r n).bus = s.bus := by unfold rcAdd; split <;> rfl
@[simp] theorem rcAdd_pow (r : RcReg) (n : Nat) : (rcAdd s r n).pow = s.pow := by unfold rcAdd; split <;> rfl
@[simp] theorem rcAdd_rst (r : RcReg) (n : Nat) : (rcAdd s r n).rst = s.rst := by unfold rcAdd; split <;> rfl
@[simp] theorem rcAdd_mm (r : RcReg) (n : Nat) : (rcAdd s r n).mm = s.mm := by unfold rcAdd; split <;> rfl
@[simp] theorem rcAdd_rw (r : RcReg) (n : Nat) : (rcAdd s r n).rw = s.rw := by unfold rcAdd; split <;> rfl
@[simp] theorem rcAdd_adj (r : RcReg) (n : Nat) : (rcAdd s r n).adj = s.adj := by unfold rcAdd; split <;> rfl
@[simp] theorem rcAdd_time (r : RcReg) (n : Nat) : (rcAdd s r n).time = s.time := by unfold rcAdd; split <;> rfl
@[simp] theorem rcAdd_cap (r : RcReg) (n : Nat) : (rcAdd s r n).cap = s.cap := by unfold rcAdd; split <;> rfl
@[simp] theorem rcAdd_feat (r : RcReg) (n : Nat) : (rcAdd s r n).feat = s.feat := by unfold rcAdd; split <;> rfl
@[simp] theorem rcAdd_leap (r : RcReg) (n : Nat) : (rcAdd s r n).leap = s.leap := by unfold rcAdd; split <;> rfl
@[simp] theorem rcAdd_img (r : RcReg) (n : Nat) : (rcAdd s r n).img = s.img := by unfold rcAdd; split <;> rfl
@[simp] theorem rcAdd_red (r : RcReg) (n : Nat) : (rcAdd s r n).red = s.red := by unfold rcAdd; split <;> rfl
@[simp] theorem rcAdd_sealing (r : RcReg) (n : Nat) : (rcAdd s r n).sealing = s.sealing := by unfold rcAdd; split <;> rfl
@[simp] theorem rcAdd_vrd (r : RcReg) (n : Nat) : (rcAdd s r n).vrd = s.vrd := by unfold rcAdd; split <;> rfl
@[simp] theorem rcAdd_ilk (r : RcReg) (n : Nat) : (rcAdd s r n).ilk = s.ilk := by unfold rcAdd; split <;> rfl
@[simp] theorem rcAdd_mir (r : RcReg) (n : Nat) : (rcAdd s r n).mir = s.mir := by unfold rcAdd; split <;> rfl
@[simp] theorem rcAdd_pnl (r : RcReg) (n : Nat) : (rcAdd s r n).pnl = s.pnl := by unfold rcAdd; split <;> rfl
@[simp] theorem rcAdd_host (r : RcReg) (n : Nat) : (rcAdd s r n).host = s.host := by unfold rcAdd; split <;> rfl
@[simp] theorem rcAdd_trc (r : RcReg) (n : Nat) : (rcAdd s r n).trc = s.trc := by unfold rcAdd; split <;> rfl
@[simp] theorem rcAdd_cmp (r : RcReg) (n : Nat) : (rcAdd s r n).cmp = s.cmp := by unfold rcAdd; split <;> rfl
@[simp] theorem rcAdd_flt (r : RcReg) (n : Nat) : (rcAdd s r n).flt = s.flt := by unfold rcAdd; split <;> rfl
@[simp] theorem rcAdd_mem (r : RcReg) (n : Nat) : (rcAdd s r n).mem = s.mem := by unfold rcAdd; split <;> rfl
@[simp] theorem rcAdd_boot (r : RcReg) (n : Nat) : (rcAdd s r n).boot = s.boot := by unfold rcAdd; split <;> rfl
@[simp] theorem rcAdd_freeDraws (r : RcReg) (n : Nat) : (rcAdd s r n).freeDraws = s.freeDraws := by unfold rcAdd; split <;> rfl

@[simp] theorem rcInc_integ (r : RcReg) : (rcInc s r).integ = s.integ := rcAdd_integ s r 1
@[simp] theorem rcInc_pending (r : RcReg) : (rcInc s r).pending = s.pending := rcAdd_pending s r 1
@[simp] theorem rcInc_bus (r : RcReg) : (rcInc s r).bus = s.bus := rcAdd_bus s r 1
@[simp] theorem rcInc_pow (r : RcReg) : (rcInc s r).pow = s.pow := rcAdd_pow s r 1
@[simp] theorem rcInc_rst (r : RcReg) : (rcInc s r).rst = s.rst := rcAdd_rst s r 1
@[simp] theorem rcInc_mm (r : RcReg) : (rcInc s r).mm = s.mm := rcAdd_mm s r 1
@[simp] theorem rcInc_rw (r : RcReg) : (rcInc s r).rw = s.rw := rcAdd_rw s r 1
@[simp] theorem rcInc_adj (r : RcReg) : (rcInc s r).adj = s.adj := rcAdd_adj s r 1
@[simp] theorem rcInc_time (r : RcReg) : (rcInc s r).time = s.time := rcAdd_time s r 1
@[simp] theorem rcInc_cap (r : RcReg) : (rcInc s r).cap = s.cap := rcAdd_cap s r 1
@[simp] theorem rcInc_feat (r : RcReg) : (rcInc s r).feat = s.feat := rcAdd_feat s r 1
@[simp] theorem rcInc_leap (r : RcReg) : (rcInc s r).leap = s.leap := rcAdd_leap s r 1
@[simp] theorem rcInc_img (r : RcReg) : (rcInc s r).img = s.img := rcAdd_img s r 1
@[simp] theorem rcInc_red (r : RcReg) : (rcInc s r).red = s.red := rcAdd_red s r 1
@[simp] theorem rcInc_sealing (r : RcReg) : (rcInc s r).sealing = s.sealing := rcAdd_sealing s r 1
@[simp] theorem rcInc_vrd (r : RcReg) : (rcInc s r).vrd = s.vrd := rcAdd_vrd s r 1
@[simp] theorem rcInc_ilk (r : RcReg) : (rcInc s r).ilk = s.ilk := rcAdd_ilk s r 1
@[simp] theorem rcInc_mir (r : RcReg) : (rcInc s r).mir = s.mir := rcAdd_mir s r 1
@[simp] theorem rcInc_pnl (r : RcReg) : (rcInc s r).pnl = s.pnl := rcAdd_pnl s r 1
@[simp] theorem rcInc_host (r : RcReg) : (rcInc s r).host = s.host := rcAdd_host s r 1
@[simp] theorem rcInc_trc (r : RcReg) : (rcInc s r).trc = s.trc := rcAdd_trc s r 1
@[simp] theorem rcInc_cmp (r : RcReg) : (rcInc s r).cmp = s.cmp := rcAdd_cmp s r 1
@[simp] theorem rcInc_flt (r : RcReg) : (rcInc s r).flt = s.flt := rcAdd_flt s r 1
@[simp] theorem rcInc_mem (r : RcReg) : (rcInc s r).mem = s.mem := rcAdd_mem s r 1
@[simp] theorem rcInc_boot (r : RcReg) : (rcInc s r).boot = s.boot := rcAdd_boot s r 1
@[simp] theorem rcInc_freeDraws (r : RcReg) : (rcInc s r).freeDraws = s.freeDraws := rcAdd_freeDraws s r 1

@[simp] theorem rcMax_integ (r : RcReg) (v : Nat) : (rcMax s r v).integ = s.integ := by unfold rcMax; split <;> rfl
@[simp] theorem rcMax_pending (r : RcReg) (v : Nat) : (rcMax s r v).pending = s.pending := by unfold rcMax; split <;> rfl
@[simp] theorem rcMax_bus (r : RcReg) (v : Nat) : (rcMax s r v).bus = s.bus := by unfold rcMax; split <;> rfl
@[simp] theorem rcMax_pow (r : RcReg) (v : Nat) : (rcMax s r v).pow = s.pow := by unfold rcMax; split <;> rfl
@[simp] theorem rcMax_rst (r : RcReg) (v : Nat) : (rcMax s r v).rst = s.rst := by unfold rcMax; split <;> rfl
@[simp] theorem rcMax_mm (r : RcReg) (v : Nat) : (rcMax s r v).mm = s.mm := by unfold rcMax; split <;> rfl
@[simp] theorem rcMax_rw (r : RcReg) (v : Nat) : (rcMax s r v).rw = s.rw := by unfold rcMax; split <;> rfl
@[simp] theorem rcMax_adj (r : RcReg) (v : Nat) : (rcMax s r v).adj = s.adj := by unfold rcMax; split <;> rfl
@[simp] theorem rcMax_time (r : RcReg) (v : Nat) : (rcMax s r v).time = s.time := by unfold rcMax; split <;> rfl
@[simp] theorem rcMax_cap (r : RcReg) (v : Nat) : (rcMax s r v).cap = s.cap := by unfold rcMax; split <;> rfl
@[simp] theorem rcMax_feat (r : RcReg) (v : Nat) : (rcMax s r v).feat = s.feat := by unfold rcMax; split <;> rfl
@[simp] theorem rcMax_leap (r : RcReg) (v : Nat) : (rcMax s r v).leap = s.leap := by unfold rcMax; split <;> rfl
@[simp] theorem rcMax_img (r : RcReg) (v : Nat) : (rcMax s r v).img = s.img := by unfold rcMax; split <;> rfl
@[simp] theorem rcMax_red (r : RcReg) (v : Nat) : (rcMax s r v).red = s.red := by unfold rcMax; split <;> rfl
@[simp] theorem rcMax_sealing (r : RcReg) (v : Nat) : (rcMax s r v).sealing = s.sealing := by unfold rcMax; split <;> rfl
@[simp] theorem rcMax_vrd (r : RcReg) (v : Nat) : (rcMax s r v).vrd = s.vrd := by unfold rcMax; split <;> rfl
@[simp] theorem rcMax_ilk (r : RcReg) (v : Nat) : (rcMax s r v).ilk = s.ilk := by unfold rcMax; split <;> rfl
@[simp] theorem rcMax_mir (r : RcReg) (v : Nat) : (rcMax s r v).mir = s.mir := by unfold rcMax; split <;> rfl
@[simp] theorem rcMax_pnl (r : RcReg) (v : Nat) : (rcMax s r v).pnl = s.pnl := by unfold rcMax; split <;> rfl
@[simp] theorem rcMax_host (r : RcReg) (v : Nat) : (rcMax s r v).host = s.host := by unfold rcMax; split <;> rfl
@[simp] theorem rcMax_trc (r : RcReg) (v : Nat) : (rcMax s r v).trc = s.trc := by unfold rcMax; split <;> rfl
@[simp] theorem rcMax_erc (r : RcReg) (v : Nat) : (rcMax s r v).erc = s.erc := by unfold rcMax; split <;> rfl
@[simp] theorem rcMax_cmp (r : RcReg) (v : Nat) : (rcMax s r v).cmp = s.cmp := by unfold rcMax; split <;> rfl
@[simp] theorem rcMax_flt (r : RcReg) (v : Nat) : (rcMax s r v).flt = s.flt := by unfold rcMax; split <;> rfl
@[simp] theorem rcMax_mem (r : RcReg) (v : Nat) : (rcMax s r v).mem = s.mem := by unfold rcMax; split <;> rfl
@[simp] theorem rcMax_boot (r : RcReg) (v : Nat) : (rcMax s r v).boot = s.boot := by unfold rcMax; split <;> rfl
@[simp] theorem rcMax_freeDraws (r : RcReg) (v : Nat) : (rcMax s r v).freeDraws = s.freeDraws := by unfold rcMax; split <;> rfl

/-! Tables -/

section tables
variable {κ α : Type} [BEq κ]

theorem mem_aset {t : List (κ × α)} {k : κ} {v : α} {p : κ × α} (h : p ∈ aset t k v) : p = (k, v) ∨ p ∈ t := by
  induction t with
  | nil => simpa [aset] using h
  | cons q r ih =>
    obtain ⟨j, w⟩ := q
    simp only [aset] at h
    split at h
    · simp only [List.mem_cons] at h ⊢; exact h.imp_right .inr
    · simp only [List.mem_cons] at h ⊢
      rcases h with h | h
      · exact .inr (.inl h)
      · exact (ih h).imp_right .inr

theorem mem_adel {t : List (κ × α)} {k : κ} {p : κ × α} (h : p ∈ adel t k) : p ∈ t := (List.mem_filter.mp h).1

variable [LawfulBEq κ]

theorem aget_aset (t : List (κ × α)) (k j : κ) (v : α) : aget (aset t k v) j = if k == j then some v else aget t j := by
  induction t with
  | nil => simp [aset, aget]
  | cons p r ih =>
    obtain ⟨q, w⟩ := p
    simp only [aget] at ih
    by_cases hq : (q == k) = true
    · have e : q = k := eq_of_beq hq
      subst e
      by_cases hj : (q == j) = true <;> simp [aset, aget, hj]
    · by_cases hj : (q == j) = true
      · have e : q = j := eq_of_beq hj
        subst e
        have : (k == q) = false := Bool.eq_false_iff.mpr fun h => hq (beq_iff_eq.mpr (eq_of_beq h).symm)
        simp [aset, aget, hq, this]
      · simp [aset, aget, hq, hj, ih]

@[simp] theorem aget_aset_self (t : List (κ × α)) (k : κ) (v : α) : aget (aset t k v) k = some v := by simp [aget_aset]

theorem aget_aset_ne (t : List (κ × α)) {k j : κ} (v : α) (h : k ≠ j) : aget (aset t k v) j = aget t j := by simp [aget_aset, h]

theorem aget_adel (t : List (κ × α)) (k j : κ) : aget (adel t k) j = if k == j then none else aget t j := by
  induction t with
  | nil => simp [adel, aget]
  | cons p r ih =>
    obtain ⟨q, w⟩ := p
    simp only [aget, adel] at ih
    by_cases hq : (q == k) = true
    · have e : q = k := eq_of_beq hq
      subst e
      by_cases hj : (q == j) = true <;> simp [adel, aget, hj] at ih ⊢ <;> exact ih
    · by_cases hj : (q == j) = true
      · have e : q = j := eq_of_beq hj
        subst e
        have : (k == q) = false := Bool.eq_false_iff.mpr fun h => hq (beq_iff_eq.mpr (eq_of_beq h).symm)
        simp [adel, aget, hq, this]
      · simp [adel, aget, hq, hj]; simpa using ih

end tables

/-- A counter after it has counted `n` (R18): it saturates at 2^32 − 1. -/
theorem rcGet_rcAdd (r : RcReg) (n : Nat) (hn : n ≠ 0) (q : RcReg) :
    rcGet (rcAdd s r n) q = if r = q then add32 (rcGet s r) n else rcGet s q := by
  unfold rcAdd
  simp only [hn, if_false, rcGet, aget_aset]
  by_cases h : r = q <;> simp [h]

theorem rcGet_rcInc (r q : RcReg) : rcGet (rcInc s r) q = if r = q then add32 (rcGet s r) 1 else rcGet s q :=
  rcGet_rcAdd s r 1 (by decide) q

@[simp] theorem rcGet_rcClear (r q : RcReg) : rcGet (rcClear s r) q = if r = q then 0 else rcGet s q := by
  unfold rcClear rcGet
  simp only [aget_adel]
  by_cases h : r = q <;> simp [h]

/-- A plain register reads as it was set, and every other one as before. -/
@[simp] theorem rwGet_rwSet (r q : RwReg) (v : Nat) : rwGet (rwSet s r v) q = if r = q then v else rwGet s q := by
  unfold rwSet rwGet
  simp only [aget_aset]
  by_cases h : r = q <;> simp [h]

/-! Tables by number -/

theorem lookup_setKey {α : Type} (t : List (Nat × α)) (k j : Nat) (v : α) :
    lookup (setKey t k v) j = if k = j then some v else lookup t j := by
  induction t with
  | nil => simp [setKey, lookup]
  | cons p r ih =>
    obtain ⟨i, w⟩ := p
    simp only [lookup] at ih
    simp only [setKey]
    split
    · by_cases hk : k = j <;> simp [lookup, hk]
    · split
      · subst i
        by_cases hk : k = j <;> simp [lookup, hk]
      · rename_i hne
        by_cases hi : i = j
        · subst i; simp [lookup, hne]
        · simp [lookup, hi, ih]

@[simp] theorem lookup_setKey_self {α : Type} (t : List (Nat × α)) (k : Nat) (v : α) : lookup (setKey t k v) k = some v := by
  simp [lookup_setKey]

theorem lookup_setKey_ne {α : Type} (t : List (Nat × α)) {k j : Nat} (v : α) (h : k ≠ j) : lookup (setKey t k v) j = lookup t j := by
  simp [lookup_setKey, h]

@[simp] theorem lookupD_modKey_self {α : Type} (t : List (Nat × α)) (k : Nat) (d : α) (f : α → α) :
    lookupD (modKey t k d f) k d = f (lookupD t k d) := by simp [lookupD, modKey]

theorem lookupD_modKey_ne {α : Type} (t : List (Nat × α)) {k j : Nat} (d : α) (f : α → α) (h : k ≠ j) :
    lookupD (modKey t k d f) j d = lookupD t j d := by simp [lookupD, modKey, lookup_setKey, h]

end Sys2Proof.Machine
end

