-- ==== Sys2Proof/Laws/Keeps.lean ====
section
/-!
SUPPORT. What every operation keeps: the integration, the queue of commands, the invariant `BlockInv`, and no more outstanding register
requests than before. Here are the relation, how it passes through a record update, a fold and a choice, and the named updates.
-/
namespace Sys2Proof.Machine

def Keeps (s t : State) : Prop :=
  t.integ = s.integ ∧ t.pending = s.pending ∧ t.bus.queue.length ≤ s.bus.queue.length ∧ (BlockInv s → BlockInv t)

variable {s0 s t : State}

theorem keeps_refl : Keeps s s := ⟨rfl, rfl, Nat.le_refl _, id⟩

theorem keeps_trans (h : Keeps s0 s) (k : Keeps s t) : Keeps s0 t := ⟨k.1.trans h.1, k.2.1.trans h.2.1, Nat.le_trans k.2.2.1 h.2.2.1, k.2.2.2 ∘ h.2.2.2⟩

theorem keeps_of (h : Keeps s0 s) (hi : t.integ = s.integ) (hp : t.pending = s.pending) (hq : t.bus.queue.length ≤ s.bus.queue.length)
    (hb : BlockInv s → BlockInv t) : Keeps s0 t :=
  ⟨hi.trans h.1, hp.trans h.2.1, Nat.le_trans hq h.2.2.1, hb ∘ h.2.2.2⟩

/-- What a state made field by field must hold to keep everything. -/
def KeepsMk (s0 : State) (i : Integ) (p : List Instr) (q : List Ack) (rc : List (RcReg × Nat)) (tf : List CapEnt) (ff : List FaultRec) (pe : List PanelEvt)
    (m b : List Host.Cell) : Prop :=
  i = s0.integ ∧ p = s0.pending ∧ q.length ≤ s0.bus.queue.length ∧ (BlockInv s0 → Memory.wf 0 m = true ∧ Memory.wf 0xFF b = true ∧ q.length ≤ 8 ∧ tf.length ≤ 64 ∧ ff.length ≤ 32 ∧
    pe.length ≤ 32 ∧ ∀ p ∈ rc, p.2 < 2 ^ 32)

theorem keeps_mk_eq {i p bus pow rst mm rc rw adj time cap feat leap img red sealing vrd ilk mir pnl host trc erc cmp flt mem boot fd} :
    Keeps s0 ⟨i, p, bus, pow, rst, mm, rc, rw, adj, time, cap, feat, leap, img, red, sealing, vrd, ilk, mir, pnl, host, trc, erc, cmp, flt,
      mem, boot, fd⟩ = KeepsMk s0 i p bus.queue rc time.fifo flt.fifo pnl.evts mem.sram boot.store := rfl

theorem keepsMk_of {q rc tf ff pe m b} (h : Keeps s0 s) (h1 : q = s.bus.queue) (h2 : rc = s.rc) (h3 : tf = s.time.fifo) (h4 : ff = s.flt.fifo)
    (h5 : pe = s.pnl.evts) (h6 : m = s.mem.sram) (h7 : b = s.boot.store) : KeepsMk s0 s.integ s.pending q rc tf ff pe m b := by
  subst h1 h2 h3 h4 h5 h6 h7; exact h

theorem keepsMk_store {q rc tf ff pe m b} (h : Keeps s0 s) (h1 : q = s.bus.queue) (h2 : rc = s.rc) (h3 : tf = s.time.fifo) (h4 : ff = s.flt.fifo)
    (h5 : pe = s.pnl.evts) (h6 : m = s.mem.sram) (h7 : Memory.wf 0xFF s.boot.store = true → Memory.wf 0xFF b = true) :
    KeepsMk s0 s.integ s.pending q rc tf ff pe m b := by
  subst h1 h2 h3 h4 h5 h6
  obtain ⟨k1, k2, k3, k4⟩ := h
  exact ⟨k1, k2, k3, fun z => have ⟨b1, b2, b3⟩ := k4 z; ⟨b1, h7 b2, b3⟩⟩

theorem keeps_ite {c : Prop} [Decidable c] {a b : State} (h : Keeps s0 a) (k : Keeps s0 b) : Keeps s0 (if c then a else b) := by
  split <;> assumption

theorem keeps_foldl {β : Type} {f : State → β → State} {l : List β} (hf : ∀ b x, Keeps s0 b → Keeps s0 (f b x)) (h : Keeps s0 s) :
    Keeps s0 (l.foldl f s) := by
  induction l generalizing s with
  | nil => exact h
  | cons x r ih => exact ih (hf _ _ h)

theorem keeps_foldl_fst {β γ : Type} {f : State × γ → β → State × γ} {l : List β} {p : State × γ}
    (hf : ∀ b x, Keeps s0 b.1 → Keeps s0 (f b x).1) (h : Keeps s0 p.1) : Keeps s0 (l.foldl f p).1 := by
  induction l generalizing p with
  | nil => exact h
  | cons x r ih => exact ih (hf _ _ h)

theorem keeps_fst {β : Type} {p : State × β} {y : β} (h : Keeps s0 p.1) (e : p = (t, y)) : Keeps s0 t := by rw [e] at h; exact h

theorem keeps_modBus {f} (h : Keeps s0 s) (hf : (f s.bus).queue = s.bus.queue) : Keeps s0 (modBus s f) := by
  unfold modBus; rw [keeps_mk_eq]; exact keepsMk_of h hf rfl rfl rfl rfl rfl rfl
theorem keeps_modTime {f} (h : Keeps s0 s) (hf : (f s.time).fifo = s.time.fifo) : Keeps s0 (modTime s f) := by
  unfold modTime; rw [keeps_mk_eq]; exact keepsMk_of h rfl rfl hf rfl rfl rfl rfl
theorem keeps_modPnl {f} (h : Keeps s0 s) (hf : (f s.pnl).evts = s.pnl.evts) : Keeps s0 (modPnl s f) := by
  unfold modPnl; rw [keeps_mk_eq]; exact keepsMk_of h rfl rfl rfl rfl hf rfl rfl
theorem keeps_modBoot {f} (h : Keeps s0 s) (hf : (f s.boot).store = s.boot.store) : Keeps s0 (modBoot s f) := by
  unfold modBoot; rw [keeps_mk_eq]; exact keepsMk_of h rfl rfl rfl rfl rfl rfl hf

theorem keeps_rcAdd {r n} (h : Keeps s0 s) : Keeps s0 (rcAdd s r n) :=
  keeps_of h (by simp) (by simp) (by simp) fun ⟨b1, b2, b3, b4, b5, b6, b7⟩ => by
    unfold rcAdd
    split
    · exact ⟨b1, b2, b3, b4, b5, b6, b7⟩
    · refine ⟨b1, b2, b3, b4, b5, b6, fun p hp => ?_⟩
      rcases mem_aset hp with rfl | hp
      · simp only [add32]; unfold satAdd; omega
      · exact b7 p hp
theorem keeps_rcInc {r} (h : Keeps s0 s) : Keeps s0 (rcInc s r) := keeps_rcAdd h
theorem keeps_rcMax {r v} (h : Keeps s0 s) : Keeps s0 (rcMax s r v) :=
  keeps_of h (by simp) (by simp) (by simp) fun ⟨b1, b2, b3, b4, b5, b6, b7⟩ => by
    unfold rcMax
    split
    · refine ⟨b1, b2, b3, b4, b5, b6, fun p hp => ?_⟩
      rcases mem_aset hp with rfl | hp
      · simp only; omega
      · exact b7 p hp
    · exact ⟨b1, b2, b3, b4, b5, b6, b7⟩
theorem keeps_rcClear {r} (h : Keeps s0 s) : Keeps s0 (rcClear s r) :=
  keeps_of h (by simp) (by simp) (by simp) fun ⟨b1, b2, b3, b4, b5, b6, b7⟩ => ⟨b1, b2, b3, b4, b5, b6, fun p hp => b7 p (mem_adel hp)⟩
theorem keeps_modBootS {f} (h : Keeps s0 s) (hf : Memory.wf 0xFF s.boot.store = true → Memory.wf 0xFF (f s.boot).store = true) : Keeps s0 (modBoot s f) := by
  unfold modBoot; rw [keeps_mk_eq]; exact keepsMk_store h rfl rfl rfl rfl rfl rfl hf

theorem wf_flashProgram {m : List Host.Cell} {a : Nat} {d : Bytes} (h : Memory.wf 0xFF m = true) : Memory.wf 0xFF (flashProgram m a d) = true := wf_memWrite h

theorem keeps_sram {a : State} {m : List Host.Cell} (h0 : Keeps s0 a) (h : Memory.wf 0 a.mem.sram = true → Memory.wf 0 m = true) :
    Keeps s0 { a with mem := { a.mem with sram := m } } :=
  keeps_of h0 rfl rfl (Nat.le_refl _) fun ⟨b1, b2⟩ => ⟨h b1, b2⟩

theorem keeps_rcFilter {p} (h : Keeps s0 s) : Keeps s0 { s with rc := s.rc.filter p } :=
  keeps_of h rfl rfl (Nat.le_refl _) fun ⟨b1, b2, b3, b4, b5, b6, b7⟩ => ⟨b1, b2, b3, b4, b5, b6, fun p hp => b7 p (List.mem_filter.mp hp).1⟩

end Sys2Proof.Machine
end

