-- ==== Sys2Proof/Laws/KeepsRecord.lean ====
section
/-!
SUPPORT. The shared operations, the recorder, capture, traces and SRAM keep everything that `Keeps` says.
-/
namespace Sys2Proof.Machine

variable {s0 s t : State}

theorem keeps_modPow {a0} {a1} {a2} (h0 : Keeps s0 a0) : Keeps s0 (modPow a0 a1 a2) := by
  unfold modPow
  with_reducible repeat' (first | assumption | refine keepsMk_of ?_ ?_ ?_ ?_ ?_ ?_ ?_ (by rfl) | rfl | dsimp only [keeps_mk_eq])

theorem keeps_touch {a0} {a1} (h0 : Keeps s0 a0) : Keeps s0 (touch a0 a1) := by
  unfold touch
  with_reducible repeat' (first | assumption | refine keeps_modPow ?_)

theorem keeps_mmPump {a0} (h0 : Keeps s0 a0) : Keeps s0 (mmPump a0) := by
  unfold mmPump
  with_reducible repeat' (first | assumption | refine keepsMk_of ?_ ?_ ?_ ?_ ?_ ?_ ?_ (by rfl) | rfl | refine keeps_touch ?_ | refine keeps_ite ?_ ?_ | dsimp only [keeps_mk_eq])

theorem keeps_mmWriteJob {a0} {a1} {a2} {a3} {a4} {a5} (h0 : Keeps s0 a0) : Keeps s0 (mmWriteJob a0 a1 a2 a3 a4 a5) := by
  unfold mmWriteJob
  with_reducible repeat' (first | assumption | refine keepsMk_of ?_ ?_ ?_ ?_ ?_ ?_ ?_ (by rfl) | rfl | dsimp only [keeps_mk_eq])

theorem keeps_mmReadJob {a0} {a1} {a2} {a3} {a4} {a5} (h0 : Keeps s0 a0) : Keeps s0 (mmReadJob a0 a1 a2 a3 a4 a5) := by
  unfold mmReadJob
  with_reducible repeat' (first | assumption | refine keepsMk_of ?_ ?_ ?_ ?_ ?_ ?_ ?_ (by rfl) | rfl | dsimp only [keeps_mk_eq])

theorem keeps_rwSet {a0} {a1} {a2} (h0 : Keeps s0 a0) : Keeps s0 (rwSet a0 a1 a2) := by
  unfold rwSet
  with_reducible repeat' (first | assumption | refine keepsMk_of ?_ ?_ ?_ ?_ ?_ ?_ ?_ (by rfl) | rfl | dsimp only [keeps_mk_eq])

theorem keeps_advanceTo {a0} {a1} (h0 : Keeps s0 a0) : Keeps s0 (advanceTo a0 a1) := by
  unfold advanceTo
  with_reducible repeat' (first | assumption | refine keepsMk_of ?_ ?_ ?_ ?_ ?_ ?_ ?_ (by rfl) | rfl | dsimp only [keeps_mk_eq])

theorem keeps_advanceTb0 {a0} {a1} (h0 : Keeps s0 a0) : Keeps s0 (advanceTb0 a0 a1) := by
  unfold advanceTb0
  with_reducible repeat' (first | assumption | refine keeps_advanceTo ?_)

theorem keeps_advanceTick {a0} {a1} (h0 : Keeps s0 a0) : Keeps s0 (advanceTick a0 a1) := by
  unfold advanceTick
  with_reducible repeat' (first | assumption | refine keeps_advanceTo ?_)

theorem keeps_advanceTb2 {a0} {a1} (h0 : Keeps s0 a0) : Keeps s0 (advanceTb2 a0 a1) := by
  unfold advanceTb2
  with_reducible repeat' (first | assumption | refine keeps_advanceTo ?_)

theorem keeps_advanceSlow {a0} {a1} (h0 : Keeps s0 a0) : Keeps s0 (advanceSlow a0 a1) := by
  unfold advanceSlow
  with_reducible repeat' (first | assumption | refine keeps_advanceTo ?_)

theorem keeps_awaitUnit {a0} {a1} {a2} {a3} (h0 : Keeps s0 a0) (h3 : ∀ {x}, Keeps s0 x → Keeps s0 (a3 x)) : Keeps s0 (awaitUnit a0 a1 a2 a3) := by
  have k : Keeps s0 (touch a0 a1) := keeps_touch h0
  unfold awaitUnit
  exact keeps_ite (keepsMk_of k rfl rfl rfl rfl rfl rfl rfl) (h3 k)

theorem keeps_advanceCore {a0} {a1} (h0 : Keeps s0 a0) : Keeps s0 (advanceCore a0 a1) := by
  unfold advanceCore
  with_reducible repeat' (first | assumption | refine keeps_advanceTo ?_)

theorem keeps_whenOn {a0} {a1} {a2} (h0 : Keeps s0 a0) (h2 : ∀ {x}, Keeps s0 x → Keeps s0 (a2 x)) : Keeps s0 (whenOn a0 a1 a2) :=
  keeps_ite (keeps_touch h0) (h2 (keeps_touch h0))

theorem keeps_modTally {a0} {a1} (h0 : Keeps s0 a0) : Keeps s0 (modTally a0 a1) := by
  unfold modTally
  with_reducible repeat' (first | assumption | refine keepsMk_of ?_ ?_ ?_ ?_ ?_ ?_ ?_ (by rfl) | rfl | dsimp only [keeps_mk_eq])

theorem keeps_ercWait {a0} {a1} (h0 : Keeps s0 a0) : Keeps s0 (ercWait a0 a1) := by
  unfold ercWait
  with_reducible repeat' (first | assumption | refine keepsMk_of ?_ ?_ ?_ ?_ ?_ ?_ ?_ (by rfl) | rfl | dsimp only [keeps_mk_eq])

theorem keeps_ercPut {a0} {a1} {a2} {a3} {a4} {a5} {a6} {a7} (h0 : Keeps s0 a0) : Keeps s0 (ercPut a0 a1 a2 a3 a4 a5 a6 a7) := by
  unfold ercPut
  with_reducible repeat' (first | assumption | refine keepsMk_of ?_ ?_ ?_ ?_ ?_ ?_ ?_ (by rfl) | rfl | refine keeps_rcInc ?_ | refine keeps_ite ?_ ?_ | dsimp only [keeps_mk_eq])

theorem keeps_ercAppend {a0} {a1} {a2} {a3} {a4} {a5} {a6} {a7} (h0 : Keeps s0 a0) : Keeps s0 (ercAppend a0 a1 a2 a3 a4 a5 a6 a7) := by
  unfold ercAppend
  with_reducible repeat' (first | assumption | refine keeps_touch ?_ | refine keeps_ercWait ?_ | refine keeps_ercPut ?_ | refine keeps_ite ?_ ?_)

theorem keeps_ercUnfreeze {a0} (h0 : Keeps s0 a0) : Keeps s0 (ercUnfreeze a0) := by
  unfold ercUnfreeze
  with_reducible repeat' (first | assumption | refine keepsMk_of ?_ ?_ ?_ ?_ ?_ ?_ ?_ (by rfl) | rfl | refine keeps_ercAppend ?_ | refine keeps_ite ?_ ?_ | dsimp only [keeps_mk_eq])

theorem keeps_ercDropFrozen {a0} (h0 : Keeps s0 a0) : Keeps s0 (ercDropFrozen a0) := by
  unfold ercDropFrozen
  with_reducible repeat' (first | assumption | refine keepsMk_of ?_ ?_ ?_ ?_ ?_ ?_ ?_ (by rfl) | rfl | refine keeps_rcInc ?_ | dsimp only [keeps_mk_eq])

theorem keeps_bbFault {a0} (h0 : Keeps s0 a0) : Keeps s0 (bbFault a0) := by
  unfold bbFault
  with_reducible repeat' (first | assumption | refine keepsMk_of ?_ ?_ ?_ ?_ ?_ ?_ ?_ (by rfl) | rfl | refine keeps_rcInc ?_ | refine keeps_ite ?_ ?_ | dsimp only [keeps_mk_eq])

theorem keeps_bbPower {a0} (h0 : Keeps s0 a0) : Keeps s0 (bbPower a0) := by
  unfold bbPower
  with_reducible repeat' (first | assumption | refine keepsMk_of ?_ ?_ ?_ ?_ ?_ ?_ ?_ (by rfl) | rfl | refine keeps_ite ?_ ?_ | dsimp only [keeps_mk_eq] | split)

theorem keeps_ercEnd {a0} {a1} {a2} (h0 : Keeps s0 a0) : Keeps s0 (ercEnd a0 a1 a2) := by
  unfold ercEnd
  with_reducible repeat' (first | assumption | refine keepsMk_of ?_ ?_ ?_ ?_ ?_ ?_ ?_ (by rfl) | rfl | refine keeps_mmWriteJob ?_ | refine keeps_ite ?_ ?_ | dsimp only [keeps_mk_eq])

theorem keeps_ercPlace {a0} {a1} {a2} (h0 : Keeps s0 a0) : Keeps s0 (ercPlace a0 a1 a2) := by
  unfold ercPlace
  with_reducible repeat' (first | assumption | refine keepsMk_of ?_ ?_ ?_ ?_ ?_ ?_ ?_ (by rfl) | rfl | refine keeps_mmWriteJob ?_ | refine keeps_ercEnd ?_ | refine keeps_ite ?_ ?_ | dsimp only [keeps_mk_eq])

theorem keeps_ercSend {a0} (h0 : Keeps s0 a0) : Keeps s0 (ercSend a0) := by
  unfold ercSend
  with_reducible repeat' (first | assumption | refine keeps_ercPlace ?_ | refine keeps_ite ?_ ?_ | split)

theorem keeps_ercFlushEnd {a0} (h0 : Keeps s0 a0) : Keeps s0 (ercFlushEnd a0) := by
  unfold ercFlushEnd
  with_reducible repeat' (first | assumption | refine keepsMk_of ?_ ?_ ?_ ?_ ?_ ?_ ?_ (by rfl) | rfl | refine keeps_ite ?_ ?_ | dsimp only [keeps_mk_eq])

theorem keeps_ercForm {a0} {a1} {a2} (h0 : Keeps s0 a0) : Keeps s0 (ercForm a0 a1 a2) := by
  unfold ercForm
  with_reducible repeat' (first | assumption | refine keepsMk_of ?_ ?_ ?_ ?_ ?_ ?_ ?_ (by rfl) | rfl | refine keeps_ite ?_ ?_ | dsimp only [keeps_mk_eq])

theorem keeps_ercNext {a0} (h0 : Keeps s0 a0) : Keeps s0 (ercNext a0) := by
  unfold ercNext
  with_reducible repeat' (first | assumption | refine keepsMk_of ?_ ?_ ?_ ?_ ?_ ?_ ?_ (by rfl) | rfl | refine keeps_ercFlushEnd ?_ | refine keeps_ercForm ?_ | refine keeps_ite ?_ ?_ | dsimp only [keeps_mk_eq])

theorem keeps_ercPump {a0} (h0 : Keeps s0 a0) : Keeps s0 (ercPump a0) := by
  unfold ercPump
  with_reducible repeat' (first | assumption | refine keeps_mmPump ?_ | refine keeps_ercSend ?_ | refine keeps_ercNext ?_)

theorem keeps_ercFlushNow {a0} {a1} {a2} (h0 : Keeps s0 a0) : Keeps s0 (ercFlushNow a0 a1 a2) := by
  unfold ercFlushNow
  with_reducible repeat' (first | assumption | refine keepsMk_of ?_ ?_ ?_ ?_ ?_ ?_ ?_ (by rfl) | rfl | refine keeps_ercUnfreeze ?_ | refine keeps_ercDropFrozen ?_ | refine keeps_ercAppend ?_ | refine keeps_bbFault ?_ | refine keeps_bbPower ?_ | refine keeps_ercPump ?_ | refine keeps_ite ?_ ?_ | dsimp only [keeps_mk_eq])

theorem keeps_ercFlush {a0} {a1} {a2} (h0 : Keeps s0 a0) : Keeps s0 (ercFlush a0 a1 a2) := by
  unfold ercFlush
  with_reducible repeat' (first | assumption | refine keeps_touch ?_ | refine keeps_ercWait ?_ | refine keeps_ercFlushNow ?_ | refine keeps_ite ?_ ?_)

theorem keeps_ercEpoch {a0} {a1} {a2} (h0 : Keeps s0 a0) : Keeps s0 (ercEpoch a0 a1 a2) := by
  unfold ercEpoch
  with_reducible repeat' (first | assumption | refine keepsMk_of ?_ ?_ ?_ ?_ ?_ ?_ ?_ (by rfl) | rfl | refine keeps_ercDropFrozen ?_ | refine keeps_ercAppend ?_ | refine keeps_ite ?_ ?_ | dsimp only [keeps_mk_eq] | split)

theorem keeps_ercReady {a0} {a1} {a2} {a3} {a4} {a5} (h0 : Keeps s0 a0) : Keeps s0 (ercReady a0 a1 a2 a3 a4 a5) := by
  unfold ercReady
  with_reducible repeat' (first | assumption | refine keepsMk_of ?_ ?_ ?_ ?_ ?_ ?_ ?_ (by rfl) | rfl | refine keeps_modTally ?_ | dsimp only [keeps_mk_eq])

theorem keeps_ercChunkDone {a0} {a1} {a2} {a3} (h0 : Keeps s0 a0) : Keeps s0 (ercChunkDone a0 a1 a2 a3) := by
  unfold ercChunkDone
  with_reducible repeat' (first | assumption | refine keepsMk_of ?_ ?_ ?_ ?_ ?_ ?_ ?_ (by rfl) | rfl | refine keeps_ercPump ?_ | refine keeps_ercFlushEnd ?_ | dsimp only [keeps_mk_eq] | split)

theorem keeps_bbPageDone {a0} (h0 : Keeps s0 a0) : Keeps s0 (bbPageDone a0) := by
  unfold bbPageDone
  with_reducible repeat' (first | assumption | refine keepsMk_store ?_ ?_ ?_ ?_ ?_ ?_ ?_ (fun _ => ?_) | rfl | dsimp only [keeps_mk_eq] | split | refine wf_memWrite ?_)

theorem keeps_ercStart {a0} (h0 : Keeps s0 a0) : Keeps s0 (ercStart a0) := by
  unfold ercStart
  with_reducible repeat' (first | assumption | refine keepsMk_of ?_ ?_ ?_ ?_ ?_ ?_ ?_ (by rfl) | rfl | refine keeps_ercDropFrozen ?_ | refine keeps_ercAppend ?_ | refine keeps_ite ?_ ?_ | dsimp only [keeps_mk_eq])

theorem keeps_ercServe {a0} {a1} (h0 : Keeps s0 a0) : Keeps s0 (ercServe a0 a1) := by
  unfold ercServe
  with_reducible repeat' (first | assumption | refine keeps_ercPut ?_ | refine keeps_ercFlushNow ?_ | split)

theorem keeps_ercWake {a0} (h0 : Keeps s0 a0) : Keeps s0 (ercWake a0) := by
  unfold ercWake
  with_reducible repeat' (first | assumption | refine keepsMk_of ?_ ?_ ?_ ?_ ?_ ?_ ?_ (by rfl) | rfl | refine keeps_ercPump ?_ | refine keeps_ercServe ?_ | dsimp only [keeps_mk_eq] | refine keeps_foldl ?_ ?_ | intro _ _ _)

theorem keeps_faultEnter {a0} {a1} (h0 : Keeps s0 a0) : Keeps s0 (faultEnter a0 a1) := by
  unfold faultEnter
  split
  · exact keeps_of h0 rfl rfl (Nat.le_refl _) fun ⟨b1, b2, b3, b4, b5, b6, b7⟩ => ⟨b1, b2, b3, b4, by simp; omega, b6, b7⟩
  · split
    · exact keeps_of h0 rfl rfl (Nat.le_refl _) fun ⟨b1, b2, b3, b4, b5, b6, b7⟩ => ⟨b1, b2, b3, b4, by simp; omega, b6, b7⟩
    · exact keeps_rcInc h0

theorem keeps_raiseFault {a0} {a1} {a2} (h0 : Keeps s0 a0) : Keeps s0 (raiseFault a0 a1 a2) := by
  unfold raiseFault
  exact keeps_ercFlush (keeps_modTally (keeps_faultEnter (keepsMk_of h0 rfl rfl rfl rfl rfl rfl rfl)))

theorem keeps_modCap {a0} {a1} (h0 : Keeps s0 a0) : Keeps s0 (modCap a0 a1) := by
  unfold modCap
  with_reducible repeat' (first | assumption | refine keepsMk_of ?_ ?_ ?_ ?_ ?_ ?_ ?_ (by rfl) | rfl | dsimp only [keeps_mk_eq])

theorem keeps_capDrop {a0} {a1} {a2} {a3} (h0 : Keeps s0 a0) : Keeps s0 (capDrop a0 a1 a2 a3) := by
  unfold capDrop
  with_reducible repeat' (first | assumption | refine keeps_ite ?_ ?_ | refine keeps_modCap ?_ | refine keeps_rcAdd ?_)

theorem keeps_lnkSlot {a0} {a1} (h0 : Keeps s0 a0) : Keeps s0 (lnkSlot a0 a1) := by
  unfold lnkSlot
  with_reducible repeat' (first | assumption | refine keeps_capDrop ?_ | refine keeps_modCap ?_ | refine keeps_ite ?_ ?_)

theorem keeps_capRemap {a0} (h0 : Keeps s0 a0) : Keeps s0 (capRemap a0) := by
  unfold capRemap
  with_reducible repeat' (first | assumption | refine keeps_modCap ?_ | split)

theorem keeps_optabAdd {a0} {a1} {a2} {a3} {a4} (h0 : Keeps s0 a0) : Keeps s0 (optabAdd a0 a1 a2 a3 a4) := by
  unfold optabAdd
  with_reducible repeat' (first | assumption | refine keeps_modCap ?_ | refine keeps_capDrop ?_ | refine keeps_ite ?_ ?_ | dsimp only [keeps_mk_eq] | split)

theorem keeps_engCredit {a0} {a1} {a2} (h0 : Keeps s0 a0) : Keeps s0 (engCredit a0 a1 a2) := by
  unfold engCredit
  with_reducible repeat' (first | assumption | refine keeps_modCap ?_ | refine keeps_optabAdd ?_ | refine keeps_ite ?_ ?_ | dsimp only [keeps_mk_eq] | split)

theorem keeps_engCut {a0} {a1} (h0 : Keeps s0 a0) : Keeps s0 (engCut a0 a1) := by
  unfold engCut
  with_reducible repeat' (first | assumption | refine keeps_engCredit ?_ | refine keeps_ite ?_ ?_ | refine keeps_foldl ?_ ?_ | intro _ _ _ | split)

theorem keeps_quietSensors {a0} (h0 : Keeps s0 a0) : Keeps s0 (quietSensors a0) := by
  unfold quietSensors
  with_reducible repeat' (first | assumption | refine keeps_modCap ?_ | split)

theorem keeps_profLose {a0} {a1} (h0 : Keeps s0 a0) : Keeps s0 (profLose a0 a1) := by
  unfold profLose
  with_reducible repeat' (first | assumption | refine keeps_capDrop ?_ | refine keeps_modCap ?_)

theorem keeps_profDropRest {a0} (h0 : Keeps s0 a0) : Keeps s0 (profDropRest a0) := by
  unfold profDropRest
  with_reducible repeat' (first | assumption | refine keeps_modCap ?_ | refine keeps_profLose ?_ | refine keeps_ite ?_ ?_)

theorem keeps_profClose {a0} {a1} (h0 : Keeps s0 a0) : Keeps s0 (profClose a0 a1) := by
  unfold profClose
  with_reducible repeat' (first | assumption | refine keepsMk_of ?_ ?_ ?_ ?_ ?_ ?_ ?_ (by rfl) | rfl | refine keeps_modCap ?_ | refine keeps_ite ?_ ?_ | dsimp only [keeps_mk_eq])

theorem keeps_profShut {a0} {a1} (h0 : Keeps s0 a0) : Keeps s0 (profShut a0 a1) := by
  unfold profShut
  with_reducible repeat' (first | assumption | refine keeps_profClose ?_ | refine keeps_modCap ?_ | dsimp only [keeps_mk_eq] | split)

theorem keeps_profOpen {a0} {a1} (h0 : Keeps s0 a0) : Keeps s0 (profOpen a0 a1) := by
  unfold profOpen
  with_reducible repeat' (first | assumption | refine keeps_profShut ?_ | refine keeps_modCap ?_ | refine keeps_ite ?_ ?_)

theorem keeps_profPour {a0} {a1} (h1 : Keeps s0 a1) : Keeps s0 (profPour a0 a1) := by
  induction a0 generalizing a1 with
  | nil =>
    unfold profPour
    with_reducible repeat' (first | assumption | refine keeps_modCap ?_ | refine keeps_profShut ?_)
  | cons e r ih =>
    unfold profPour
    with_reducible repeat' (first | assumption | refine ih ?_ | refine keeps_profOpen ?_ | refine keeps_modCap ?_ | refine keeps_profLose ?_ | refine keeps_profDropRest ?_ | refine keeps_ite ?_ ?_ | dsimp only [keeps_mk_eq] | split)

theorem keeps_profWrite {a0} {a1} {a2} {a3} {a4} (h0 : Keeps s0 a0) : Keeps s0 (profWrite a0 a1 a2 a3 a4) := by
  unfold profWrite
  with_reducible repeat' (first | assumption | refine keeps_profDropRest ?_ | refine keeps_profLose ?_ | refine keeps_profPour ?_ | refine keeps_modCap ?_ | refine keeps_ite ?_ ?_)

theorem keeps_capFreeze {a0} {a1} {a2} {a3} (h0 : Keeps s0 a0) : Keeps s0 (capFreeze a0 a1 a2 a3) := by
  unfold capFreeze
  with_reducible repeat' (first | assumption | refine keepsMk_of ?_ ?_ ?_ ?_ ?_ ?_ ?_ (by rfl) | rfl | refine keeps_engCut ?_ | refine keeps_modCap ?_ | refine keeps_quietSensors ?_ | refine keeps_profWrite ?_ | dsimp only [keeps_mk_eq])

theorem keeps_capBegin {a0} (h0 : Keeps s0 a0) : Keeps s0 (capBegin a0) := by
  unfold capBegin
  with_reducible repeat' (first | assumption | refine keepsMk_of ?_ ?_ ?_ ?_ ?_ ?_ ?_ (by rfl) | rfl | refine keeps_engCut ?_ | refine keeps_modCap ?_ | dsimp only [keeps_mk_eq])

theorem keeps_profDone {a0} {a1} (h0 : Keeps s0 a0) : Keeps s0 (profDone a0 a1) := by
  unfold profDone
  with_reducible repeat' (first | assumption | refine keeps_modCap ?_ | refine keeps_capDrop ?_ | refine keeps_profPour ?_ | refine keeps_ite ?_ ?_)

theorem keeps_profCopy {a0} (h0 : Keeps s0 a0) : Keeps s0 (profCopy a0) := by
  unfold profCopy
  with_reducible repeat' (first | assumption | refine keeps_mmPump ?_ | refine keeps_mmWriteJob ?_ | refine keeps_modCap ?_ | refine keeps_touch ?_ | refine keeps_ite ?_ ?_ | dsimp only [keeps_mk_eq] | split)

theorem keeps_ringClear {a0} {a1} (h0 : Keeps s0 a0) : Keeps s0 (ringClear a0 a1) := by
  unfold ringClear
  with_reducible repeat' (first | assumption | refine keeps_modCap ?_)

theorem keeps_setSlot {a0} {a1} {a2} (h0 : Keeps s0 a0) : Keeps s0 (setSlot a0 a1 a2) := by
  unfold setSlot
  with_reducible repeat' (first | assumption | refine keeps_modCap ?_)

theorem keeps_featEvent {a0} {a1} (h0 : Keeps s0 a0) : Keeps s0 (featEvent a0 a1) := by
  unfold featEvent
  with_reducible repeat' (first | assumption | refine keepsMk_of ?_ ?_ ?_ ?_ ?_ ?_ ?_ (by rfl) | rfl | refine keeps_capDrop ?_ | refine keeps_ite ?_ ?_ | dsimp only [keeps_mk_eq])

theorem keeps_markStep {a0} {a1} {a2} {a3} {a4} (h0 : Keeps s0 a0) : Keeps s0 (markStep a0 a1 a2 a3 a4) := by
  unfold markStep
  with_reducible repeat' (first | assumption | refine keeps_capDrop ?_ | refine keeps_modCap ?_ | refine keeps_setSlot ?_ | refine keeps_featEvent ?_ | refine keeps_ite ?_ ?_ | dsimp only [keeps_mk_eq] | split)

theorem keeps_stepMarkOp {a0} {a1} (h0 : Keeps s0 a0) : Keeps s0 (stepMarkOp a0 a1) := by
  unfold stepMarkOp
  with_reducible repeat' (first | assumption | refine keeps_markStep ?_ | refine keeps_ite ?_ ?_ | dsimp only [keeps_mk_eq] | split)

theorem keeps_eccTake {a0} {a1} (h0 : Keeps s0 a0) : Keeps s0 (eccTake a0 a1) := by
  unfold eccTake
  with_reducible repeat' (first | assumption | refine keeps_modCap ?_ | refine keeps_featEvent ?_ | refine keeps_ite ?_ ?_)

theorem keeps_eccSlot {a0} {a1} (h0 : Keeps s0 a0) : Keeps s0 (eccSlot a0 a1) := by
  unfold eccSlot
  with_reducible repeat' (first | assumption | refine keeps_capDrop ?_ | refine keeps_eccTake ?_ | refine keeps_ite ?_ ?_ | split)

theorem keeps_profZipped {a0} {a1} (h0 : Keeps s0 a0) : Keeps s0 (profZipped a0 a1) := by
  unfold profZipped
  with_reducible repeat' (first | assumption | refine keeps_modCap ?_)

theorem keeps_snsSlot {a0} {a1} (h0 : Keeps s0 a0) : Keeps s0 (snsSlot a0 a1) := by
  unfold snsSlot
  with_reducible repeat' (first | assumption | refine keeps_capDrop ?_ | refine keeps_modCap ?_ | refine keeps_ite ?_ ?_)

theorem keeps_incSlots {a0} {a1} (h0 : Keeps s0 a0) : Keeps s0 (incSlots a0 a1) := by
  unfold incSlots
  with_reducible repeat' (first | assumption | refine keeps_capDrop ?_ | refine keeps_modCap ?_ | dsimp only [keeps_mk_eq] | refine keeps_foldl ?_ ?_ | intro _ _ _)

theorem keeps_ringNet {a0} {a1} {a2} {a3} (h0 : Keeps s0 a0) : Keeps s0 (ringNet a0 a1 a2 a3) := by
  unfold ringNet
  with_reducible repeat' (first | assumption | refine keeps_modCap ?_ | refine keeps_capDrop ?_ | refine keeps_ite ?_ ?_)

theorem keeps_ringSlots {a0} {a1} (h0 : Keeps s0 a0) : Keeps s0 (ringSlots a0 a1) := by
  unfold ringSlots
  with_reducible repeat' (first | assumption | refine keeps_capDrop ?_ | refine keeps_ringNet ?_ | dsimp only [keeps_mk_eq] | refine keeps_foldl ?_ ?_ | intro _ _ _)

theorem keeps_engTake {a0} {a1} (h0 : Keeps s0 a0) : Keeps s0 (engTake a0 a1) := by
  unfold engTake
  with_reducible repeat' (first | assumption | refine keeps_engCredit ?_ | refine keeps_modCap ?_ | refine keeps_optabAdd ?_ | refine keeps_ite ?_ ?_)

theorem keeps_engSlots {a0} {a1} (h0 : Keeps s0 a0) : Keeps s0 (engSlots a0 a1) := by
  unfold engSlots
  with_reducible repeat' (first | assumption | refine keeps_capDrop ?_ | refine keeps_engTake ?_ | dsimp only [keeps_mk_eq] | refine keeps_foldl ?_ ?_ | intro _ _ _)

theorem keeps_modCore {a0} {a1} {a2} (h0 : Keeps s0 a0) : Keeps s0 (modCore a0 a1 a2) := by
  unfold modCore
  with_reducible repeat' (first | assumption | refine keepsMk_of ?_ ?_ ?_ ?_ ?_ ?_ ?_ (by rfl) | rfl | dsimp only [keeps_mk_eq])

theorem keeps_closeBlock {a0} {a1} (h0 : Keeps s0 a0) : Keeps s0 (closeBlock a0 a1) := by
  unfold closeBlock
  with_reducible repeat' (first | assumption | refine keepsMk_of ?_ ?_ ?_ ?_ ?_ ?_ ?_ (by rfl) | rfl | refine keeps_modCore ?_ | refine keeps_ite ?_ ?_ | dsimp only [keeps_mk_eq] | split)

theorem keeps_applySize {a0} {a1} (h0 : Keeps s0 a0) : Keeps s0 (applySize a0 a1) := by
  unfold applySize
  with_reducible repeat' (first | assumption | refine keeps_rwSet ?_ | refine keeps_modCore ?_ | refine keeps_ite ?_ ?_ | dsimp only [keeps_mk_eq] | split)

theorem keeps_sizeWrite {a0} {a1} {a2} (h0 : Keeps s0 a0) : Keeps s0 (sizeWrite a0 a1 a2) := by
  unfold sizeWrite
  with_reducible repeat' (first | assumption | refine keeps_modCore ?_ | refine keeps_applySize ?_ | refine keeps_closeBlock ?_ | refine keeps_ite ?_ ?_)

theorem keeps_trcHaltClear {a0} {a1} (h0 : Keeps s0 a0) : Keeps s0 (trcHaltClear a0 a1) := by
  unfold trcHaltClear
  with_reducible repeat' (first | assumption | refine keeps_modCore ?_)

theorem keeps_bufferFreed {a0} {a1} (h0 : Keeps s0 a0) : Keeps s0 (bufferFreed a0 a1) := by
  unfold bufferFreed
  with_reducible repeat' (first | assumption | refine keeps_modCore ?_ | refine keeps_applySize ?_ | refine keeps_ite ?_ ?_)

theorem keeps_powerUp {a0} {a1} (h0 : Keeps s0 a0) : Keeps s0 (powerUp a0 a1) := by
  unfold powerUp
  with_reducible repeat' (first | assumption | refine keeps_modCore ?_ | refine keeps_bufferFreed ?_ | refine keeps_ite ?_ ?_)

theorem keeps_blockZipped {a0} {a1} {a2} {a3} {a4} (h0 : Keeps s0 a0) : Keeps s0 (blockZipped a0 a1 a2 a3 a4) := by
  unfold blockZipped
  with_reducible repeat' (first | assumption | refine keeps_modCore ?_)

theorem keeps_loseEvents {a0} {a1} {a2} {a3} {a4} (h0 : Keeps s0 a0) : Keeps s0 (loseEvents a0 a1 a2 a3 a4) := by
  unfold loseEvents
  with_reducible repeat' (first | assumption | refine keeps_modCore ?_ | refine keeps_rcAdd ?_)

theorem keeps_loseMarks {a0} {a1} {a2} (h0 : Keeps s0 a0) : Keeps s0 (loseMarks a0 a1 a2) := by
  unfold loseMarks
  with_reducible repeat' (first | assumption | refine keeps_rcAdd ?_ | refine keeps_loseEvents ?_)

theorem keeps_blockDone {a0} {a1} {a2} (h0 : Keeps s0 a0) : Keeps s0 (blockDone a0 a1 a2) := by
  unfold blockDone
  with_reducible repeat' (first | assumption | refine keeps_bufferFreed ?_ | refine keeps_modCore ?_ | refine keeps_loseMarks ?_ | refine keeps_loseEvents ?_ | refine keeps_ite ?_ ?_ | dsimp only [keeps_mk_eq] | split)

theorem keeps_makeRoom {a0 : State} {c n} {t : State} (h0 : Keeps s0 a0) (e : makeRoom a0 c n = some t) : Keeps s0 t := by
  unfold makeRoom at e
  dsimp only at e
  split at e
  · split at e
    · cases e; exact h0
    · split at e
      · cases e; exact keeps_modCore (keeps_closeBlock h0)
      · cases e
  · split at e
    · cases e; exact keeps_modCore h0
    · cases e

theorem keeps_tsFirst {a0 : State} {c} {t : State} (h0 : Keeps s0 a0) (e : tsFirst a0 c = some t) : Keeps s0 t := by
  unfold tsFirst at e
  split at e
  · obtain ⟨u, hu, rfl⟩ := Option.map_eq_some_iff.mp e
    exact keeps_ite (keeps_modCore (keeps_makeRoom h0 hu)) (keeps_makeRoom h0 hu)
  · cases e; exact h0

theorem keeps_eventRoom {a0 : State} {c} {t : State} (h0 : Keeps s0 a0) (e : eventRoom a0 c = some t) : Keeps s0 t := by
  obtain ⟨u, hu, hv⟩ := Option.bind_eq_some_iff.mp e
  exact keeps_makeRoom (keeps_tsFirst h0 hu) hv

theorem keeps_traceOne {a0} {a1} (h0 : Keeps s0 a0) : Keeps s0 (traceOne a0 a1) := by
  unfold traceOne
  with_reducible repeat' (first | assumption | refine keeps_rcInc ?_ | refine keeps_touch ?_ | refine keeps_loseEvents ?_ | refine keeps_eventRoom ?_ (by assumption) | refine keeps_modCore ?_ | refine keeps_ite ?_ ?_ | split)

theorem keeps_ageClose {a0} {a1} (h0 : Keeps s0 a0) : Keeps s0 (ageClose a0 a1) := by
  unfold ageClose
  with_reducible repeat' (first | assumption | refine keeps_closeBlock ?_ | refine keeps_advanceTb0 ?_ | refine keeps_ite ?_ ?_ | split)

theorem keeps_blockWrite {a0} {a1} (h0 : Keeps s0 a0) : Keeps s0 (blockWrite a0 a1) := by
  unfold blockWrite
  with_reducible repeat' (first | assumption | refine keeps_mmPump ?_ | refine keeps_mmWriteJob ?_ | refine keeps_modCore ?_ | refine keeps_ite ?_ ?_ | dsimp only [keeps_mk_eq] | split)

theorem keeps_powerDown {a0} {a1} (h0 : Keeps s0 a0) : Keeps s0 (powerDown a0 a1) := by
  have k0 : Keeps s0 (modCore a0 a1 (fun k => { k with pwrReq := true, reqAt := a0.time.c })) := keeps_modCore h0
  unfold powerDown
  generalize modCore a0 a1 (fun k => { k with pwrReq := true, reqAt := a0.time.c }) = t at k0
  dsimp only
  refine keeps_ite (keeps_modCore k0) (keeps_ite (keeps_modCore (keeps_loseMarks (keeps_modCore k0))) ?_)
  generalize hu : (if (coreAt t a1).cur.isNone && decide (bufsUsed (coreAt t a1) < 2) && ringOn (coreAt t a1) then modCore t a1 (openBlock t)
    else t) = u
  have k1 : Keeps s0 u := hu ▸ keeps_ite (keeps_modCore k0) k0
  split
  · have k2 : Keeps s0 ((tsFirst u a1).getD u) := by
      cases e : tsFirst u a1
      · exact k1
      · exact keeps_tsFirst k1 e
    exact keeps_closeBlock (keeps_modCore k2)
  · exact keeps_loseMarks k1

theorem keeps_ackTimeout {a0} {a1} (h0 : Keeps s0 a0) : Keeps s0 (ackTimeout a0 a1) := by
  unfold ackTimeout
  with_reducible repeat' (first | assumption | refine keeps_advanceTo ?_ | refine keeps_loseMarks ?_ | refine keeps_loseEvents ?_ | refine keeps_modCore ?_ | refine keeps_ite ?_ ?_ | split)

theorem keeps_kibAdd {a0} {a1} {a2} {a3} (h0 : Keeps s0 a0) : Keeps s0 (kibAdd a0 a1 a2 a3).1 := by
  unfold kibAdd
  with_reducible repeat' (first | assumption | refine keeps_rcAdd ?_)

theorem keeps_modCmp {a0} {a1} (h0 : Keeps s0 a0) : Keeps s0 (modCmp a0 a1) := by
  unfold modCmp
  with_reducible repeat' (first | assumption | refine keepsMk_of ?_ ?_ ?_ ?_ ?_ ?_ ?_ (by rfl) | rfl | dsimp only [keeps_mk_eq])

theorem keeps_zipCounts {a0} {a1} {a2} (h0 : Keeps s0 a0) : Keeps s0 (zipCounts a0 a1 a2) := by
  unfold zipCounts
  with_reducible repeat' (first | assumption | refine keeps_kibAdd ?_ | refine keeps_rcInc ?_ | refine keeps_modCmp ?_)

theorem keeps_zipDeliver {a0} {a1} {a2} {a3} {a4} (h0 : Keeps s0 a0) : Keeps s0 (zipDeliver a0 a1 a2 a3 a4) := by
  unfold zipDeliver
  with_reducible repeat' (first | assumption | refine keepsMk_of ?_ ?_ ?_ ?_ ?_ ?_ ?_ (by rfl) | rfl | refine keeps_blockZipped ?_ | refine keeps_profZipped ?_ | refine keeps_modCmp ?_ | refine keeps_ercPump ?_ | refine keeps_ite ?_ ?_ | dsimp only [keeps_mk_eq] | split)

theorem keeps_zipFail {a0} (h0 : Keeps s0 a0) : Keeps s0 (zipFail a0) := by
  unfold zipFail
  with_reducible repeat' (first | assumption | refine keeps_modCmp ?_ | refine keeps_rcInc ?_ | refine keeps_raiseFault ?_ | refine keeps_ite ?_ ?_)

theorem keeps_compressDone {a0} {a1} (h0 : Keeps s0 a0) : Keeps s0 (compressDone a0 a1) := by
  unfold compressDone
  with_reducible repeat' (first | assumption | refine keeps_modCmp ?_ | refine keeps_zipCounts ?_ | refine keeps_rcInc ?_ | refine keeps_zipDeliver ?_ | refine keeps_zipFail ?_ | refine keeps_ite ?_ ?_ | dsimp only [keeps_mk_eq] | split)

theorem keeps_modBank {a0} {a1} {a2} (h0 : Keeps s0 a0) : Keeps s0 (modBank a0 a1 a2) := by
  unfold modBank
  with_reducible repeat' (first | assumption | refine keepsMk_of ?_ ?_ ?_ ?_ ?_ ?_ ?_ (by rfl) | rfl | dsimp only [keeps_mk_eq])

theorem keeps_dropEnt {a0} {a1} {a2} (h0 : Keeps s0 a0) : Keeps s0 (dropEnt a0 a1 a2) := by
  unfold dropEnt
  with_reducible repeat' (first | assumption | refine keeps_modBank ?_)

theorem keeps_storeRaw {a0} {a1} {a2} {a3} (h0 : Keeps s0 a0) : Keeps s0 (storeRaw a0 a1 a2 a3) := by
  unfold storeRaw
  exact keeps_sram h0 wf_memWrite

theorem keeps_writeWordA {a0} {a1} {a2} {a3} (h0 : Keeps s0 a0) : Keeps s0 (writeWordA a0 a1 a2 a3) := by
  unfold writeWordA
  with_reducible repeat' (first | assumption | refine keepsMk_of ?_ ?_ ?_ ?_ ?_ ?_ ?_ (by rfl) | rfl | refine keeps_storeRaw ?_ | refine keeps_modBank ?_ | refine keeps_ite ?_ ?_ | dsimp only [keeps_mk_eq])

theorem keeps_noteFix {a0} {a1} {a2} {a3} (h0 : Keeps s0 a0) : Keeps s0 (noteFix a0 a1 a2 a3) := by
  have k : ∀ {t u f}, Keeps s0 (modBank { rcInc a0 .memCe with mem := { (rcInc a0 .memCe).mem with lastCe := t } } u f) :=
    keeps_modBank (keepsMk_of (keeps_rcInc h0) rfl rfl rfl rfl rfl rfl rfl)
  unfold noteFix
  exact keeps_ite (keeps_raiseFault (keeps_modBank k)) k

theorem keeps_noteUe {a0} {a1} (h0 : Keeps s0 a0) : Keeps s0 (noteUe a0 a1) := by
  have k : ∀ l, Keeps s0 { a0 with mem := { a0.mem with lastUe := l } } := fun _ => keepsMk_of h0 rfl rfl rfl rfl rfl rfl rfl
  unfold noteUe
  exact keeps_raiseFault (k _)

theorem keeps_readWord {a0} {a1} {a2} {a3} (h0 : Keeps s0 a0) : Keeps s0 (readWord a0 a1 a2 a3).1 := by
  unfold readWord
  generalize rsDecode (rawWord a0 a1 a2) (bankAt a0 a1).erased = r
  dsimp only
  have k : Keeps s0 (r.fixes.foldl (fun a f => noteFix a a1 a2 f) a0) := keeps_foldl (fun _ _ h => keeps_noteFix h) h0
  generalize List.foldl (fun a f => noteFix a a1 a2 f) a0 r.fixes = t at k
  split
  · exact keeps_ite (keeps_rcInc k) (keeps_noteUe (keeps_rcInc k))
  · split
    · exact keeps_ite (keeps_noteUe (keeps_rcInc k)) (keeps_modBank (keeps_noteUe (keeps_rcInc k)))
    · exact k

theorem keeps_drainEnt {a0} {a1} {a2} (h0 : Keeps s0 a0) : Keeps s0 (drainEnt a0 a1 a2) := by
  unfold drainEnt
  with_reducible repeat' (first | assumption | refine keeps_dropEnt ?_ | refine keeps_writeWordA ?_ | refine keeps_readWord ?_ | refine keeps_rcInc ?_ | refine keeps_noteUe ?_ | refine keeps_ite ?_ ?_)

theorem keeps_drainWord {a0} {a1} {a2} (h0 : Keeps s0 a0) : Keeps s0 (drainWord a0 a1 a2) := by
  unfold drainWord
  with_reducible repeat' (first | assumption | refine keeps_drainEnt ?_ | split)

theorem keeps_readIn {a0} {a1} {a2} {a3} (h0 : Keeps s0 a0) : Keeps s0 (readIn a0 a1 a2 a3).1 := by
  unfold readIn
  with_reducible repeat' (first | assumption | refine keeps_drainWord ?_ | refine keeps_readWord ?_ | dsimp only [keeps_mk_eq] | split)

theorem keeps_readSpan {a0} {a1} {a2} {a3} {a4} (h2 : Keeps s0 a2) : Keeps s0 (readSpan a0 a1 a2 a3 a4).1 := by
  induction a1 generalizing a2 a3 a4 with
  | zero =>
    unfold readSpan
    with_reducible assumption
  | succ n ih =>
    unfold readSpan
    with_reducible repeat' (first | assumption | refine ih ?_ | refine keeps_rcInc ?_ | refine keeps_readIn ?_ | dsimp only [keeps_mk_eq] | split)

theorem keeps_sramRead {a0} {a1} {a2} {a3} (h0 : Keeps s0 a0) : Keeps s0 (sramRead a0 a1 a2 a3).1 := by
  unfold sramRead
  with_reducible repeat' (first | assumption | refine keeps_readSpan ?_ | refine keeps_touch ?_)

theorem keeps_writeWordB {a0} {a1} {a2} {a3} (h0 : Keeps s0 a0) : Keeps s0 (writeWordB a0 a1 a2 a3) := by
  unfold writeWordB
  with_reducible repeat' (first | assumption | refine keeps_modBank ?_ | refine keeps_storeRaw ?_)

theorem keeps_writeIn {a0} {a1} {a2} {a3} {a4} {a5} (h0 : Keeps s0 a0) : Keeps s0 (writeIn a0 a1 a2 a3 a4 a5) := by
  unfold writeIn
  with_reducible repeat' (first | assumption | refine keeps_drainEnt ?_ | refine keeps_writeWordB ?_ | refine keeps_writeWordA ?_ | refine keeps_modBank ?_ | refine keeps_ite ?_ ?_ | dsimp only [keeps_mk_eq] | split)

theorem keeps_writeSpan {a0} {a1} {a2} {a3} {a4} (h2 : Keeps s0 a2) : Keeps s0 (writeSpan a0 a1 a2 a3 a4) := by
  induction a1 generalizing a2 a3 a4 with
  | zero =>
    unfold writeSpan
    with_reducible assumption
  | succ n ih =>
    unfold writeSpan
    with_reducible repeat' (first | assumption | refine ih ?_ | refine keeps_writeIn ?_ | refine keeps_rcInc ?_ | refine keeps_ite ?_ ?_)

theorem keeps_sramWrite {a0} {a1} {a2} {a3} (h0 : Keeps s0 a0) : Keeps s0 (sramWrite a0 a1 a2 a3) := by
  unfold sramWrite
  with_reducible repeat' (first | assumption | refine keeps_writeSpan ?_ | refine keeps_touch ?_)

theorem keeps_aliasWord {a0} {a1} {a2} {a3} (h0 : Keeps s0 a0) : Keeps s0 (aliasWord a0 a1 a2 a3).1 := by
  unfold aliasWord
  with_reducible repeat' (first | assumption | refine keeps_readWord ?_ | refine keeps_drainWord ?_ | refine keeps_writeWordB ?_ | refine keeps_rcInc ?_ | dsimp only [keeps_mk_eq] | split)

theorem keeps_aliasSpan {a0} {a1} {a2} {a3} {a4} (h2 : Keeps s0 a2) : Keeps s0 (aliasSpan a0 a1 a2 a3 a4).1 := by
  induction a1 generalizing a2 a3 a4 with
  | zero =>
    unfold aliasSpan
    with_reducible assumption
  | succ n ih =>
    unfold aliasSpan
    with_reducible repeat' (first | assumption | refine ih ?_ | refine keeps_aliasWord ?_ | dsimp only [keeps_mk_eq] | split)

theorem keeps_scrubWriteback {a0} {a1} (h0 : Keeps s0 a0) : Keeps s0 (scrubWriteback a0 a1) := by
  unfold scrubWriteback
  with_reducible repeat' (first | assumption | refine keeps_rcInc ?_ | refine keeps_modBank ?_ | refine keeps_storeRaw ?_ | dsimp only [keeps_mk_eq] | split)

theorem keeps_poisonRewriteOp {a0} {a1} (h0 : Keeps s0 a0) : Keeps s0 (poisonRewriteOp a0 a1) := by
  unfold poisonRewriteOp
  with_reducible repeat' (first | assumption | refine keeps_writeWordA ?_ | split)

theorem keeps_erasureEndOp {a0} (h0 : Keeps s0 a0) : Keeps s0 (erasureEndOp a0) := by
  unfold erasureEndOp
  with_reducible repeat' (first | assumption | refine keeps_modBank ?_)

theorem keeps_injWrite {a0} {a1} (h0 : Keeps s0 a0) : Keeps s0 (injWrite a0 a1) := by
  unfold injWrite
  with_reducible repeat' (first | assumption | refine keepsMk_of ?_ ?_ ?_ ?_ ?_ ?_ ?_ (by rfl) | rfl | refine keeps_ite ?_ ?_ | dsimp only [keeps_mk_eq])

theorem keeps_selfTestWords {a0} (h0 : Keeps s0 a0) : Keeps s0 (selfTestWords a0) := by
  unfold selfTestWords
  with_reducible repeat' (first | assumption | refine keeps_storeRaw ?_ | dsimp only [keeps_mk_eq] | refine keeps_foldl ?_ ?_ | intro _ _ _)

theorem keeps_scrubRead {a0} {a1} (h0 : Keeps s0 a0) : Keeps s0 (scrubRead a0 a1) := by
  unfold scrubRead
  with_reducible repeat' (first | assumption | refine keepsMk_of ?_ ?_ ?_ ?_ ?_ ?_ ?_ (by rfl) | rfl | refine keeps_touch ?_ | refine keeps_advanceTb2 ?_ | refine keeps_readWord ?_ | refine keeps_drainWord ?_ | refine keeps_rcInc ?_ | refine keeps_writeWordB ?_ | refine keeps_modBank ?_ | refine keeps_ite ?_ ?_ | dsimp only [keeps_mk_eq])

theorem keeps_drainAll {a0} (h0 : Keeps s0 a0) : Keeps s0 (drainAll a0) := by
  unfold drainAll
  with_reducible repeat' (first | assumption | refine keeps_drainEnt ?_ | refine keeps_foldl ?_ ?_ | intro _ _ _)

theorem keeps_modView {a0} {a1} {a2} (h0 : Keeps s0 a0) : Keeps s0 (modView a0 a1 a2) := by
  unfold modView
  with_reducible repeat' (first | assumption | refine keepsMk_of ?_ ?_ ?_ ?_ ?_ ?_ ?_ (by rfl) | rfl | dsimp only [keeps_mk_eq])

theorem keeps_irqStart {a0} {a1} (h0 : Keeps s0 a0) : Keeps s0 (irqStart a0 a1) := by
  unfold irqStart
  with_reducible repeat' (first | assumption | refine keeps_mmPump ?_ | refine keeps_mmWriteJob ?_ | refine keeps_ite ?_ ?_)

theorem keeps_tenantIrq {a0} {a1} (h0 : Keeps s0 a0) : Keeps s0 (tenantIrq a0 a1) := by
  unfold tenantIrq
  with_reducible repeat' (first | assumption | refine keeps_irqStart ?_ | refine keeps_modView ?_ | refine keeps_ite ?_ ?_)

theorem keeps_irqDone {a0} {a1} (h0 : Keeps s0 a0) : Keeps s0 (irqDone a0 a1) := by
  unfold irqDone
  with_reducible repeat' (first | assumption | refine keeps_irqStart ?_ | refine keeps_modView ?_)

theorem keeps_dlvStart {a0} {a1} (h0 : Keeps s0 a0) : Keeps s0 (dlvStart a0 a1) := by
  unfold dlvStart
  with_reducible repeat' (first | assumption | refine keeps_mmPump ?_ | refine keeps_mmWriteJob ?_ | refine keeps_ite ?_ ?_)

theorem keeps_dlvOne {a0} {a1} {a2} {a3} {a4} (h3 : Keeps s0 a3) : Keeps s0 (dlvOne a0 a1 a2 a3 a4) := by
  unfold dlvOne
  with_reducible repeat' (first | assumption | refine keeps_rcInc ?_ | refine keeps_dlvStart ?_ | refine keeps_modView ?_ | refine keeps_ite ?_ ?_)

theorem keeps_deliverAll {a0} {a1} {a2} (h0 : Keeps s0 a0) : Keeps s0 (deliverAll a0 a1 a2) := by
  unfold deliverAll
  with_reducible repeat' (first | assumption | refine keeps_dlvOne ?_ | dsimp only [keeps_mk_eq] | refine keeps_foldl ?_ ?_ | intro _ _ _)

theorem keeps_dlvStage {a0} {a1} {a2} {a3} (h0 : Keeps s0 a0) : Keeps s0 (dlvStage a0 a1 a2 a3) := by
  unfold dlvStage
  with_reducible repeat' (first | assumption | refine keeps_dlvStart ?_ | refine keeps_rcInc ?_ | refine keeps_modView ?_ | refine keeps_mmPump ?_ | refine keeps_mmWriteJob ?_ | refine keeps_tenantIrq ?_ | refine keeps_ite ?_ ?_ | dsimp only [keeps_mk_eq] | split)

theorem keeps_bufMark {a0} (h0 : Keeps s0 a0) : Keeps s0 (bufMark a0) := by
  unfold bufMark
  with_reducible repeat' (first | assumption | refine keeps_rcMax ?_)

theorem keeps_sweepSlots {a0} (h0 : Keeps s0 a0) : Keeps s0 (sweepSlots a0) := by
  unfold sweepSlots
  with_reducible repeat' (first | assumption | refine keepsMk_of ?_ ?_ ?_ ?_ ?_ ?_ ?_ (by rfl) | rfl | dsimp only [keeps_mk_eq])

theorem keeps_modSlots {a0} {a1} (h0 : Keeps s0 a0) : Keeps s0 (modSlots a0 a1) := by
  unfold modSlots
  with_reducible repeat' (first | assumption | refine keepsMk_of ?_ ?_ ?_ ?_ ?_ ?_ ?_ (by rfl) | rfl | refine keeps_sweepSlots ?_ | dsimp only [keeps_mk_eq])

theorem keeps_readerJob {a0} {a1} (h0 : Keeps s0 a0) : Keeps s0 (readerJob a0 a1) := by
  unfold readerJob
  with_reducible repeat' (first | assumption | refine keeps_modSlots ?_)

theorem keeps_readerRed {a0} {a1} (h0 : Keeps s0 a0) : Keeps s0 (readerRed a0 a1) := by
  unfold readerRed
  with_reducible repeat' (first | assumption | refine keeps_modSlots ?_)

theorem keeps_readerVrd {a0} {a1} (h0 : Keeps s0 a0) : Keeps s0 (readerVrd a0 a1) := by
  unfold readerVrd
  with_reducible repeat' (first | assumption | refine keeps_modSlots ?_)

end Sys2Proof.Machine
end

