-- ==== Sys2Proof/Laws/KeepsEngine.lean ====
section
/-!
SUPPORT. The Leap engine, resident models and FEAT keep everything that `Keeps` says.
-/
namespace Sys2Proof.Machine

variable {s0 s t : State}

theorem keeps_modLeap {a0} {a1} (h0 : Keeps s0 a0) : Keeps s0 (modLeap a0 a1) := by
  unfold modLeap
  with_reducible repeat' (first | assumption | refine keepsMk_of ?_ ?_ ?_ ?_ ?_ ?_ ?_ (by rfl) | rfl | dsimp only [keeps_mk_eq])

theorem keeps_modCopy {a0} {a1} {a2} (h0 : Keeps s0 a0) : Keeps s0 (modCopy a0 a1 a2) := by
  unfold modCopy
  with_reducible repeat' (first | assumption | refine keeps_modLeap ?_)

theorem keeps_vtJoin {a0} {a1} (h0 : Keeps s0 a0) : Keeps s0 (vtJoin a0 a1) := by
  unfold vtJoin
  with_reducible repeat' (first | assumption | refine keeps_modLeap ?_ | split)

theorem keeps_acctAdd {a0} {a1} {a2} (h0 : Keeps s0 a0) : Keeps s0 (acctAdd a0 a1 a2) := by
  unfold acctAdd
  with_reducible repeat' (first | assumption | refine keepsMk_of ?_ ?_ ?_ ?_ ?_ ?_ ?_ (by rfl) | rfl | refine keeps_modLeap ?_ | dsimp only [keeps_mk_eq])

theorem keeps_chargeBack {a0} {a1} {a2} {a3} (h0 : Keeps s0 a0) : Keeps s0 (chargeBack a0 a1 a2 a3) := by
  unfold chargeBack
  with_reducible repeat' (first | assumption | refine keeps_modLeap ?_ | refine keeps_ite ?_ ?_)

theorem keeps_closeStrand {a0} {a1} {a2} {a3} (h0 : Keeps s0 a0) : Keeps s0 (closeStrand a0 a1 a2 a3) := by
  unfold closeStrand
  with_reducible repeat' (first | assumption | refine keeps_acctAdd ?_ | refine keeps_chargeBack ?_ | refine keeps_ite ?_ ?_)

theorem keeps_modJob {a0} {a1} {a2} (h0 : Keeps s0 a0) : Keeps s0 (modJob a0 a1 a2) := by
  unfold modJob
  with_reducible repeat' (first | assumption | refine keeps_modLeap ?_)

theorem keeps_keepScore {a0} {a1} (h0 : Keeps s0 a0) : Keeps s0 (keepScore a0 a1) := by
  unfold keepScore
  with_reducible repeat' (first | assumption | refine keeps_modLeap ?_)

theorem keeps_endJob {a0} {a1} {a2} {a3} (h0 : Keeps s0 a0) : Keeps s0 (endJob a0 a1 a2 a3) := by
  unfold endJob
  with_reducible repeat' (first | assumption | refine keeps_closeStrand ?_ | refine keeps_rcInc ?_ | refine keeps_modJob ?_ | refine keeps_modLeap ?_ | refine keeps_keepScore ?_ | refine keeps_modTally ?_ | refine keeps_readerJob ?_ | refine keeps_ite ?_ ?_ | dsimp only [keeps_mk_eq] | refine keeps_foldl ?_ ?_ | intro _ _ _ | split)

theorem keeps_modModel {a0} {a1} {a2} (h0 : Keeps s0 a0) : Keeps s0 (modModel a0 a1 a2) := by
  unfold modModel
  with_reducible repeat' (first | assumption | refine keeps_modLeap ?_)

theorem keeps_discardJobs {a0} {a1} {a2} (h0 : Keeps s0 a0) : Keeps s0 (discardJobs a0 a1 a2) := by
  unfold discardJobs
  with_reducible repeat' (first | assumption | refine keeps_endJob ?_ | refine keeps_foldl ?_ ?_ | intro _ _ _)

theorem keeps_movePointers {a0} {a1} (h0 : Keeps s0 a0) : Keeps s0 (movePointers a0 a1) := by
  unfold movePointers
  with_reducible repeat' (first | assumption | refine keeps_modLeap ?_)

theorem keeps_settleStrand {a0} {a1} {a2} (h0 : Keeps s0 a0) : Keeps s0 (settleStrand a0 a1 a2) := by
  unfold settleStrand
  with_reducible repeat' (first | assumption | refine keeps_chargeBack ?_ | refine keeps_acctAdd ?_ | split)

theorem keeps_dropLane {a0} {a1} (h0 : Keeps s0 a0) : Keeps s0 (dropLane a0 a1) := by
  unfold dropLane
  with_reducible repeat' (first | assumption | refine keeps_modLeap ?_ | refine keeps_acctAdd ?_ | refine keeps_discardJobs ?_ | refine keeps_ite ?_ ?_ | dsimp only [keeps_mk_eq] | split)

theorem keeps_laneEnable {a0} {a1} (h0 : Keeps s0 a0) : Keeps s0 (laneEnable a0 a1) := by
  unfold laneEnable
  with_reducible repeat' (first | assumption | refine keeps_modLeap ?_ | refine keeps_discardJobs ?_ | refine keeps_dropLane ?_ | refine keeps_ite ?_ ?_ | refine keeps_foldl ?_ ?_ | intro _ _ _)

theorem keeps_leapInjectOp {a0} {a1} {a2} (h0 : Keeps s0 a0) : Keeps s0 (leapInjectOp a0 a1 a2) := by
  unfold leapInjectOp
  with_reducible repeat' (first | assumption | refine keeps_modLeap ?_ | refine keeps_ite ?_ ?_)

theorem keeps_strandDone {a0} {a1} {a2} {a3} (h0 : Keeps s0 a0) : Keeps s0 (strandDone a0 a1 a2 a3) := by
  unfold strandDone
  with_reducible repeat' (first | assumption | refine keeps_settleStrand ?_ | refine keeps_raiseFault ?_ | refine keeps_rcInc ?_ | refine keeps_dropLane ?_ | refine keeps_ite ?_ ?_)

theorem keeps_reachTree {a0} {a1} {a2} {a3} (h0 : Keeps s0 a0) : Keeps s0 (reachTree a0 a1 a2 a3).1 := by
  unfold reachTree
  with_reducible repeat' (first | assumption | refine keeps_modJob ?_ | refine keeps_strandDone ?_ | refine keeps_ite ?_ ?_ | dsimp only [keeps_mk_eq] | split)

theorem keeps_readScore {a0} {a1} {a2} {a3} (h0 : Keeps s0 a0) : Keeps s0 (readScore a0 a1 a2 a3).1 := by
  unfold readScore
  with_reducible repeat' (first | assumption | refine keeps_rcInc ?_ | refine keeps_ite ?_ ?_)

theorem keeps_retryStrand {a0} {a1} {a2} {a3} {a4} (h0 : Keeps s0 a0) : Keeps s0 (retryStrand a0 a1 a2 a3 a4) := by
  unfold retryStrand
  with_reducible repeat' (first | assumption | refine keeps_acctAdd ?_ | refine keeps_modJob ?_)

theorem keeps_scrubEntryBack {a0} {a1} (h0 : Keeps s0 a0) : Keeps s0 (scrubEntryBack a0 a1) := by
  unfold scrubEntryBack
  with_reducible repeat' (first | assumption | refine keeps_modLeap ?_)

theorem keeps_setPipe {a0} {a1} {a2} (h0 : Keeps s0 a0) : Keeps s0 (setPipe a0 a1 a2) := by
  unfold setPipe
  with_reducible repeat' (first | assumption | refine keeps_modLeap ?_)

theorem keeps_leapFixes {a0} {a1} {a2} {a3} (h0 : Keeps s0 a0) : Keeps s0 (leapFixes a0 a1 a2 a3) := by
  unfold leapFixes
  with_reducible repeat' (first | assumption | refine keeps_modLeap ?_ | refine keeps_rcAdd ?_)

theorem keeps_leapPassed {a0} {a1} {a2} {a3} {a4} (h0 : Keeps s0 a0) : Keeps s0 (leapPassed a0 a1 a2 a3 a4) := by
  unfold leapPassed
  with_reducible repeat' (first | assumption | refine keeps_modJob ?_ | refine keeps_strandDone ?_ | refine keeps_ite ?_ ?_)

theorem keeps_failStrand {a0} {a1} {a2} {a3} (h0 : Keeps s0 a0) : Keeps s0 (failStrand a0 a1 a2 a3) := by
  unfold failStrand
  with_reducible repeat' (first | assumption | refine keeps_endJob ?_ | refine keeps_acctAdd ?_ | refine keeps_modJob ?_)

theorem keeps_setEnt {a0} {a1} {a2} (h0 : Keeps s0 a0) : Keeps s0 (setEnt a0 a1 a2) := by
  unfold setEnt
  with_reducible repeat' (first | assumption | refine keeps_modLeap ?_)

theorem keeps_clearValid {a0} {a1} (h0 : Keeps s0 a0) : Keeps s0 (clearValid a0 a1) := by
  unfold clearValid
  with_reducible repeat' (first | assumption | refine keeps_setEnt ?_ | refine keeps_ite ?_ ?_)

theorem keeps_memoryFault {a0} {a1} {a2} {a3} {a4} {a5} {a6} {a7} (h0 : Keeps s0 a0) : Keeps s0 (memoryFault a0 a1 a2 a3 a4 a5 a6 a7) := by
  unfold memoryFault
  with_reducible repeat' (first | assumption | refine keeps_clearValid ?_ | refine keeps_modCopy ?_ | refine keeps_modModel ?_ | refine keeps_rcInc ?_ | refine keeps_modLeap ?_ | refine keeps_raiseFault ?_ | refine keeps_foldl ?_ ?_ | intro _ _ _)

theorem keeps_leapFailed {a0} {a1} {a2} {a3} {a4} {a5} {a6} {a7} {a8} (h0 : Keeps s0 a0) : Keeps s0 (leapFailed a0 a1 a2 a3 a4 a5 a6 a7 a8) := by
  unfold leapFailed
  with_reducible repeat' (first | assumption | refine keeps_failStrand ?_ | refine keeps_memoryFault ?_ | refine keeps_retryStrand ?_ | refine keeps_ite ?_ ?_)

theorem keeps_leapOne {a0} {a1} {a2} (h0 : Keeps s0 a0) : Keeps s0 (leapOne a0 a1 a2) := by
  unfold leapOne
  with_reducible repeat' (first | assumption | refine keeps_reachTree ?_ | refine keeps_modJob ?_ | refine keeps_modLeap ?_ | refine keeps_leapFixes ?_ | refine keeps_leapPassed ?_ | refine keeps_leapFailed ?_ | refine keeps_ite ?_ ?_ | dsimp only [keeps_mk_eq] | split)

theorem keeps_leapCycle {a0} {a1} (h0 : Keeps s0 a0) : Keeps s0 (leapCycle a0 a1) := by
  unfold leapCycle
  with_reducible repeat' (first | assumption | refine keeps_touch ?_ | refine keeps_advanceCore ?_ | refine keeps_setPipe ?_ | refine keeps_movePointers ?_ | refine keeps_leapOne ?_ | refine keeps_rcAdd ?_ | refine keeps_ite ?_ ?_ | dsimp only [keeps_mk_eq] | refine keeps_foldl ?_ ?_ | intro _ _ _)

theorem keeps_modStrand {a0} {a1} {a2} {a3} (h0 : Keeps s0 a0) : Keeps s0 (modStrand a0 a1 a2 a3) := by
  unfold modStrand
  with_reducible repeat' (first | assumption | refine keeps_modJob ?_)

theorem keeps_codeCopy {a0} {a1} {a2} {a3} {a4} (h0 : Keeps s0 a0) : Keeps s0 (codeCopy a0 a1 a2 a3 a4) := by
  unfold codeCopy
  with_reducible repeat' (first | assumption | refine keeps_modLeap ?_ | refine keeps_setPipe ?_)

theorem keeps_placeStrand {a0} {a1} {a2} {a3} {a4} {a5} (h0 : Keeps s0 a0) : Keeps s0 (placeStrand a0 a1 a2 a3 a4 a5) := by
  unfold placeStrand
  with_reducible repeat' (first | assumption | refine keeps_modModel ?_ | refine keeps_modLeap ?_ | refine keeps_codeCopy ?_ | refine keeps_modJob ?_ | refine keeps_settleStrand ?_ | refine keeps_ite ?_ ?_)

theorem keeps_scrubEntry {a0} {a1} {a2} (h0 : Keeps s0 a0) : Keeps s0 (scrubEntry a0 a1 a2) := by
  unfold scrubEntry
  with_reducible repeat' (first | assumption | refine keeps_touch ?_ | refine keeps_modLeap ?_ | refine keeps_rcInc ?_ | refine keeps_memoryFault ?_ | refine keeps_ite ?_ ?_ | dsimp only [keeps_mk_eq] | split)

theorem keeps_dispatch {a0} {a1} {a2} (h0 : Keeps s0 a0) : Keeps s0 (dispatch a0 a1 a2) := by
  unfold dispatch
  with_reducible repeat' (first | assumption | refine keeps_touch ?_ | refine keeps_placeStrand ?_ | refine keeps_modLeap ?_ | refine keeps_ite ?_ ?_ | dsimp only [keeps_mk_eq] | split)

theorem keeps_completeJob {a0} {a1} (h0 : Keeps s0 a0) : Keeps s0 (completeJob a0 a1) := by
  unfold completeJob
  with_reducible repeat' (first | assumption | refine keeps_touch ?_ | refine keeps_endJob ?_ | refine keeps_ite ?_ ?_ | dsimp only [keeps_mk_eq] | split)

theorem keeps_writeCopy {a0} {a1} {a2} (h0 : Keeps s0 a0) : Keeps s0 (writeCopy a0 a1 a2) := by
  unfold writeCopy
  with_reducible repeat' (first | assumption | refine keeps_modCopy ?_ | refine keeps_modLeap ?_)

theorem keeps_addJob {a0} {a1} (h0 : Keeps s0 a0) : Keeps s0 (addJob a0 a1) := by
  unfold addJob
  with_reducible repeat' (first | assumption | refine keepsMk_of ?_ ?_ ?_ ?_ ?_ ?_ ?_ (by rfl) | rfl | refine keeps_vtJoin ?_ | refine keeps_modLeap ?_ | refine keeps_endJob ?_ | refine keeps_ite ?_ ?_ | dsimp only [keeps_mk_eq])

theorem keeps_sweepModels {a0} (h0 : Keeps s0 a0) : Keeps s0 (sweepModels a0) := by
  unfold sweepModels
  with_reducible repeat' (first | assumption | refine keeps_modLeap ?_)

theorem keeps_shadowLoad {a0} {a1} {a2} {a3} {a4} {a5} {a6} (h0 : Keeps s0 a0) : Keeps s0 (shadowLoad a0 a1 a2 a3 a4 a5 a6) := by
  unfold shadowLoad
  with_reducible repeat' (first | assumption | refine keeps_modLeap ?_)

theorem keeps_fallbackSwitch {a0} {a1} {a2} (h0 : Keeps s0 a0) : Keeps s0 (fallbackSwitch a0 a1 a2) := by
  unfold fallbackSwitch
  with_reducible repeat' (first | assumption | refine keeps_modModel ?_ | refine keeps_shadowLoad ?_ | refine keeps_ite ?_ ?_ | split)

theorem keeps_refuseLoad {a0} {a1} {a2} (h0 : Keeps s0 a0) : Keeps s0 (refuseLoad a0 a1 a2) := by
  unfold refuseLoad
  with_reducible repeat' (first | assumption | refine keeps_rcInc ?_ | refine keeps_modLeap ?_ | refine keeps_modModel ?_ | refine keeps_sweepModels ?_ | refine keeps_discardJobs ?_ | refine keeps_fallbackSwitch ?_ | refine keeps_ite ?_ ?_ | split)

theorem keeps_modLoad {a0} {a1} {a2} (h0 : Keeps s0 a0) : Keeps s0 (modLoad a0 a1 a2) := by
  unfold modLoad
  with_reducible repeat' (first | assumption | refine keeps_modLeap ?_)

theorem keeps_dropLoads {a0} {a1} (h0 : Keeps s0 a0) : Keeps s0 (dropLoads a0 a1) := by
  unfold dropLoads
  with_reducible repeat' (first | assumption | refine keeps_modLeap ?_)

theorem keeps_evictModel {a0} {a1} {a2} (h0 : Keeps s0 a0) : Keeps s0 (evictModel a0 a1 a2) := by
  unfold evictModel
  with_reducible repeat' (first | assumption | refine keeps_rcInc ?_ | refine keeps_modModel ?_ | refine keeps_dropLoads ?_ | refine keeps_discardJobs ?_ | refine keeps_ite ?_ ?_)

theorem keeps_makeSpace {a0 : State} {f} {t : State} (h0 : Keeps s0 a0) (e : makeSpace a0 f = some t) : Keeps s0 t := by
  unfold makeSpace at e
  split at e
  · cases e; exact h0
  · dsimp only at e
    split at e
    · cases e; exact keeps_foldl (fun _ _ h => keeps_evictModel h) h0
    · cases e

theorem keeps_trySpace {a0} {a1} (h0 : Keeps s0 a0) : Keeps s0 (trySpace a0 a1) := by
  unfold trySpace
  with_reducible repeat' (first | assumption | refine keeps_modLoad ?_ | refine keeps_mmReadJob ?_ | refine keeps_makeSpace ?_ (by assumption) | refine keeps_refuseLoad ?_ | refine keeps_ite ?_ ?_ | split)

theorem keeps_readHeader {a0} {a1} (h0 : Keeps s0 a0) : Keeps s0 (readHeader a0 a1) := by
  unfold readHeader
  with_reducible repeat' (first | assumption | refine keeps_refuseLoad ?_ | refine keeps_trySpace ?_ | refine keeps_modLoad ?_ | refine keeps_mmReadJob ?_ | refine keeps_ite ?_ ?_ | dsimp only [keeps_mk_eq] | split)

theorem keeps_useModel {a0} {a1} (h0 : Keeps s0 a0) : Keeps s0 (useModel a0 a1) := by
  unfold useModel
  with_reducible repeat' (first | assumption | refine keeps_modModel ?_ | refine keeps_modLeap ?_)

theorem keeps_giveNumber {a0} {a1} {a2} (h0 : Keeps s0 a0) : Keeps s0 (giveNumber a0 a1 a2) := by
  unfold giveNumber
  with_reducible repeat' (first | assumption | refine keeps_modModel ?_ | refine keeps_modLoad ?_ | refine keeps_useModel ?_ | refine keeps_ite ?_ ?_)

theorem keeps_found {a0} {a1} {a2} {a3} {a4} (h0 : Keeps s0 a0) : Keeps s0 (found a0 a1 a2 a3 a4) := by
  unfold found
  with_reducible repeat' (first | assumption | refine keeps_modLoad ?_ | refine keeps_readHeader ?_ | refine keeps_giveNumber ?_ | refine keeps_evictModel ?_ | refine keeps_refuseLoad ?_ | refine keeps_ite ?_ ?_ | dsimp only [keeps_mk_eq] | split)

theorem keeps_fetchPack {a0} {a1} (h0 : Keeps s0 a0) : Keeps s0 (fetchPack a0 a1) := by
  unfold fetchPack
  with_reducible repeat' (first | assumption | refine keeps_refuseLoad ?_ | refine keeps_found ?_ | split)

theorem keeps_fetchTable {a0} {a1} (h0 : Keeps s0 a0) : Keeps s0 (fetchTable a0 a1) := by
  unfold fetchTable
  with_reducible repeat' (first | assumption | refine keeps_touch ?_ | refine keeps_refuseLoad ?_ | refine keeps_modLoad ?_ | refine keeps_fetchPack ?_ | refine keeps_mmReadJob ?_ | refine keeps_ite ?_ ?_)

theorem keeps_startDemand {a0} {a1} {a2} (h0 : Keeps s0 a0) : Keeps s0 (startDemand a0 a1 a2) := by
  unfold startDemand
  with_reducible repeat' (first | assumption | refine keeps_modLeap ?_ | refine keeps_fetchTable ?_ | refine keeps_giveNumber ?_ | dsimp only [keeps_mk_eq] | split)

theorem keeps_hostJob {a0} {a1} {a2} {a3} {a4} (h0 : Keeps s0 a0) : Keeps s0 (hostJob a0 a1 a2 a3 a4) := by
  unfold hostJob
  with_reducible repeat' (first | assumption | refine keeps_addJob ?_ | refine keeps_mmPump ?_ | refine keeps_startDemand ?_ | refine keeps_rcInc ?_ | refine keeps_ite ?_ ?_ | dsimp only [keeps_mk_eq] | split)

theorem keeps_reloadWaiting {a0} (h0 : Keeps s0 a0) : Keeps s0 (reloadWaiting a0) := by
  unfold reloadWaiting
  with_reducible repeat' (first | assumption | refine keeps_startDemand ?_ | refine keeps_ite ?_ ?_ | refine keeps_foldl ?_ ?_ | intro _ _ _)

theorem keeps_unstageModels {a0} (h0 : Keeps s0 a0) : Keeps s0 (unstageModels a0) := by
  unfold unstageModels
  with_reducible repeat' (first | assumption | refine keeps_mmPump ?_ | refine keeps_reloadWaiting ?_ | refine keeps_sweepModels ?_ | refine keeps_modLeap ?_)

theorem keeps_tryInstall {a0} {a1} (h0 : Keeps s0 a0) : Keeps s0 (tryInstall a0 a1) := by
  unfold tryInstall
  with_reducible repeat' (first | assumption | refine keeps_modLeap ?_ | refine keeps_modLoad ?_ | refine keeps_modModel ?_ | refine keeps_makeSpace ?_ (by assumption) | refine keeps_fallbackSwitch ?_ | refine keeps_sweepModels ?_ | refine keeps_refuseLoad ?_ | refine keeps_ite ?_ ?_ | dsimp only [keeps_mk_eq] | split)

theorem keeps_stepLoad {a0} {a1} (h0 : Keeps s0 a0) : Keeps s0 (stepLoad a0 a1) := by
  unfold stepLoad
  with_reducible repeat' (first | assumption | refine keeps_readHeader ?_ | refine keeps_giveNumber ?_ | refine keeps_fetchTable ?_ | refine keeps_trySpace ?_ | refine keeps_tryInstall ?_ | refine keeps_ite ?_ ?_ | dsimp only [keeps_mk_eq] | split)

theorem keeps_loadPump {a0} (h0 : Keeps s0 a0) : Keeps s0 (loadPump a0) := by
  unfold loadPump
  with_reducible repeat' (first | assumption | refine keeps_sweepModels ?_ | refine keeps_mmPump ?_ | refine keeps_stepLoad ?_ | refine keeps_foldl ?_ ?_ | intro _ _ _)

theorem keeps_startRepair {a0} {a1} (h0 : Keeps s0 a0) : Keeps s0 (startRepair a0 a1) := by
  unfold startRepair
  with_reducible repeat' (first | assumption | refine keeps_modModel ?_ | refine keeps_fallbackSwitch ?_ | refine keeps_loadPump ?_ | refine keeps_shadowLoad ?_ | refine keeps_ite ?_ ?_ | dsimp only [keeps_mk_eq] | split)

theorem keeps_dueRepairs {a0} (h0 : Keeps s0 a0) : Keeps s0 (dueRepairs a0) := by
  unfold dueRepairs
  with_reducible repeat' (first | assumption | refine keeps_startRepair ?_ | refine keeps_foldl ?_ ?_ | intro _ _ _)

theorem keeps_autoRepair {a0} {a1} (h1 : Keeps s0 a1) : Keeps s0 (autoRepair a0 a1) := by
  unfold autoRepair
  with_reducible repeat' (first | assumption | refine keeps_dueRepairs ?_ | refine keeps_startRepair ?_ | refine keeps_ite ?_ ?_ | refine keeps_foldl ?_ ?_ | intro _ _ _)

theorem keeps_leapSettle {a0} {a1} (h1 : Keeps s0 a1) : Keeps s0 (leapSettle a0 a1) := by
  unfold leapSettle
  with_reducible repeat' (first | assumption | refine keeps_loadPump ?_ | refine keeps_autoRepair ?_)

theorem keeps_outdate {a0} {a1} (h0 : Keeps s0 a0) : Keeps s0 (outdate a0 a1) := by
  unfold outdate
  with_reducible repeat' (first | assumption | refine keeps_rcInc ?_ | refine keeps_modModel ?_)

theorem keeps_standbyReady {a0} (h0 : Keeps s0 a0) : Keeps s0 (standbyReady a0) := by
  unfold standbyReady
  with_reducible repeat' (first | assumption | refine keeps_fallbackSwitch ?_ | refine keeps_foldl ?_ ?_ | intro _ _ _)

theorem keeps_startLoad {a0} {a1} {a2} {a3} {a4} (h0 : Keeps s0 a0) : Keeps s0 (startLoad a0 a1 a2 a3 a4) := by
  unfold startLoad
  with_reducible repeat' (first | assumption | refine keeps_modLeap ?_ | refine keeps_modModel ?_ | refine keeps_fetchTable ?_ | refine keeps_ite ?_ ?_ | split)

theorem keeps_loadTable {a0} {a1} {a2} (h0 : Keeps s0 a0) : Keeps s0 (loadTable a0 a1 a2) := by
  unfold loadTable
  with_reducible repeat' (first | assumption | refine keeps_startLoad ?_ | refine keeps_ite ?_ ?_ | dsimp only [keeps_mk_eq] | refine keeps_foldl ?_ ?_ | intro _ _ _)

theorem keeps_wakeJobs {a0} {a1} {a2} {a3} {a4} (h0 : Keeps s0 a0) : Keeps s0 (wakeJobs a0 a1 a2 a3 a4) := by
  unfold wakeJobs
  with_reducible repeat' (first | assumption | refine keeps_modJob ?_ | refine keeps_vtJoin ?_ | refine keeps_foldl ?_ ?_ | intro _ _ _)

theorem keeps_switchCopies {a0} (h0 : Keeps s0 a0) : Keeps s0 (switchCopies a0) := by
  unfold switchCopies
  with_reducible repeat' (first | assumption | refine keeps_loadPump ?_ | refine keeps_modModel ?_ | refine keeps_wakeJobs ?_ | refine keeps_rcInc ?_ | refine keeps_ite ?_ ?_ | dsimp only [keeps_mk_eq] | refine keeps_foldl ?_ ?_ | intro _ _ _ | split)

theorem keeps_activateModels {a0} (h0 : Keeps s0 a0) : Keeps s0 (activateModels a0) := by
  unfold activateModels
  with_reducible repeat' (first | assumption | refine keeps_modLeap ?_ | refine keeps_refuseLoad ?_ | refine keeps_outdate ?_ | refine keeps_mmPump ?_ | refine keeps_standbyReady ?_ | refine keeps_loadTable ?_ | refine keeps_switchCopies ?_ | dsimp only [keeps_mk_eq] | refine keeps_foldl ?_ ?_ | intro _ _ _)

theorem keeps_stageModels {a0} (h0 : Keeps s0 a0) : Keeps s0 (stageModels a0) := by
  unfold stageModels
  with_reducible repeat' (first | assumption | refine keeps_mmPump ?_ | refine keeps_loadTable ?_)

theorem keeps_abortLoads {a0} (h0 : Keeps s0 a0) : Keeps s0 (abortLoads a0) := by
  unfold abortLoads
  with_reducible repeat' (first | assumption | refine keeps_refuseLoad ?_ | refine keeps_foldl ?_ ?_ | intro _ _ _)

theorem keeps_abortLeap {a0} (h0 : Keeps s0 a0) : Keeps s0 (abortLeap a0) := by
  unfold abortLeap
  with_reducible repeat' (first | assumption | refine keeps_discardJobs ?_ | refine keeps_abortLoads ?_)

theorem keeps_verifyDone {a0} (h0 : Keeps s0 a0) : Keeps s0 (verifyDone a0) := by
  unfold verifyDone
  with_reducible repeat' (first | assumption | refine keeps_loadPump ?_ | refine keeps_refuseLoad ?_ | refine keeps_modLeap ?_ | refine keeps_standbyReady ?_ | refine keeps_modLoad ?_ | dsimp only [keeps_mk_eq] | split)

theorem keeps_loadCmd {a0} {a1} (h0 : Keeps s0 a0) : Keeps s0 (loadCmd a0 a1) := by
  unfold loadCmd
  with_reducible repeat' (first | assumption | refine keeps_useModel ?_ | refine keeps_modLeap ?_ | refine keeps_mmPump ?_ | refine keeps_startDemand ?_ | refine keeps_ite ?_ ?_ | split)

theorem keeps_evictCmd {a0} {a1} (h0 : Keeps s0 a0) : Keeps s0 (evictCmd a0 a1) := by
  unfold evictCmd
  with_reducible repeat' (first | assumption | refine keeps_modLeap ?_ | refine keeps_loadPump ?_ | refine keeps_evictModel ?_ | refine keeps_ite ?_ ?_)

theorem keeps_pinCmd {a0} {a1} {a2} (h0 : Keeps s0 a0) : Keeps s0 (pinCmd a0 a1 a2) := by
  unfold pinCmd
  with_reducible repeat' (first | assumption | refine keeps_modModel ?_ | refine keeps_ite ?_ ?_)

theorem keeps_repairCmd {a0} {a1} (h0 : Keeps s0 a0) : Keeps s0 (repairCmd a0 a1) := by
  unfold repairCmd
  with_reducible repeat' (first | assumption | refine keeps_startRepair ?_ | refine keeps_modLeap ?_ | refine keeps_ite ?_ ?_)

theorem keeps_bodyDone {a0} {a1} {a2} {a3} (h0 : Keeps s0 a0) : Keeps s0 (bodyDone a0 a1 a2 a3) := by
  unfold bodyDone
  with_reducible repeat' (first | assumption | refine keeps_refuseLoad ?_ | refine keeps_modLoad ?_ | refine keeps_ite ?_ ?_ | split)

theorem keeps_headDone {a0} {a1} {a2} {a3} (h0 : Keeps s0 a0) : Keeps s0 (headDone a0 a1 a2 a3) := by
  unfold headDone
  with_reducible repeat' (first | assumption | refine keeps_refuseLoad ?_ | refine keeps_loadPump ?_ | refine keeps_modLoad ?_ | refine keeps_ite ?_ ?_ | split)

theorem keeps_tableDone {a0} {a1} {a2} {a3} (h0 : Keeps s0 a0) : Keeps s0 (tableDone a0 a1 a2 a3) := by
  unfold tableDone
  with_reducible repeat' (first | assumption | refine keeps_refuseLoad ?_ | refine keeps_mmPump ?_ | refine keeps_found ?_ | refine keeps_ite ?_ ?_ | split)

theorem keeps_installDone {a0} {a1} (h0 : Keeps s0 a0) : Keeps s0 (installDone a0 a1) := by
  unfold installDone
  with_reducible repeat' (first | assumption | refine keeps_rcInc ?_ | refine keeps_modLeap ?_ | refine keeps_loadPump ?_ | refine keeps_modLoad ?_ | refine keeps_modModel ?_ | refine keeps_writeCopy ?_ | refine keeps_wakeJobs ?_ | refine keeps_ite ?_ ?_ | dsimp only [keeps_mk_eq] | split)

theorem keeps_slotJobs {a0} {a1} (h0 : Keeps s0 a0) : Keeps s0 (slotJobs a0 a1) := by
  unfold slotJobs
  with_reducible repeat' (first | assumption | refine keeps_addJob ?_ | refine keeps_rcInc ?_ | dsimp only [keeps_mk_eq] | refine keeps_foldl ?_ ?_ | intro _ _ _ | split)

theorem keeps_fetchDone {a0} (h0 : Keeps s0 a0) : Keeps s0 (fetchDone a0) := by
  unfold fetchDone
  with_reducible repeat' (first | assumption | refine keeps_modLoad ?_ | refine keeps_modModel ?_ | dsimp only [keeps_mk_eq] | split)

theorem keeps_modFeat {a0} {a1} (h0 : Keeps s0 a0) : Keeps s0 (modFeat a0 a1) := by
  unfold modFeat
  with_reducible repeat' (first | assumption | refine keepsMk_of ?_ ?_ ?_ ?_ ?_ ?_ ?_ (by rfl) | rfl | dsimp only [keeps_mk_eq])

theorem keeps_featFold {a0} {a1} {a2} {a3} {a4} (h4 : Keeps s0 a4.1) : Keeps s0 (featFold a0 a1 a2 a3 a4).1 := by
  induction a2 generalizing a3 a4 with
  | nil =>
    unfold featFold
    with_reducible assumption
  | cons e r ih =>
    obtain ⟨x, y, z⟩ := a4
    unfold featFold
    with_reducible repeat' (first | assumption | refine ih ?_ | refine keeps_rcInc ?_ | refine keeps_rcAdd ?_ | refine keeps_modFeat ?_ | refine keeps_ite ?_ ?_ | dsimp only [keeps_mk_eq] | split)

theorem keeps_carryClass {a0} {a1} {a2} {a3} (h2 : Keeps s0 a2) : Keeps s0 (carryClass a0 a1 a2 a3) := by
  unfold carryClass
  with_reducible repeat' (first | assumption | refine keeps_rcAdd ?_ | refine keeps_modFeat ?_)

theorem keeps_carryFeats {a0} {a1} {a2} (h0 : Keeps s0 a0) : Keeps s0 (carryFeats a0 a1 a2) := by
  unfold carryFeats
  with_reducible repeat' (first | assumption | refine keepsMk_of ?_ ?_ ?_ ?_ ?_ ?_ ?_ (by rfl) | rfl | refine keeps_carryClass ?_ | refine keeps_ite ?_ ?_ | dsimp only [keeps_mk_eq] | split)

theorem keeps_carryAll {a0} (h0 : Keeps s0 a0) : Keeps s0 (carryAll a0) := by
  unfold carryAll
  with_reducible repeat' (first | assumption | refine keeps_carryFeats ?_ | refine keeps_foldl ?_ ?_ | intro _ _ _)

theorem keeps_switchFeats {a0} {a1} {a2} {a3} (h0 : Keeps s0 a0) : Keeps s0 (switchFeats a0 a1 a2 a3) := by
  unfold switchFeats
  with_reducible repeat' (first | assumption | refine keepsMk_of ?_ ?_ ?_ ?_ ?_ ?_ ?_ (by rfl) | rfl | refine keeps_modFeat ?_ | refine keeps_carryClass ?_ | refine keeps_ite ?_ ?_ | dsimp only [keeps_mk_eq] | refine keeps_foldl ?_ ?_ | intro _ _ _ | split)

theorem keeps_swapFeats {a0} (h0 : Keeps s0 a0) : Keeps s0 (swapFeats a0) := by
  unfold swapFeats
  with_reducible repeat' (first | assumption | refine keeps_modFeat ?_)

theorem keeps_noteDamage {a0} {a1} {a2} (h1 : Keeps s0 a1) : Keeps s0 (noteDamage a0 a1 a2) := by
  unfold noteDamage
  with_reducible repeat' (first | assumption | refine keeps_raiseFault ?_ | refine keeps_modFeat ?_ | refine keeps_ite ?_ ?_)

theorem keeps_formVec {a0} {a1} {a2} {a3} {a4} (h0 : Keeps s0 a0) : Keeps s0 (formVec a0 a1 a2 a3 a4) := by
  unfold formVec
  with_reducible repeat' (first | assumption | refine keeps_swapFeats ?_ | refine keeps_noteDamage ?_ | refine keeps_touch ?_ | refine keeps_featFold ?_ | refine keeps_bufMark ?_ | refine keeps_modFeat ?_ | refine keeps_ite ?_ ?_ | dsimp only [keeps_mk_eq] | refine keeps_foldl ?_ ?_ | intro _ _ _)

theorem keeps_reclaimSlot {a0} (h0 : Keeps s0 a0) : Keeps s0 (reclaimSlot a0) := by
  unfold reclaimSlot
  with_reducible repeat' (first | assumption | refine keeps_discardJobs ?_ | refine keeps_rcInc ?_ | refine keeps_modFeat ?_ | dsimp only [keeps_mk_eq] | split)

theorem keeps_takeEpoch {a0} {a1} (h0 : Keeps s0 a0) : Keeps s0 (takeEpoch a0 a1) := by
  unfold takeEpoch
  with_reducible repeat' (first | assumption | refine keeps_modFeat ?_ | refine keeps_carryFeats ?_ | refine keeps_reclaimSlot ?_ | refine keeps_formVec ?_ | refine keeps_ite ?_ ?_ | dsimp only [keeps_mk_eq] | split)

theorem keeps_vectorDone {a0} (h0 : Keeps s0 a0) : Keeps s0 (vectorDone a0) := by
  unfold vectorDone
  with_reducible repeat' (first | assumption | refine keeps_modFeat ?_ | refine keeps_slotJobs ?_ | refine keeps_sweepSlots ?_ | refine keeps_bufMark ?_ | dsimp only [keeps_mk_eq] | split)

theorem keeps_takeEvent {a0} {a1} (h0 : Keeps s0 a0) : Keeps s0 (takeEvent a0 a1) := by
  unfold takeEvent
  with_reducible repeat' (first | assumption | refine keeps_modFeat ?_ | refine keeps_carryFeats ?_ | refine keeps_formVec ?_ | refine keeps_ite ?_ ?_ | dsimp only [keeps_mk_eq] | split)

end Sys2Proof.Machine
end

