-- ==== Sys2Proof/Laws/KeepsLink.lean ====
section
/-!
SUPPORT. Frames, reduction, sealing, verdicts, links and broadcasts keep everything that `Keeps` says.
-/
namespace Sys2Proof.Machine

variable {s0 s t : State}

theorem keeps_modPort {a0} {a1} {a2} (h0 : Keeps s0 a0) : Keeps s0 (modPort a0 a1 a2) := by
  unfold modPort
  with_reducible repeat' (first | assumption | refine keepsMk_of ?_ ?_ ?_ ?_ ?_ ?_ ?_ (by rfl) | rfl | dsimp only [keeps_mk_eq])

theorem keeps_queueFrame {a0} {a1} {a2} {a3} {a4} {a5} (h0 : Keeps s0 a0) : Keeps s0 (queueFrame a0 a1 a2 a3 a4 a5) := by
  unfold queueFrame
  with_reducible repeat' (first | assumption | refine keeps_modPort ?_)

theorem keeps_queueAll {a0} {a1} {a2} {a3} {a4} {a5} (h0 : Keeps s0 a0) : Keeps s0 (queueAll a0 a1 a2 a3 a4 a5) := by
  unfold queueAll
  with_reducible repeat' (first | assumption | refine keeps_queueFrame ?_ | refine keeps_foldl ?_ ?_ | intro _ _ _)

theorem keeps_queueRec {a0} {a1} {a2} {a3} {a4} {a5} {a6} (h0 : Keeps s0 a0) : Keeps s0 (queueRec a0 a1 a2 a3 a4 a5 a6) := by
  unfold queueRec
  with_reducible repeat' (first | assumption | refine keeps_modPort ?_)

theorem keeps_setLevel {a0} {a1} {a2} (h0 : Keeps s0 a0) : Keeps s0 (setLevel a0 a1 a2) := by
  unfold setLevel
  with_reducible repeat' (first | assumption | refine keeps_modPort ?_)

theorem keeps_settleLevels {a0} (h0 : Keeps s0 a0) : Keeps s0 (settleLevels a0) := by
  unfold settleLevels
  with_reducible repeat' (first | assumption | refine keeps_setLevel ?_ | refine keeps_foldl ?_ ?_ | intro _ _ _)

theorem keeps_fillLevel {a0} {a1} (h0 : Keeps s0 a0) : Keeps s0 (fillLevel a0 a1) := by
  unfold fillLevel
  with_reducible repeat' (first | assumption | refine keeps_setLevel ?_ | split)

theorem keeps_queueCtrl {a0} {a1} {a2} {a3} (h0 : Keeps s0 a0) : Keeps s0 (queueCtrl a0 a1 a2 a3) := by
  unfold queueCtrl
  with_reducible repeat' (first | assumption | refine keeps_queueFrame ?_)

theorem keeps_askResend {a0} {a1} {a2} {a3} (h0 : Keeps s0 a0) : Keeps s0 (askResend a0 a1 a2 a3) := by
  unfold askResend
  with_reducible repeat' (first | assumption | refine keeps_modPort ?_ | refine keeps_rcInc ?_ | refine keeps_queueCtrl ?_ | refine keeps_ite ?_ ?_)

theorem keeps_rxFrame {a0} {a1} {a2} {a3} (h0 : Keeps s0 a0) : Keeps s0 (rxFrame a0 a1 a2 a3).1 := by
  unfold rxFrame
  with_reducible repeat' (first | assumption | refine keeps_rcInc ?_ | refine keeps_modPort ?_ | dsimp only [keeps_mk_eq] | split)

theorem keeps_checkedFrame {a0} {a1} (h0 : Keeps s0 a0) : Keeps s0 (checkedFrame a0 a1).1 := by
  unfold checkedFrame
  with_reducible repeat' (first | assumption | refine keeps_rcInc ?_ | split)

theorem keeps_freeCells {a0} {a1} {a2} (h0 : Keeps s0 a0) : Keeps s0 (freeCells a0 a1 a2) := by
  unfold freeCells
  with_reducible repeat' (first | assumption | refine keeps_modPort ?_)

theorem keeps_modRed {a0} {a1} (h0 : Keeps s0 a0) : Keeps s0 (modRed a0 a1) := by
  unfold modRed
  with_reducible repeat' (first | assumption | refine keepsMk_of ?_ ?_ ?_ ?_ ?_ ?_ ?_ (by rfl) | rfl | dsimp only [keeps_mk_eq])

theorem keeps_leafSource {a0} {a1} {a2} {a3} {a4} {a5} (h0 : Keeps s0 a0) : Keeps s0 (leafSource a0 a1 a2 a3 a4 a5).1 := by
  unfold leafSource
  with_reducible repeat' (first | assumption | refine keeps_readScore ?_ | dsimp only [keeps_mk_eq] | split)

theorem keeps_newtField {a0} {a1} {a2} {a3} {a4} {a5} {a6} {a7} (h0 : Keeps s0 a0) : Keeps s0 (newtField a0 a1 a2 a3 a4 a5 a6 a7).1 := by
  unfold newtField
  with_reducible repeat' (first | assumption | refine keeps_rcAdd ?_ | refine keeps_leafSource ?_ | dsimp only [keeps_mk_eq] | split)

theorem keeps_newtFields {a0} {a1} {a2} {a3} {a4} {a5} {a6} {a7} (h7 : Keeps s0 a7) : Keeps s0 (newtFields a0 a1 a2 a3 a4 a5 a6 a7).1 := by
  induction a5 generalizing a6 a7 with
  | nil =>
    unfold newtFields
    with_reducible assumption
  | cons e r ih =>
    unfold newtFields
    with_reducible repeat' (first | assumption | refine ih ?_ | refine keeps_newtField ?_)

theorem keeps_enqueueOwn {a0} {a1} (h0 : Keeps s0 a0) : Keeps s0 (enqueueOwn a0 a1) := by
  unfold enqueueOwn
  with_reducible repeat' (first | assumption | refine keeps_rcInc ?_ | refine keeps_modRed ?_ | refine keeps_ite ?_ ?_)

theorem keeps_recordNoted {a0} {a1} (h0 : Keeps s0 a0) : Keeps s0 (recordNoted a0 a1) := by
  unfold recordNoted
  with_reducible repeat' (first | assumption | refine keeps_ercReady ?_)

theorem keeps_ownReady {a0} {a1} {a2} (h0 : Keeps s0 a0) : Keeps s0 (ownReady a0 a1 a2).1 := by
  unfold ownReady
  with_reducible repeat' (first | assumption | refine keeps_enqueueOwn ?_ | refine keeps_modRed ?_ | refine keeps_readerRed ?_ | refine keeps_deliverAll ?_ | refine keeps_recordNoted ?_ | refine keeps_ite ?_ ?_)

theorem keeps_modSeal {a0} {a1} (h0 : Keeps s0 a0) : Keeps s0 (modSeal a0 a1) := by
  unfold modSeal
  with_reducible repeat' (first | assumption | refine keepsMk_of ?_ ?_ ?_ ?_ ?_ ?_ ?_ (by rfl) | rfl | dsimp only [keeps_mk_eq])

theorem keeps_modWork {a0} {a1} {a2} (h0 : Keeps s0 a0) : Keeps s0 (modWork a0 a1 a2) := by
  unfold modWork
  with_reducible repeat' (first | assumption | refine keeps_modSeal ?_)

theorem keeps_joinInput {a0} {a1} {a2} {a3} (h0 : Keeps s0 a0) : Keeps s0 (joinInput a0 a1 a2 a3) := by
  unfold joinInput
  with_reducible repeat' (first | assumption | refine keeps_modWork ?_ | refine keeps_rcAdd ?_)

theorem keeps_foldLate {a0} {a1} {a2} (h0 : Keeps s0 a0) : Keeps s0 (foldLate a0 a1 a2) := by
  unfold foldLate
  with_reducible repeat' (first | assumption | refine keeps_rcInc ?_ | refine keeps_modSeal ?_)

theorem keeps_takeGroup {a0} {a1} {a2} {a3} {a4} (h3 : Keeps s0 a3) : Keeps s0 (takeGroup a0 a1 a2 a3 a4) := by
  unfold takeGroup
  with_reducible repeat' (first | assumption | refine keeps_rcInc ?_ | refine keeps_foldLate ?_ | refine keeps_modWork ?_ | refine keeps_ite ?_ ?_)

theorem keeps_decideHeld {a0} {a1} {a2} {a3} (h1 : Keeps s0 a1) : Keeps s0 (decideHeld a0 a1 a2 a3) := by
  unfold decideHeld
  with_reducible repeat' (first | assumption | refine keeps_rcInc ?_ | refine keeps_joinInput ?_ | refine keeps_modWork ?_ | refine keeps_takeGroup ?_ | refine keeps_ite ?_ ?_ | dsimp only [keeps_mk_eq] | refine keeps_foldl ?_ ?_ | intro _ _ _)

theorem keeps_mergeCounts {a0} {a1} {a2} {a3} (h0 : Keeps s0 a0) : Keeps s0 (mergeCounts a0 a1 a2 a3) := by
  unfold mergeCounts
  with_reducible repeat' (first | assumption | refine keeps_rcAdd ?_)

theorem keeps_recheck {a0} {a1} {a2} {a3} (h0 : Keeps s0 a0) : Keeps s0 (recheck a0 a1 a2 a3).1 := by
  unfold recheck
  with_reducible repeat' (first | assumption | refine keeps_rcInc ?_ | refine keeps_raiseFault ?_ | dsimp only [keeps_mk_eq] | split)

theorem keeps_mergeAll {a0} {a1} {a2} {a3} {a4} {a5} (h5 : Keeps s0 a5) : Keeps s0 (mergeAll a0 a1 a2 a3 a4 a5).1 := by
  induction a3 generalizing a4 a5 with
  | nil =>
    unfold mergeAll
    with_reducible assumption
  | cons e r ih =>
    unfold mergeAll
    with_reducible repeat' (first | assumption | refine ih ?_ | refine keeps_mergeCounts ?_ | refine keeps_recheck ?_)

theorem keeps_takeLates {a0} {a1} {a2} (h0 : Keeps s0 a0) : Keeps s0 (takeLates a0 a1 a2).1 := by
  unfold takeLates
  with_reducible repeat' (first | assumption | refine keeps_modSeal ?_ | refine keeps_rcAdd ?_)

theorem keeps_sealEpoch {a0} {a1} {a2} {a3} (h0 : Keeps s0 a0) : Keeps s0 (sealEpoch a0 a1 a2 a3) := by
  unfold sealEpoch
  with_reducible repeat' (first | assumption | refine keeps_modWork ?_ | refine keeps_touch ?_ | refine keeps_decideHeld ?_ | refine keeps_mergeAll ?_ | refine keeps_takeLates ?_ | refine keeps_modSeal ?_ | refine keeps_ite ?_ ?_ | dsimp only [keeps_mk_eq] | refine keeps_foldl ?_ ?_ | intro _ _ _ | split)

theorem keeps_sealEarly {a0} {a1} (h1 : Keeps s0 a1) : Keeps s0 (sealEarly a0 a1) := by
  induction a0 generalizing a1 with
  | zero =>
    unfold sealEarly
    with_reducible assumption
  | succ n ih =>
    unfold sealEarly
    with_reducible repeat' (first | assumption | refine ih ?_ | refine keeps_sealEpoch ?_ | refine keeps_ite ?_ ?_ | split)

theorem keeps_sealNow {a0} (h0 : Keeps s0 a0) : Keeps s0 (sealNow a0) := by
  unfold sealNow
  with_reducible repeat' (first | assumption | refine keeps_sealEarly ?_)

theorem keeps_foldResent {a0} {a1} {a2} {a3} (h0 : Keeps s0 a0) : Keeps s0 (foldResent a0 a1 a2 a3) := by
  unfold foldResent
  with_reducible repeat' (first | assumption | refine keeps_foldLate ?_ | refine keeps_modWork ?_ | refine keeps_takeGroup ?_ | refine keeps_rcInc ?_ | dsimp only [keeps_mk_eq] | refine keeps_foldl ?_ ?_ | intro _ _ _)

theorem keeps_takeResent {a0} {a1} {a2} {a3} {a4} (h0 : Keeps s0 a0) : Keeps s0 (takeResent a0 a1 a2 a3 a4) := by
  unfold takeResent
  with_reducible repeat' (first | assumption | refine keeps_queueRec ?_ | refine keeps_rcInc ?_ | refine keeps_modTally ?_ | refine keeps_foldResent ?_ | refine keeps_modWork ?_ | refine keeps_ite ?_ ?_ | split)

theorem keeps_acceptRecord {a0} {a1} {a2} {a3} {a4} (h0 : Keeps s0 a0) : Keeps s0 (acceptRecord a0 a1 a2 a3 a4) := by
  unfold acceptRecord
  with_reducible repeat' (first | assumption | refine keeps_modTally ?_ | refine keeps_modWork ?_ | refine keeps_modSeal ?_ | refine keeps_foldLate ?_ | refine keeps_joinInput ?_ | refine keeps_takeGroup ?_ | refine keeps_ite ?_ ?_ | dsimp only [keeps_mk_eq] | refine keeps_foldl ?_ ?_ | intro _ _ _)

theorem keeps_decideRecord {a0} {a1} {a2} {a3} {a4} (h0 : Keeps s0 a0) : Keeps s0 (decideRecord a0 a1 a2 a3 a4) := by
  unfold decideRecord
  with_reducible repeat' (first | assumption | refine keeps_takeResent ?_ | refine keeps_rcInc ?_ | refine keeps_acceptRecord ?_ | refine keeps_ite ?_ ?_ | split)

theorem keeps_checkRecord {a0} {a1} {a2} {a3} (h0 : Keeps s0 a0) : Keeps s0 (checkRecord a0 a1 a2 a3) := by
  unfold checkRecord
  with_reducible repeat' (first | assumption | refine keeps_askResend ?_ | refine keeps_rcInc ?_ | refine keeps_decideRecord ?_ | refine keeps_ite ?_ ?_ | dsimp only [keeps_mk_eq] | split)

theorem keeps_releaseChildren {a0} (h0 : Keeps s0 a0) : Keeps s0 (releaseChildren a0) := by
  unfold releaseChildren
  with_reducible repeat' (first | assumption | refine keeps_modSeal ?_)

theorem keeps_sealCmd {a0} {a1} (h0 : Keeps s0 a0) : Keeps s0 (sealCmd a0 a1) := by
  unfold sealCmd
  with_reducible repeat' (first | assumption | refine keeps_sealNow ?_ | refine keeps_sealEpoch ?_ | refine keeps_advanceTick ?_ | refine keeps_ite ?_ ?_ | split)

theorem keeps_foldSkipped {a0} {a1} (h0 : Keeps s0 a0) : Keeps s0 (foldSkipped a0 a1) := by
  unfold foldSkipped
  with_reducible repeat' (first | assumption | refine keeps_foldLate ?_ | refine keeps_modWork ?_ | refine keeps_rcInc ?_ | refine keeps_foldResent ?_ | refine keeps_ite ?_ ?_ | dsimp only [keeps_mk_eq] | refine keeps_foldl ?_ ?_ | intro _ _ _)

theorem keeps_openWork {a0} {a1} (h0 : Keeps s0 a0) : Keeps s0 (openWork a0 a1) := by
  unfold openWork
  with_reducible repeat' (first | assumption | refine keeps_modWork ?_ | refine keeps_foldSkipped ?_ | refine keeps_sealNow ?_ | refine keeps_modSeal ?_ | refine keeps_ite ?_ ?_ | refine keeps_foldl ?_ ?_ | intro _ _ _)

theorem keeps_sealDue {a0} {a1} (h1 : Keeps s0 a1) : Keeps s0 (sealDue a0 a1) := by
  induction a0 generalizing a1 with
  | zero =>
    unfold sealDue
    with_reducible assumption
  | succ n ih =>
    unfold sealDue
    with_reducible repeat' (first | assumption | refine ih ?_ | refine keeps_sealEpoch ?_ | refine keeps_ite ?_ ?_ | split)

theorem keeps_recordReceive {a0} {a1} (h0 : Keeps s0 a0) : Keeps s0 (recordReceive a0 a1) := by
  unfold recordReceive
  with_reducible repeat' (first | assumption | refine keeps_freeCells ?_ | refine keeps_modPort ?_ | refine keeps_sealNow ?_ | refine keeps_checkRecord ?_ | refine keeps_touch ?_ | refine keeps_sealDue ?_ | refine keeps_ite ?_ ?_ | dsimp only [keeps_mk_eq] | split)

theorem keeps_sendDown {a0} {a1} {a2} {a3} (h0 : Keeps s0 a0) : Keeps s0 (sendDown a0 a1 a2 a3) := by
  unfold sendDown
  with_reducible repeat' (first | assumption | refine keeps_queueRec ?_ | refine keeps_foldl ?_ ?_ | intro _ _ _)

theorem keeps_queueSample {a0} {a1} (h0 : Keeps s0 a0) : Keeps s0 (queueSample a0 a1) := by
  unfold queueSample
  with_reducible repeat' (first | assumption | refine keepsMk_of ?_ ?_ ?_ ?_ ?_ ?_ ?_ (by rfl) | rfl | refine keeps_ite ?_ ?_ | dsimp only [keeps_mk_eq])

theorem keeps_snapStart {a0} (h0 : Keeps s0 a0) : Keeps s0 (snapStart a0) := by
  unfold snapStart
  with_reducible repeat' (first | assumption | refine keeps_mmPump ?_ | refine keeps_mmWriteJob ?_ | refine keeps_ite ?_ ?_ | split)

theorem keeps_snapSkip {a0} (h0 : Keeps s0 a0) : Keeps s0 (snapSkip a0) := by
  unfold snapSkip
  with_reducible repeat' (first | assumption | refine keeps_rcInc ?_ | refine keeps_modSeal ?_)

theorem keeps_snapStage {a0} {a1} {a2} (h0 : Keeps s0 a0) : Keeps s0 (snapStage a0 a1 a2) := by
  unfold snapStage
  with_reducible repeat' (first | assumption | refine keepsMk_of ?_ ?_ ?_ ?_ ?_ ?_ ?_ (by rfl) | rfl | refine keeps_snapStart ?_ | refine keeps_snapSkip ?_ | refine keeps_modSeal ?_ | refine keeps_mmPump ?_ | refine keeps_mmWriteJob ?_ | refine keeps_ite ?_ ?_ | dsimp only [keeps_mk_eq] | split)

theorem keeps_keepDown {a0} {a1} (h0 : Keeps s0 a0) : Keeps s0 (keepDown a0 a1) := by
  unfold keepDown
  with_reducible repeat' (first | assumption | refine keeps_modRed ?_)

theorem keeps_downReceiveOp {a0} {a1} (h0 : Keeps s0 a0) : Keeps s0 (downReceiveOp a0 a1) := by
  unfold downReceiveOp
  with_reducible repeat' (first | assumption | refine keeps_freeCells ?_ | refine keeps_modPort ?_ | refine keeps_rcInc ?_ | refine keeps_askResend ?_ | refine keeps_keepDown ?_ | refine keeps_sendDown ?_ | refine keeps_ite ?_ ?_ | dsimp only [keeps_mk_eq] | split)

theorem keeps_snapCommit {a0} {a1} (h0 : Keeps s0 a0) : Keeps s0 (snapCommit a0 a1) := by
  unfold snapCommit
  with_reducible repeat' (first | assumption | refine keeps_snapSkip ?_ | refine keeps_snapStart ?_ | refine keeps_modSeal ?_ | refine keeps_ite ?_ ?_)

theorem keeps_mergedReady {a0} (h0 : Keeps s0 a0) : Keeps s0 (mergedReady a0) := by
  unfold mergedReady
  with_reducible repeat' (first | assumption | refine keeps_modSeal ?_ | refine keeps_ownReady ?_ | refine keeps_queueSample ?_ | refine keeps_sendDown ?_ | refine keeps_keepDown ?_ | refine keeps_snapCommit ?_ | refine keeps_ite ?_ ?_ | dsimp only [keeps_mk_eq] | split)

theorem keeps_downMissing {a0} (h0 : Keeps s0 a0) : Keeps s0 (downMissing a0) := by
  unfold downMissing
  with_reducible repeat' (first | assumption | refine keeps_advanceTick ?_ | refine keeps_askResend ?_ | refine keeps_ite ?_ ?_ | split)

theorem keeps_modVrd {a0} {a1} (h0 : Keeps s0 a0) : Keeps s0 (modVrd a0 a1) := by
  unfold modVrd
  with_reducible repeat' (first | assumption | refine keepsMk_of ?_ ?_ ?_ ?_ ?_ ?_ ?_ (by rfl) | rfl | dsimp only [keeps_mk_eq])

theorem keeps_settleBudgets {a0} (h0 : Keeps s0 a0) : Keeps s0 (settleBudgets a0) := by
  unfold settleBudgets
  with_reducible repeat' (first | assumption | refine keeps_modVrd ?_)

theorem keeps_holdWith {a0} {a1} {a2} (h0 : Keeps s0 a0) : Keeps s0 (holdWith a0 a1 a2).1 := by
  unfold holdWith
  with_reducible repeat' (first | assumption | refine keeps_rcInc ?_)

theorem keeps_spend {a0} {a1} (h0 : Keeps s0 a0) : Keeps s0 (spend a0 a1).1 := by
  unfold spend
  with_reducible repeat' (first | assumption | refine keeps_settleBudgets ?_ | refine keeps_holdWith ?_ | refine keeps_rcInc ?_ | refine keeps_modVrd ?_ | dsimp only [keeps_mk_eq] | split)

theorem keeps_openVote {a0} {a1} (h0 : Keeps s0 a0) : Keeps s0 (openVote a0 a1).1 := by
  unfold openVote
  with_reducible repeat' (first | assumption | refine keeps_modVrd ?_ | refine keeps_rcInc ?_ | refine keeps_queueAll ?_ | dsimp only [keeps_mk_eq] | split)

theorem keeps_nextVotes {a0} {a1} (h1 : Keeps s0 a1) : Keeps s0 (nextVotes a0 a1) := by
  induction a0 generalizing a1 with
  | zero =>
    unfold nextVotes
    with_reducible assumption
  | succ n ih =>
    unfold nextVotes
    with_reducible repeat' (first | assumption | refine ih ?_ | refine keeps_spend ?_ | refine keeps_modVrd ?_ | refine keeps_openVote ?_ | refine keeps_ite ?_ ?_ | dsimp only [keeps_mk_eq] | split)

theorem keeps_vrdStrobe {a0} {a1} (h0 : Keeps s0 a0) : Keeps s0 (vrdStrobe a0 a1) := by
  unfold vrdStrobe
  with_reducible repeat' (first | assumption | refine keeps_modVrd ?_ | refine keeps_rcInc ?_ | refine keeps_ite ?_ ?_ | dsimp only [keeps_mk_eq] | split)

theorem keeps_noteHealth {a0} {a1} {a2} (h0 : Keeps s0 a0) : Keeps s0 (noteHealth a0 a1 a2) := by
  unfold noteHealth
  with_reducible repeat' (first | assumption | refine keeps_modVrd ?_ | refine keeps_modRed ?_)

theorem keeps_toOverflow {a0} {a1} (h0 : Keeps s0 a0) : Keeps s0 (toOverflow a0 a1) := by
  unfold toOverflow
  with_reducible repeat' (first | assumption | refine keeps_modVrd ?_)

theorem keeps_placeVerdict {a0} {a1} (h0 : Keeps s0 a0) : Keeps s0 (placeVerdict a0 a1) := by
  unfold placeVerdict
  with_reducible repeat' (first | assumption | refine keeps_modVrd ?_ | refine keeps_rcInc ?_ | refine keeps_toOverflow ?_ | refine keeps_ite ?_ ?_ | dsimp only [keeps_mk_eq] | split)

theorem keeps_joinQueue {a0} {a1} (h0 : Keeps s0 a0) : Keeps s0 (joinQueue a0 a1) := by
  unfold joinQueue
  with_reducible repeat' (first | assumption | refine keeps_modVrd ?_ | refine keeps_placeVerdict ?_ | refine keeps_ite ?_ ?_)

theorem keeps_enterVerdict {a0} {a1} {a2} (h0 : Keeps s0 a0) : Keeps s0 (enterVerdict a0 a1 a2) := by
  unfold enterVerdict
  with_reducible repeat' (first | assumption | refine keeps_touch ?_ | refine keeps_joinQueue ?_ | refine keeps_holdWith ?_ | refine keeps_openVote ?_ | refine keeps_spend ?_ | refine keeps_ite ?_ ?_ | dsimp only [keeps_mk_eq] | split)

theorem keeps_produce {a0} {a1} {a2} {a3} {a4} {a5} {a6} {a7} (h0 : Keeps s0 a0) : Keeps s0 (produce a0 a1 a2 a3 a4 a5 a6 a7) := by
  unfold produce
  with_reducible repeat' (first | assumption | refine keeps_rcInc ?_ | refine keeps_modVrd ?_ | refine keeps_noteHealth ?_ | refine keeps_enterVerdict ?_ | refine keeps_ite ?_ ?_)

theorem keeps_peerGapNote {a0} (h0 : Keeps s0 a0) : Keeps s0 (peerGapNote a0) := by
  unfold peerGapNote
  with_reducible repeat' (first | assumption | refine keepsMk_of ?_ ?_ ?_ ?_ ?_ ?_ ?_ (by rfl) | rfl | refine keeps_modVrd ?_ | refine keeps_produce ?_ | refine keeps_ite ?_ ?_ | dsimp only [keeps_mk_eq] | split)

theorem keeps_ringStage {a0} {a1} {a2} (h0 : Keeps s0 a0) : Keeps s0 (ringStage a0 a1 a2) := by
  unfold ringStage
  with_reducible repeat' (first | assumption | refine keeps_modVrd ?_ | refine keeps_mmPump ?_ | refine keeps_mmWriteJob ?_ | refine keeps_ite ?_ ?_ | dsimp only [keeps_mk_eq] | split)

theorem keeps_closeVote {a0} {a1} {a2} (h0 : Keeps s0 a0) : Keeps s0 (closeVote a0 a1 a2) := by
  unfold closeVote
  with_reducible repeat' (first | assumption | refine keeps_rcInc ?_ | refine keeps_modVrd ?_ | refine keeps_nextVotes ?_ | refine keeps_spend ?_ | refine keeps_holdWith ?_ | dsimp only [keeps_mk_eq] | split)

theorem keeps_ballotReceiveOp {a0} {a1} {a2} (h0 : Keeps s0 a0) : Keeps s0 (ballotReceiveOp a0 a1 a2) := by
  unfold ballotReceiveOp
  with_reducible repeat' (first | assumption | refine keeps_rxFrame ?_ | refine keeps_checkedFrame ?_ | refine keeps_closeVote ?_ | refine keeps_modVrd ?_ | refine keeps_ite ?_ ?_ | dsimp only [keeps_mk_eq] | split | refine keeps_fst ?_ (by assumption))

theorem keeps_modDet {a0} {a1} {a2} (h0 : Keeps s0 a0) : Keeps s0 (modDet a0 a1 a2) := by
  unfold modDet
  with_reducible repeat' (first | assumption | refine keeps_modVrd ?_)

theorem keeps_raiseVerdict {a0} {a1} {a2} {a3} {a4} {a5} (h4 : Keeps s0 a4) : Keeps s0 (raiseVerdict a0 a1 a2 a3 a4 a5) := by
  unfold raiseVerdict
  with_reducible repeat' (first | assumption | refine keeps_rcInc ?_ | refine keeps_modDet ?_ | refine keeps_produce ?_ | refine keeps_ite ?_ ?_)

theorem keeps_stragPass {a0} {a1} {a2} {a3} {a4} {a5} (h0 : Keeps s0 a0) : Keeps s0 (stragPass a0 a1 a2 a3 a4 a5) := by
  unfold stragPass
  with_reducible repeat' (first | assumption | refine keeps_modDet ?_ | refine keeps_rcInc ?_ | refine keeps_rcAdd ?_ | refine keeps_raiseVerdict ?_ | refine keeps_ite ?_ ?_ | dsimp only [keeps_mk_eq] | refine keeps_foldl ?_ ?_ | intro _ _ _ | split)

theorem keeps_leaveQueue {a0} {a1} (h0 : Keeps s0 a0) : Keeps s0 (leaveQueue a0 a1) := by
  unfold leaveQueue
  with_reducible repeat' (first | assumption | refine keeps_modTally ?_ | refine keeps_modVrd ?_ | refine keeps_ite ?_ ?_)

theorem keeps_voteTimeoutOp {a0} {a1} (h0 : Keeps s0 a0) : Keeps s0 (voteTimeoutOp a0 a1) := by
  unfold voteTimeoutOp
  with_reducible repeat' (first | assumption | refine keeps_closeVote ?_ | refine keeps_advanceTb0 ?_ | split)

theorem keeps_verdictReceiveOp {a0} {a1} {a2} (h0 : Keeps s0 a0) : Keeps s0 (verdictReceiveOp a0 a1 a2) := by
  unfold verdictReceiveOp
  with_reducible repeat' (first | assumption | refine keeps_rxFrame ?_ | refine keeps_checkedFrame ?_ | refine keeps_rcInc ?_ | refine keeps_modVrd ?_ | refine keeps_enterVerdict ?_ | refine keeps_ite ?_ ?_ | dsimp only [keeps_mk_eq] | split | refine keeps_fst ?_ (by assumption))

theorem keeps_carryDetsFor {a0} {a1} (h0 : Keeps s0 a0) : Keeps s0 (carryDetsFor a0 a1) := by
  unfold carryDetsFor
  with_reducible repeat' (first | assumption | refine keepsMk_of ?_ ?_ ?_ ?_ ?_ ?_ ?_ (by rfl) | rfl | refine keeps_modVrd ?_ | refine keeps_ite ?_ ?_ | dsimp only [keeps_mk_eq] | split)

theorem keeps_windowPass {a0} {a1} {a2} {a3} {a4} {a5} {a6} (h0 : Keeps s0 a0) : Keeps s0 (windowPass a0 a1 a2 a3 a4 a5 a6) := by
  unfold windowPass
  with_reducible repeat' (first | assumption | refine keeps_modDet ?_ | refine keeps_raiseVerdict ?_ | dsimp only [keeps_mk_eq] | split)

theorem keeps_newtStrag {a0} {a1} {a2} {a3} {a4} {a5} (h0 : Keeps s0 a0) : Keeps s0 (newtStrag a0 a1 a2 a3 a4 a5) := by
  unfold newtStrag
  with_reducible repeat' (first | assumption | refine keeps_rcInc ?_ | refine keeps_windowPass ?_ | split)

theorem keeps_detPass {a0} {a1} {a2} {a3} {a4} (h3 : Keeps s0 a3) : Keeps s0 (detPass a0 a1 a2 a3 a4) := by
  unfold detPass
  with_reducible repeat' (first | assumption | refine keeps_raiseVerdict ?_ | refine keeps_modDet ?_ | refine keeps_windowPass ?_ | refine keeps_newtStrag ?_ | refine keeps_stragPass ?_ | refine keeps_readScore ?_ | refine keeps_ite ?_ ?_ | dsimp only [keeps_mk_eq] | refine keeps_foldl ?_ ?_ | intro _ _ _ | split)

theorem keeps_runBaselines {a0} {a1} (h0 : Keeps s0 a0) : Keeps s0 (runBaselines a0 a1) := by
  unfold runBaselines
  with_reducible repeat' (first | assumption | refine keeps_carryDetsFor ?_ | refine keeps_detPass ?_ | refine keeps_modVrd ?_ | dsimp only [keeps_mk_eq] | refine keeps_foldl ?_ ?_ | intro _ _ _ | split)

theorem keeps_proposeReceive {a0} {a1} {a2} (h0 : Keeps s0 a0) : Keeps s0 (proposeReceive a0 a1 a2) := by
  unfold proposeReceive
  with_reducible repeat' (first | assumption | refine keeps_rxFrame ?_ | refine keeps_checkedFrame ?_ | refine keeps_queueFrame ?_ | dsimp only [keeps_mk_eq] | split | refine keeps_fst ?_ (by assumption))

theorem keeps_ringWriteOp {a0} (h0 : Keeps s0 a0) : Keeps s0 (ringWriteOp a0) := by
  unfold ringWriteOp
  with_reducible repeat' (first | assumption | refine keeps_queueAll ?_ | refine keeps_mmPump ?_ | refine keeps_mmWriteJob ?_ | refine keeps_modVrd ?_ | refine keeps_leaveQueue ?_ | refine keeps_ite ?_ ?_ | dsimp only [keeps_mk_eq] | split)

theorem keeps_passDue {a0} (h0 : Keeps s0 a0) : Keeps s0 (passDue a0).1 := by
  unfold passDue
  with_reducible repeat' (first | assumption | refine keeps_carryDetsFor ?_ | refine keeps_modVrd ?_ | refine keeps_touch ?_ | refine keeps_readerVrd ?_ | refine keeps_detPass ?_ | dsimp only [keeps_mk_eq] | refine keeps_foldl ?_ ?_ | intro _ _ _ | split)

theorem keeps_newtReady {a0} {a1} (h0 : Keeps s0 a0) : Keeps s0 (newtReady a0 a1) := by
  unfold newtReady
  with_reducible repeat' (first | assumption | refine keeps_touch ?_ | refine keeps_advanceTick ?_ | refine keeps_runBaselines ?_ | refine keeps_newtFields ?_ | refine keeps_ownReady ?_ | refine keeps_ite ?_ ?_ | dsimp only [keeps_mk_eq] | split)

theorem keeps_modIlk {a0} {a1} (h0 : Keeps s0 a0) : Keeps s0 (modIlk a0 a1) := by
  unfold modIlk
  with_reducible repeat' (first | assumption | refine keepsMk_of ?_ ?_ ?_ ?_ ?_ ?_ ?_ (by rfl) | rfl | dsimp only [keeps_mk_eq])

theorem keeps_markDeparture {a0} {a1} {a2} (h0 : Keeps s0 a0) : Keeps s0 (markDeparture a0 a1 a2) := by
  unfold markDeparture
  with_reducible repeat' (first | assumption | refine keeps_sealNow ?_ | refine keeps_modSeal ?_ | refine keeps_ite ?_ ?_)

theorem keeps_rebuildNode {a0} (h0 : Keeps s0 a0) : Keeps s0 (rebuildNode a0) := by
  unfold rebuildNode
  with_reducible repeat' (first | assumption | refine keepsMk_of ?_ ?_ ?_ ?_ ?_ ?_ ?_ (by rfl) | rfl | refine keeps_modVrd ?_ | dsimp only [keeps_mk_eq])

theorem keeps_askTag {a0} {a1} {a2} {a3} (h0 : Keeps s0 a0) : Keeps s0 (askTag a0 a1 a2 a3) := by
  unfold askTag
  with_reducible repeat' (first | assumption | refine keeps_askResend ?_ | refine keeps_ite ?_ ?_ | split)

theorem keeps_clearDeparture {a0} {a1} {a2} (h0 : Keeps s0 a0) : Keeps s0 (clearDeparture a0 a1 a2) := by
  unfold clearDeparture
  with_reducible repeat' (first | assumption | refine keeps_modSeal ?_)

theorem keeps_queueAck {a0} {a1} {a2} {a3} {a4} (h0 : Keeps s0 a0) : Keeps s0 (queueAck a0 a1 a2 a3 a4) := by
  unfold queueAck
  with_reducible repeat' (first | assumption | refine keeps_queueFrame ?_ | split)

theorem keeps_abandonSync {a0} (h0 : Keeps s0 a0) : Keeps s0 (abandonSync a0) := by
  unfold abandonSync
  with_reducible repeat' (first | assumption | refine keepsMk_of ?_ ?_ ?_ ?_ ?_ ?_ ?_ (by rfl) | rfl | refine keeps_rebuildNode ?_ | dsimp only [keeps_mk_eq])

theorem keeps_makeActive {a0} {a1} (h0 : Keeps s0 a0) : Keeps s0 (makeActive a0 a1) := by
  unfold makeActive
  with_reducible repeat' (first | assumption | refine keeps_modIlk ?_ | refine keeps_fillLevel ?_ | refine keeps_modPort ?_ | dsimp only [keeps_mk_eq] | split)

theorem keeps_resendAll {a0} {a1} {a2} (h0 : Keeps s0 a0) : Keeps s0 (resendAll a0 a1 a2) := by
  unfold resendAll
  with_reducible repeat' (first | assumption | refine keeps_queueAck ?_ | refine keeps_queueFrame ?_ | refine keeps_queueRec ?_ | dsimp only [keeps_mk_eq] | refine keeps_foldl ?_ ?_ | intro _ _ _ | split)

theorem keeps_failover {a0} {a1} (h0 : Keeps s0 a0) : Keeps s0 (failover a0 a1) := by
  unfold failover
  with_reducible repeat' (first | assumption | refine keeps_makeActive ?_ | refine keeps_modIlk ?_ | refine keeps_resendAll ?_ | dsimp only [keeps_mk_eq] | split)

theorem keeps_uplinkLost {a0} {a1} (h0 : Keeps s0 a0) : Keeps s0 (uplinkLost a0 a1) := by
  unfold uplinkLost
  with_reducible repeat' (first | assumption | refine keeps_modIlk ?_ | refine keeps_failover ?_ | refine keeps_ite ?_ ?_ | dsimp only [keeps_mk_eq] | split)

theorem keeps_portLost {a0} {a1} {a2} (h0 : Keeps s0 a0) : Keeps s0 (portLost a0 a1 a2) := by
  unfold portLost
  with_reducible repeat' (first | assumption | refine keeps_freeCells ?_ | refine keeps_rcInc ?_ | refine keeps_modPort ?_ | refine keeps_markDeparture ?_ | refine keeps_abandonSync ?_ | refine keeps_sealNow ?_ | refine keeps_uplinkLost ?_ | refine keeps_ite ?_ ?_ | split)

theorem keeps_noteSkew {a0} {a1} (h0 : Keeps s0 a0) : Keeps s0 (noteSkew a0 a1) := by
  unfold noteSkew
  with_reducible repeat' (first | assumption | refine keepsMk_of ?_ ?_ ?_ ?_ ?_ ?_ ?_ (by rfl) | rfl | refine keeps_rcInc ?_ | refine keeps_ite ?_ ?_ | dsimp only [keeps_mk_eq])

theorem keeps_reassPut {a0} {a1} {a2} {a3} {a4} (h0 : Keeps s0 a0) : Keeps s0 (reassPut a0 a1 a2 a3 a4) := by
  unfold reassPut
  with_reducible repeat' (first | assumption | refine keeps_modPort ?_ | refine keeps_ite ?_ ?_)

theorem keeps_segment {a0} {a1} {a2} {a3} (h0 : Keeps s0 a0) : Keeps s0 (segment a0 a1 a2 a3) := by
  unfold segment
  with_reducible repeat' (first | assumption | refine keeps_reassPut ?_ | refine keeps_askTag ?_ | refine keeps_rcInc ?_ | refine keeps_freeCells ?_ | refine keeps_modPort ?_ | refine keeps_ite ?_ ?_ | dsimp only [keeps_mk_eq] | split)

theorem keeps_depart {a0} {a1} {a2} (h0 : Keeps s0 a0) : Keeps s0 (depart a0 a1 a2) := by
  unfold depart
  with_reducible repeat' (first | assumption | refine keepsMk_of ?_ ?_ ?_ ?_ ?_ ?_ ?_ (by rfl) | rfl | refine keeps_setLevel ?_ | refine keeps_modPort ?_ | refine keeps_ite ?_ ?_ | dsimp only [keeps_mk_eq])

theorem keeps_sendHeart {a0} {a1} (h0 : Keeps s0 a0) : Keeps s0 (sendHeart a0 a1) := by
  unfold sendHeart
  with_reducible repeat' (first | assumption | refine keeps_depart ?_ | refine keeps_modPort ?_)

theorem keeps_heartbeatSendOp {a0} {a1} (h0 : Keeps s0 a0) : Keeps s0 (heartbeatSendOp a0 a1) := by
  unfold heartbeatSendOp
  with_reducible repeat' (first | assumption | refine keeps_sendHeart ?_ | refine keeps_advanceTick ?_ | refine keeps_ite ?_ ?_ | dsimp only [keeps_mk_eq] | split)

theorem keeps_expireDown {a0} {a1} (h0 : Keeps s0 a0) : Keeps s0 (expireDown a0 a1) := by
  unfold expireDown
  with_reducible repeat' (first | assumption | refine keeps_rcAdd ?_ | refine keeps_modPort ?_)

theorem keeps_waitSegment {a1} {a2} {a3} {a0} (h0 : Keeps s0 a0) : Keeps s0 (waitSegment a0 a1 a2 a3).2 := by
  unfold waitSegment
  with_reducible repeat' (first | assumption | refine keeps_modPort ?_)

theorem keeps_heartbeatMissOp {a0} {a1} (h0 : Keeps s0 a0) : Keeps s0 (heartbeatMissOp a0 a1) := by
  unfold heartbeatMissOp
  with_reducible repeat' (first | assumption | refine keeps_advanceTb0 ?_ | refine keeps_modPort ?_ | refine keeps_rcInc ?_ | refine keeps_portLost ?_ | refine keeps_ite ?_ ?_)

theorem keeps_linkRise {a0} {a1} (h0 : Keeps s0 a0) : Keeps s0 (linkRise a0 a1) := by
  unfold linkRise
  with_reducible repeat' (first | assumption | refine keeps_modPort ?_ | refine keeps_ite ?_ ?_)

theorem keeps_childBack {a0} {a1} (h0 : Keeps s0 a0) : Keeps s0 (childBack a0 a1) := by
  unfold childBack
  with_reducible repeat' (first | assumption | refine keeps_modPort ?_ | refine keeps_clearDeparture ?_ | refine keeps_ite ?_ ?_ | dsimp only [keeps_mk_eq] | split)

theorem keeps_segmentReceive {a0} {a1} {a2} (h0 : Keeps s0 a0) : Keeps s0 (segmentReceive a0 a1 a2) := by
  unfold segmentReceive
  with_reducible repeat' (first | assumption | refine keeps_rxFrame ?_ | refine keeps_segment ?_ | dsimp only [keeps_mk_eq] | split | refine keeps_fst ?_ (by assumption))

theorem keeps_linkFall {a0} {a1} (h0 : Keeps s0 a0) : Keeps s0 (linkFall a0 a1) := by
  unfold linkFall
  with_reducible repeat' (first | assumption | refine keeps_modPort ?_ | refine keeps_portLost ?_ | refine keeps_ite ?_ ?_)

theorem keeps_catchUp {a0} {a1} {a2} {a3} (h0 : Keeps s0 a0) : Keeps s0 (catchUp a0 a1 a2 a3) := by
  unfold catchUp
  with_reducible repeat' (first | assumption | refine keeps_queueFrame ?_ | refine keeps_ite ?_ ?_ | refine keeps_foldl ?_ ?_ | intro _ _ _)

theorem keeps_clockStop {a0} {a1} (h0 : Keeps s0 a0) : Keeps s0 (clockStop a0 a1) := by
  unfold clockStop
  with_reducible repeat' (first | assumption | refine keeps_rcAdd ?_ | refine keeps_modPort ?_ | refine keeps_ite ?_ ?_)

theorem keeps_uplinkUp {a0} {a1} (h0 : Keeps s0 a0) : Keeps s0 (uplinkUp a0 a1) := by
  unfold uplinkUp
  with_reducible repeat' (first | assumption | refine keeps_modPort ?_ | refine keeps_failover ?_ | refine keeps_ite ?_ ?_ | split)

theorem keeps_portRises {a0} {a1} (h0 : Keeps s0 a0) : Keeps s0 (portRises a0 a1) := by
  unfold portRises
  with_reducible repeat' (first | assumption | refine keeps_modPort ?_ | refine keeps_uplinkUp ?_ | refine keeps_fillLevel ?_)

theorem keeps_resendReqOp {a0} {a1} {a2} (h0 : Keeps s0 a0) : Keeps s0 (resendReqOp a0 a1 a2) := by
  unfold resendReqOp
  with_reducible repeat' (first | assumption | refine keeps_rxFrame ?_ | refine keeps_rcInc ?_ | refine keeps_queueRec ?_ | dsimp only [keeps_mk_eq] | refine keeps_foldl ?_ ?_ | intro _ _ _ | split | refine keeps_fst ?_ (by assumption))

theorem keeps_uplinkRevertOp {a0} (h0 : Keeps s0 a0) : Keeps s0 (uplinkRevertOp a0) := by
  unfold uplinkRevertOp
  with_reducible repeat' (first | assumption | refine keeps_makeActive ?_ | refine keeps_ite ?_ ?_ | dsimp only [keeps_mk_eq] | split)

theorem keeps_expireHeld {a0} (h0 : Keeps s0 a0) : Keeps s0 (expireHeld a0) := by
  unfold expireHeld
  with_reducible repeat' (first | assumption | refine keeps_modIlk ?_)

theorem keeps_holdSent {a0} {a1} {a2} {a3} {a4} {a5} (h0 : Keeps s0 a0) : Keeps s0 (holdSent a0 a1 a2 a3 a4 a5) := by
  unfold holdSent
  with_reducible repeat' (first | assumption | refine keeps_modIlk ?_)

theorem keeps_noteCredits {a0} {a1} {a2} (h0 : Keeps s0 a0) : Keeps s0 (noteCredits a0 a1 a2) := by
  unfold noteCredits
  with_reducible repeat' (first | assumption | refine keepsMk_of ?_ ?_ ?_ ?_ ?_ ?_ ?_ (by rfl) | rfl | refine keeps_ite ?_ ?_ | dsimp only [keeps_mk_eq] | split)

theorem keeps_frameDrop {a0} {a1} {a2} {a3} (h0 : Keeps s0 a0) : Keeps s0 (frameDrop a0 a1 a2 a3) := by
  unfold frameDrop
  with_reducible repeat' (first | assumption | refine keeps_rcInc ?_ | refine keeps_ite ?_ ?_ | split)

theorem keeps_gateChange {a0} {a1} (h0 : Keeps s0 a0) : Keeps s0 (gateChange a0 a1) := by
  unfold gateChange
  with_reducible repeat' (first | assumption | refine keeps_advanceTick ?_ | refine keeps_rcInc ?_ | refine keeps_modPort ?_ | refine keeps_ite ?_ ?_ | dsimp only [keeps_mk_eq] | split)

theorem keeps_startOwn {a0} {a1} {a2} (h0 : Keeps s0 a0) : Keeps s0 (startOwn a0 a1 a2) := by
  unfold startOwn
  with_reducible repeat' (first | assumption | refine keeps_modRed ?_ | refine keeps_holdSent ?_ | refine keeps_rcInc ?_ | refine keeps_ite ?_ ?_)

theorem keeps_waitRec {a0 a1 a2} (h0 : Keeps s0 a0) : Keeps s0 (waitRec a0 a1 a2).next := by
  unfold waitRec
  exact keeps_ite (keeps_holdSent (keeps_waitSegment h0)) (keeps_waitSegment h0)

theorem keeps_waitOwn {a0 a1 a2} (h0 : Keeps s0 a0) : Keeps s0 (waitOwn a0 a1 a2).next := by
  unfold waitOwn
  exact keeps_startOwn (keeps_waitSegment h0)

theorem keeps_waitFrame {a0 a1 a2} (h0 : Keeps s0 a0) : Keeps s0 (waitFrame a0 a1 a2).next := keeps_modPort h0

theorem keeps_waitVerdict {a0 w} (h0 : Keeps s0 a0) (e : waitVerdict a0 = some w) : Keeps s0 w.next := by
  unfold waitVerdict at e
  split at e
  · cases e
  · obtain ⟨q, -, rfl⟩ := Option.map_eq_some_iff.mp e
    exact keeps_modVrd (keeps_leaveQueue h0)

theorem keeps_waitRecord {a0 a1 w} (h0 : Keeps s0 a0) (e : waitRecord a0 a1 = some w) : Keeps s0 w.next := by
  unfold waitRecord at e
  dsimp only at e
  split at e
  · cases e; exact keeps_waitRec h0
  · split at e
    · cases e; exact keeps_waitRec h0
    · split at e
      · cases e; exact keeps_waitRec h0
      · cases e; exact keeps_waitOwn h0
    · cases e; exact keeps_waitRec h0
    · cases e; exact keeps_waitOwn h0
    · obtain ⟨q, -, rfl⟩ := Option.map_eq_some_iff.mp e
      exact keeps_waitRec h0

theorem keeps_firstWaiting {a0 a1 w} (h0 : Keeps s0 a0) (e : firstWaiting a0 a1 = some w) : Keeps s0 w.next := by
  unfold firstWaiting at e
  dsimp only at e
  split at e
  · cases e; exact keeps_waitFrame h0
  · cases e; exact keeps_waitFrame h0
  · cases e; exact keeps_waitFrame h0
  · split at e
    · rename_i e1
      cases e
      split at e1
      · exact keeps_waitVerdict h0 e1
      · cases e1
    · exact keeps_waitRecord h0 e

theorem keeps_transmit {a0} {a1} (h0 : Keeps s0 a0) : Keeps s0 (transmit a0 a1).1 := by
  have k : Keeps s0 (expireDown a0 a1) := keeps_expireDown h0
  unfold transmit
  generalize expireDown a0 a1 = t at k
  split
  · exact h0
  · dsimp only
    split
    · exact k
    · split
      · exact keeps_sendHeart k
      · split
        · exact k
        · split
          · exact k
          · rename_i e
            split
            · exact k
            · exact keeps_depart (keeps_firstWaiting k e)

theorem keeps_heartbeatReceiveOp {a0} {a1} {a2} (h0 : Keeps s0 a0) : Keeps s0 (heartbeatReceiveOp a0 a1 a2) := by
  unfold heartbeatReceiveOp
  with_reducible repeat' (first | assumption | refine keeps_rxFrame ?_ | refine keeps_noteCredits ?_ | refine keeps_noteSkew ?_ | refine keeps_modPort ?_ | refine keeps_portLost ?_ | refine keeps_portRises ?_ | refine keeps_childBack ?_ | refine keeps_sealNow ?_ | refine keeps_catchUp ?_ | refine keeps_ite ?_ ?_ | dsimp only [keeps_mk_eq] | split | refine keeps_fst ?_ (by assumption))

theorem keeps_modImg {a0} {a1} (h0 : Keeps s0 a0) : Keeps s0 (modImg a0 a1) := by
  unfold modImg
  with_reducible repeat' (first | assumption | refine keepsMk_of ?_ ?_ ?_ ?_ ?_ ?_ ?_ (by rfl) | rfl | dsimp only [keeps_mk_eq])

theorem keeps_scheduleAt {a0} {a1} {a2} {a3} {a4} (h0 : Keeps s0 a0) : Keeps s0 (scheduleAt a0 a1 a2 a3 a4) := by
  unfold scheduleAt
  with_reducible repeat' (first | assumption | refine keeps_modImg ?_)

theorem keeps_pendSel {a0} {a1} {a2} {a3} {a4} (h0 : Keeps s0 a0) : Keeps s0 (pendSel a0 a1 a2 a3 a4) := by
  unfold pendSel
  with_reducible repeat' (first | assumption | refine keeps_modRed ?_)

theorem keeps_repeatAck {a0} {a1} {a2} (h0 : Keeps s0 a0) : Keeps s0 (repeatAck a0 a1 a2) := by
  unfold repeatAck
  with_reducible repeat' (first | assumption | refine keeps_queueAck ?_ | split)

theorem keeps_setBcast {a0} {a1} (h0 : Keeps s0 a0) : Keeps s0 (setBcast a0 a1) := by
  unfold setBcast
  with_reducible repeat' (first | assumption | refine keeps_modIlk ?_)

theorem keeps_sendAck {a0} {a1} {a2} (h0 : Keeps s0 a0) : Keeps s0 (sendAck a0 a1 a2) := by
  unfold sendAck
  with_reducible repeat' (first | assumption | refine keeps_setBcast ?_ | refine keeps_queueAck ?_)

theorem keeps_evalBcast {a0} {a1} (h0 : Keeps s0 a0) : Keeps s0 (evalBcast a0 a1) := by
  unfold evalBcast
  with_reducible repeat' (first | assumption | refine keeps_sendAck ?_ | refine keeps_ite ?_ ?_ | split)

theorem keeps_takeBcast {a0} {a1} (h0 : Keeps s0 a0) : Keeps s0 (takeBcast a0 a1) := by
  unfold takeBcast
  with_reducible repeat' (first | assumption | refine keeps_setBcast ?_ | refine keeps_queueAll ?_ | refine keeps_modIlk ?_ | refine keeps_evalBcast ?_ | dsimp only [keeps_mk_eq] | split)

theorem keeps_activateReceiveOp {a0} {a1} {a2} (h0 : Keeps s0 a0) : Keeps s0 (activateReceiveOp a0 a1 a2) := by
  unfold activateReceiveOp
  with_reducible repeat' (first | assumption | refine keeps_rxFrame ?_ | refine keeps_repeatAck ?_ | refine keeps_rwSet ?_ | refine keeps_modImg ?_ | refine keeps_scheduleAt ?_ | refine keeps_takeBcast ?_ | refine keeps_ite ?_ ?_ | dsimp only [keeps_mk_eq] | split | refine keeps_fst ?_ (by assumption))

theorem keeps_modResult {a0} {a1} (h0 : Keeps s0 a0) : Keeps s0 (modResult a0 a1) := by
  unfold modResult
  with_reducible repeat' (first | assumption | refine keeps_modIlk ?_)

theorem keeps_startIssueOp {a0} (h0 : Keeps s0 a0) : Keeps s0 (startIssueOp a0) := by
  unfold startIssueOp
  with_reducible repeat' (first | assumption | refine keeps_modResult ?_ | refine keeps_takeBcast ?_ | refine keeps_pendSel ?_ | refine keeps_ite ?_ ?_)

theorem keeps_startReceiveOp {a0} {a1} {a2} (h0 : Keeps s0 a0) : Keeps s0 (startReceiveOp a0 a1 a2) := by
  unfold startReceiveOp
  with_reducible repeat' (first | assumption | refine keeps_rxFrame ?_ | refine keeps_repeatAck ?_ | refine keeps_takeBcast ?_ | refine keeps_pendSel ?_ | refine keeps_ite ?_ ?_ | dsimp only [keeps_mk_eq] | split | refine keeps_fst ?_ (by assumption))

theorem keeps_startRetryOp {a0} (h0 : Keeps s0 a0) : Keeps s0 (startRetryOp a0) := by
  unfold startRetryOp
  with_reducible repeat' (first | assumption | refine keeps_advanceTb0 ?_ | refine keeps_queueAll ?_ | refine keeps_setBcast ?_ | refine keeps_ite ?_ ?_ | dsimp only [keeps_mk_eq] | split)

theorem keeps_broadcastOutcomeOp {a0} (h0 : Keeps s0 a0) : Keeps s0 (broadcastOutcomeOp a0) := by
  unfold broadcastOutcomeOp
  with_reducible repeat' (first | assumption | refine keeps_advanceTb0 ?_ | refine keeps_modResult ?_ | refine keeps_setBcast ?_ | refine keeps_modImg ?_ | refine keeps_ite ?_ ?_ | dsimp only [keeps_mk_eq] | split)

theorem keeps_selStrobe {a0} {a1} (h0 : Keeps s0 a0) : Keeps s0 (selStrobe a0 a1) := by
  unfold selStrobe
  with_reducible repeat' (first | assumption | refine keeps_modRed ?_ | refine keeps_modCap ?_ | refine keeps_ite ?_ ?_)

theorem keeps_activateIssueOp {a0} (h0 : Keeps s0 a0) : Keeps s0 (activateIssueOp a0) := by
  unfold activateIssueOp
  with_reducible repeat' (first | assumption | refine keeps_modImg ?_ | refine keeps_scheduleAt ?_ | refine keeps_modResult ?_ | refine keeps_takeBcast ?_ | refine keeps_ite ?_ ?_ | dsimp only [keeps_mk_eq] | split)

theorem keeps_evalBcasts {a0} (h0 : Keeps s0 a0) : Keeps s0 (evalBcasts a0) := by
  unfold evalBcasts
  with_reducible repeat' (first | assumption | refine keeps_evalBcast ?_ | refine keeps_foldl ?_ ?_ | intro _ _ _)

theorem keeps_ackReceiveOp {a0} {a1} {a2} (h0 : Keeps s0 a0) : Keeps s0 (ackReceiveOp a0 a1 a2) := by
  unfold ackReceiveOp
  with_reducible repeat' (first | assumption | refine keeps_rxFrame ?_ | refine keeps_queueFrame ?_ | refine keeps_evalBcast ?_ | refine keeps_setBcast ?_ | refine keeps_ite ?_ ?_ | dsimp only [keeps_mk_eq] | split | refine keeps_fst ?_ (by assumption))

theorem keeps_ackDeadlineOp {a0} (h0 : Keeps s0 a0) : Keeps s0 (ackDeadlineOp a0) := by
  unfold ackDeadlineOp
  with_reducible repeat' (first | assumption | refine keeps_sendAck ?_ | refine keeps_advanceTb0 ?_ | refine keeps_ite ?_ ?_ | dsimp only [keeps_mk_eq] | split)

end Sys2Proof.Machine
end

