-- ==== Sys2Proof/Laws/KeepsHost.lean ====
section
/-!
SUPPORT. Mirrors, the panel, TIME, mailboxes and views keep everything that `Keeps` says.
-/
namespace Sys2Proof.Machine

variable {s0 s t : State}

theorem keeps_modMir {a0} {a1} (h0 : Keeps s0 a0) : Keeps s0 (modMir a0 a1) := by
  unfold modMir
  with_reducible repeat' (first | assumption | refine keepsMk_of ?_ ?_ ?_ ?_ ?_ ?_ ?_ (by rfl) | rfl | dsimp only [keeps_mk_eq])

theorem keeps_syncApply {a0} (h0 : Keeps s0 a0) : Keeps s0 (syncApply a0) := by
  unfold syncApply
  with_reducible repeat' (first | assumption | refine keeps_readerVrd ?_ | refine keeps_modVrd ?_ | refine keeps_modFeat ?_ | refine keeps_modMir ?_ | dsimp only [keeps_mk_eq] | refine keeps_foldl ?_ ?_ | intro _ _ _ | split)

theorem keeps_mirStrobe {a0} (h0 : Keeps s0 a0) : Keeps s0 (mirStrobe a0) := by
  unfold mirStrobe
  with_reducible repeat' (first | assumption | refine keeps_syncApply ?_ | refine keeps_modMir ?_ | refine keeps_ite ?_ ?_)

theorem keeps_sendMir {a0} {a1} {a2} (h0 : Keeps s0 a0) : Keeps s0 (sendMir a0 a1 a2) := by
  unfold sendMir
  with_reducible repeat' (first | assumption | refine keeps_queueRec ?_)

theorem keeps_mirrorSend {a0} {a1} (h0 : Keeps s0 a0) : Keeps s0 (mirrorSend a0 a1) := by
  unfold mirrorSend
  with_reducible repeat' (first | assumption | refine keeps_sendMir ?_ | refine keeps_ite ?_ ?_ | split)

theorem keeps_noteReceiving {a0} {a1} (h0 : Keeps s0 a0) : Keeps s0 (noteReceiving a0 a1) := by
  unfold noteReceiving
  with_reducible repeat' (first | assumption | refine keeps_modMir ?_ | refine keeps_ite ?_ ?_)

theorem keeps_syncWaitExpiryOp {a0} (h0 : Keeps s0 a0) : Keeps s0 (syncWaitExpiryOp a0) := by
  unfold syncWaitExpiryOp
  with_reducible repeat' (first | assumption | refine keeps_abandonSync ?_ | refine keeps_advanceTb0 ?_ | refine keeps_ite ?_ ?_)

theorem keeps_takeBlock {a0} {a1} {a2} (h0 : Keeps s0 a0) : Keeps s0 (takeBlock a0 a1 a2).1 := by
  unfold takeBlock
  with_reducible repeat' (first | assumption | refine keeps_freeCells ?_ | refine keeps_modPort ?_ | refine keeps_rcInc ?_ | dsimp only [keeps_mk_eq] | split)

theorem keeps_mirEmpty {a0} {a1} {a2} {a3} (h0 : Keeps s0 a0) : Keeps s0 (mirEmpty a0 a1 a2 a3).1 := by
  unfold mirEmpty
  with_reducible repeat' (first | assumption | refine keepsMk_of ?_ ?_ ?_ ?_ ?_ ?_ ?_ (by rfl) | rfl | dsimp only [keeps_mk_eq])

theorem keeps_syncReqReceiveOp {a0} {a1} (h0 : Keeps s0 a0) : Keeps s0 (syncReqReceiveOp a0 a1) := by
  unfold syncReqReceiveOp
  with_reducible repeat' (first | assumption | refine keeps_takeBlock ?_ | refine keeps_sendMir ?_ | refine keeps_mirEmpty ?_ | dsimp only [keeps_mk_eq] | split | refine keeps_fst ?_ (by assumption))

theorem keeps_rebuildEndOp {a0} (h0 : Keeps s0 a0) : Keeps s0 (rebuildEndOp a0) := by
  unfold rebuildEndOp
  with_reducible repeat' (first | assumption | refine keeps_modMir ?_ | refine keeps_modVrd ?_ | refine keeps_ite ?_ ?_)

theorem keeps_syncDataReceiveOp {a0} {a1} (h0 : Keeps s0 a0) : Keeps s0 (syncDataReceiveOp a0 a1) := by
  unfold syncDataReceiveOp
  with_reducible repeat' (first | assumption | refine keeps_takeBlock ?_ | refine keeps_abandonSync ?_ | refine keeps_modMir ?_ | refine keeps_rebuildNode ?_ | refine keeps_modVrd ?_ | refine keeps_ite ?_ ?_ | dsimp only [keeps_mk_eq] | split | refine keeps_fst ?_ (by assumption))

theorem keeps_mirrorReceiveOp {a0} {a1} (h0 : Keeps s0 a0) : Keeps s0 (mirrorReceiveOp a0 a1) := by
  unfold mirrorReceiveOp
  with_reducible repeat' (first | assumption | refine keeps_takeBlock ?_ | refine keeps_modMir ?_ | refine keeps_rcInc ?_ | refine keeps_ite ?_ ?_ | dsimp only [keeps_mk_eq] | split | refine keeps_fst ?_ (by assumption))

theorem keeps_detectorPassOp {a0} (h0 : Keeps s0 a0) : Keeps s0 (detectorPassOp a0) := by
  unfold detectorPassOp
  with_reducible repeat' (first | assumption | refine keeps_passDue ?_ | refine keeps_mirrorSend ?_ | split | refine keeps_fst ?_ (by assumption))

theorem keeps_syncReqSendOp {a0} (h0 : Keeps s0 a0) : Keeps s0 (syncReqSendOp a0) := by
  unfold syncReqSendOp
  with_reducible repeat' (first | assumption | refine keeps_mirEmpty ?_ | refine keeps_modMir ?_ | refine keeps_sendMir ?_ | refine keeps_ite ?_ ?_ | dsimp only [keeps_mk_eq] | split)

theorem keeps_eventPop {a0} {a1} (h0 : Keeps s0 a0) : Keeps s0 (eventPop a0 a1) := by
  unfold eventPop
  split
  · rename_i e
    exact keeps_of h0 rfl rfl (Nat.le_refl _) fun ⟨b1, b2, b3, b4, b5, b6, b7⟩ => ⟨b1, b2, b3, b4, b5, by simp [modPnl, e] at b6 ⊢; omega, b7⟩
  · exact h0

theorem keeps_departIn {a0} {a1} {a2} {a3} (h0 : Keeps s0 a0) : Keeps s0 (departIn a0 a1 a2 a3).1 := by
  unfold departIn
  with_reducible repeat' (first | assumption | refine keeps_rxFrame ?_ | dsimp only [keeps_mk_eq] | split | refine keeps_fst ?_ (by assumption))

theorem keeps_departCancelOp {a0} {a1} {a2} (h0 : Keeps s0 a0) : Keeps s0 (departCancelOp a0 a1 a2) := by
  unfold departCancelOp
  with_reducible repeat' (first | assumption | refine keeps_departIn ?_ | refine keeps_queueCtrl ?_ | refine keeps_clearDeparture ?_ | split | refine keeps_fst ?_ (by assumption))

theorem keeps_plugFall {a0} {a1} (h0 : Keeps s0 a0) : Keeps s0 (plugFall a0 a1) := by
  unfold plugFall
  with_reducible repeat' (first | assumption | refine keeps_markDeparture ?_ | refine keeps_modPnl ?_ (by rfl) | refine keeps_ite ?_ ?_ | dsimp only [keeps_mk_eq] | split)

theorem keeps_departOwn {a0} {a1} {a2} {a3} (h0 : Keeps s0 a0) : Keeps s0 (departOwn a0 a1 a2 a3).1 := by
  unfold departOwn
  with_reducible repeat' (first | assumption | refine keeps_departIn ?_ | dsimp only [keeps_mk_eq] | split | refine keeps_fst ?_ (by assumption))

theorem keeps_sendUp {a0} {a1} {a2} {a3} {a4} (h0 : Keeps s0 a0) : Keeps s0 (sendUp a0 a1 a2 a3 a4) := by
  unfold sendUp
  with_reducible repeat' (first | assumption | refine keeps_queueCtrl ?_ | split)

theorem keeps_sendRequest {a0} (h0 : Keeps s0 a0) : Keeps s0 (sendRequest a0) := by
  unfold sendRequest
  with_reducible repeat' (first | assumption | refine keeps_sendUp ?_ | refine keeps_modPnl ?_ (by rfl))

theorem keeps_requestRetryOp {a0} (h0 : Keeps s0 a0) : Keeps s0 (requestRetryOp a0) := by
  unfold requestRetryOp
  with_reducible repeat' (first | assumption | refine keeps_sendRequest ?_ | refine keeps_ite ?_ ?_)

theorem keeps_askDeparture {a0} {a1} (h0 : Keeps s0 a0) : Keeps s0 (askDeparture a0 a1) := by
  unfold askDeparture
  with_reducible repeat' (first | assumption | refine keeps_sendRequest ?_ | refine keeps_modPnl ?_ (by rfl) | refine keeps_ite ?_ ?_)

theorem keeps_askCancel {a0} {a1} (h0 : Keeps s0 a0) : Keeps s0 (askCancel a0 a1) := by
  unfold askCancel
  with_reducible repeat' (first | assumption | refine keeps_sendUp ?_ | refine keeps_ite ?_ ?_)

theorem keeps_pressLong {a0} (h0 : Keeps s0 a0) : Keeps s0 (pressLong a0) := by
  unfold pressLong
  with_reducible repeat' (first | assumption | refine keeps_askCancel ?_ | refine keeps_modPnl ?_ (by rfl))

theorem keeps_longPressOp {a0} (h0 : Keeps s0 a0) : Keeps s0 (longPressOp a0) := by
  unfold longPressOp
  with_reducible repeat' (first | assumption | refine keeps_pressLong ?_ | refine keeps_advanceSlow ?_ | refine keeps_ite ?_ ?_ | split)

theorem keeps_departCancelledOp {a0} {a1} {a2} (h0 : Keeps s0 a0) : Keeps s0 (departCancelledOp a0 a1 a2) := by
  unfold departCancelledOp
  with_reducible repeat' (first | assumption | refine keeps_departOwn ?_ | refine keeps_modPnl ?_ (by rfl) | refine keeps_ite ?_ ?_ | split | refine keeps_fst ?_ (by assumption))

theorem keeps_buttonEdge {a0} {a1} (h0 : Keeps s0 a0) : Keeps s0 (buttonEdge a0 a1) := by
  unfold buttonEdge
  with_reducible repeat' (first | assumption | refine keeps_modPnl ?_ (by rfl) | refine keeps_askDeparture ?_ | refine keeps_askCancel ?_ | refine keeps_ite ?_ ?_ | dsimp only [keeps_mk_eq] | split)

theorem keeps_safeCheck {a0} (h0 : Keeps s0 a0) : Keeps s0 (safeCheck a0) := by
  unfold safeCheck
  with_reducible repeat' (first | assumption | refine keeps_queueCtrl ?_ | refine keeps_modSeal ?_ | refine keeps_ite ?_ ?_ | refine keeps_foldl ?_ ?_ | intro _ _ _ | split)

theorem keeps_departRequestOp {a0} {a1} {a2} (h0 : Keeps s0 a0) : Keeps s0 (departRequestOp a0 a1 a2) := by
  unfold departRequestOp
  with_reducible repeat' (first | assumption | refine keeps_departIn ?_ | refine keeps_markDeparture ?_ | refine keeps_modSeal ?_ | refine keeps_safeCheck ?_ | refine keeps_queueCtrl ?_ | dsimp only [keeps_mk_eq] | split | refine keeps_fst ?_ (by assumption))

theorem keeps_departSafeOp {a0} {a1} {a2} (h0 : Keeps s0 a0) : Keeps s0 (departSafeOp a0 a1 a2) := by
  unfold departSafeOp
  with_reducible repeat' (first | assumption | refine keeps_departOwn ?_ | refine keeps_modPnl ?_ (by rfl) | refine keeps_ite ?_ ?_ | split | refine keeps_fst ?_ (by assumption))

theorem keeps_pnlEvent {a0} {a1} {a2} (h0 : Keeps s0 a0) : Keeps s0 (pnlEvent a0 a1 a2) := by
  unfold pnlEvent
  dsimp only
  split
  · exact keeps_rcInc (keeps_modPnl h0 rfl)
  · exact keeps_of h0 rfl rfl (Nat.le_refl _) fun ⟨b1, b2, b3, b4, b5, b6, b7⟩ => ⟨b1, b2, b3, b4, b5, by simp [modPnl]; omega, b7⟩

theorem keeps_panelEdgeOp {a0} {a1} {a2} (h0 : Keeps s0 a0) : Keeps s0 (panelEdgeOp a0 a1 a2) := by
  unfold panelEdgeOp
  with_reducible repeat' (first | assumption | refine keeps_modPnl ?_ (by rfl) | refine keeps_pnlEvent ?_ | refine keeps_buttonEdge ?_ | refine keeps_plugFall ?_ | refine keeps_ite ?_ ?_ | dsimp only [keeps_mk_eq] | split)

theorem keeps_departGrantOp {a0} {a1} {a2} (h0 : Keeps s0 a0) : Keeps s0 (departGrantOp a0 a1 a2) := by
  unfold departGrantOp
  with_reducible repeat' (first | assumption | refine keeps_departOwn ?_ | refine keeps_modPnl ?_ (by rfl) | refine keeps_ite ?_ ?_ | split | refine keeps_fst ?_ (by assumption))

theorem keeps_modBase {a0} {a1} {a2} (h0 : Keeps s0 a0) : Keeps s0 (modBase a0 a1 a2) := by
  unfold modBase
  with_reducible repeat' (first | assumption | refine keeps_modTime ?_ (by rfl))

theorem keeps_modGrid {a0} {a1} (h0 : Keeps s0 a0) : Keeps s0 (modGrid a0 a1) := by
  unfold modGrid
  with_reducible repeat' (first | assumption | refine keeps_modTime ?_ (by rfl))

theorem keeps_ppsRise {a0} {a1} (h0 : Keeps s0 a0) : Keeps s0 (ppsRise a0 a1) := by
  unfold ppsRise
  with_reducible repeat' (first | assumption | refine keeps_modTime ?_ (by rfl))

theorem keeps_ppsStart {a0} (h0 : Keeps s0 a0) : Keeps s0 (ppsStart a0) := by
  unfold ppsStart
  with_reducible repeat' (first | assumption | refine keeps_ppsRise ?_ | refine keeps_advanceTb0 ?_ | refine keeps_ite ?_ ?_)

theorem keeps_captureOne {a0} {a1} (h0 : Keeps s0 a0) : Keeps s0 (captureOne a0 a1) := by
  unfold captureOne
  split
  · exact h0
  · dsimp only
    split
    · exact keeps_modTime (keeps_rcInc (keeps_modTime h0 rfl)) rfl
    · exact keeps_of h0 rfl rfl (Nat.le_refl _) fun ⟨b1, b2, b3, b4, b5, b6, b7⟩ => ⟨b1, b2, b3, by simp [modTime]; omega, b5, b6, b7⟩

theorem keeps_captureEdges {a0} {a1} (h0 : Keeps s0 a0) : Keeps s0 (captureEdges a0 a1) := by
  unfold captureEdges
  with_reducible repeat' (first | assumption | refine keeps_captureOne ?_ | refine keeps_foldl ?_ ?_ | intro _ _ _)

theorem keeps_refuseBase {a0} {a1} (h0 : Keeps s0 a0) : Keeps s0 (refuseBase a0 a1) := by
  unfold refuseBase
  with_reducible repeat' (first | assumption | refine keeps_modBase ?_)

theorem keeps_rateHigh {a0} {a1} {a2} (h0 : Keeps s0 a0) : Keeps s0 (rateHigh a0 a1 a2) := by
  unfold rateHigh
  with_reducible repeat' (first | assumption | refine keeps_modBase ?_ | refine keeps_refuseBase ?_ | refine keeps_ite ?_ ?_)

theorem keeps_rateLow {a0} {a1} {a2} (h0 : Keeps s0 a0) : Keeps s0 (rateLow a0 a1 a2) := by
  unfold rateLow
  with_reducible repeat' (first | assumption | refine keeps_modBase ?_ | refine keeps_ite ?_ ?_)

theorem keeps_rearmOp {a0} {a1} (h0 : Keeps s0 a0) : Keeps s0 (rearmOp a0 a1) := by
  unfold rearmOp
  with_reducible repeat' (first | assumption | refine keeps_refuseBase ?_ | refine keeps_modBase ?_ | refine keeps_ite ?_ ?_)

theorem keeps_stepGoOp {a0} {a1} (h0 : Keeps s0 a0) : Keeps s0 (stepGoOp a0 a1) := by
  unfold stepGoOp
  with_reducible repeat' (first | assumption | refine keeps_modBase ?_ | refine keeps_refuseBase ?_ | refine keeps_ite ?_ ?_)

theorem keeps_modStrobe {a0} {a1} {a2} (h0 : Keeps s0 a0) : Keeps s0 (modStrobe a0 a1 a2) := by
  unfold modStrobe
  with_reducible repeat' (first | assumption | refine keeps_modTime ?_ (by rfl))

theorem keeps_strobeArmOp {a0} {a1} (h0 : Keeps s0 a0) : Keeps s0 (strobeArmOp a0 a1) := by
  unfold strobeArmOp
  with_reducible repeat' (first | assumption | refine keeps_modStrobe ?_)

theorem keeps_fireNow {a0} {a1} (h0 : Keeps s0 a0) : Keeps s0 (fireNow a0 a1) := by
  unfold fireNow
  with_reducible repeat' (first | assumption | refine keeps_modStrobe ?_)

theorem keeps_strobeFireOp {a0} {a1} (h0 : Keeps s0 a0) : Keeps s0 (strobeFireOp a0 a1) := by
  unfold strobeFireOp
  with_reducible repeat' (first | assumption | refine keeps_fireNow ?_ | refine keeps_advanceTo ?_ | refine keeps_advanceTb0 ?_ | refine keeps_ite ?_ ?_ | split)

theorem keeps_warmWrites {a0} {a1} {a2} {a3} (h0 : ∀ {x}, Keeps s0 x → Keeps s0 (a0 x)) (h1 : ∀ {x}, Keeps s0 x → Keeps s0 (a1 x)) (h3 : Keeps s0 a3) :
    Keeps s0 (warmWrites a0 a1 a2 a3) := by
  induction a2 generalizing a3 with
  | nil => exact h3
  | cons e r ih =>
    have k : Keeps s0 { a3 with freeDraws := a3.freeDraws + 1 } := keepsMk_of h3 rfl rfl rfl rfl rfl rfl rfl
    exact keeps_ite (ih (h0 k)) (h1 k)

theorem keeps_stepBase {a0} {a1} (h0 : Keeps s0 a0) : Keeps s0 (stepBase a0 a1) := by
  unfold stepBase
  with_reducible repeat' (first | assumption | refine keeps_advanceTo ?_ | refine keeps_modBase ?_ | dsimp only [keeps_mk_eq] | split)

theorem keeps_stepOutputs {a0} {a1} (h0 : Keeps s0 a0) : Keeps s0 (stepOutputs a0 a1) := by
  unfold stepOutputs
  with_reducible repeat' (first | assumption | refine keeps_fireNow ?_ | refine keeps_ppsRise ?_ | refine keeps_ite ?_ ?_ | refine keeps_foldl ?_ ?_ | intro _ _ _)

theorem keeps_rateApplyOp {a0} {a1} (h0 : Keeps s0 a0) : Keeps s0 (rateApplyOp a0 a1) := by
  unfold rateApplyOp
  with_reducible repeat' (first | assumption | refine keeps_advanceTo ?_ | refine keeps_modBase ?_ | refine keeps_ite ?_ ?_ | dsimp only [keeps_mk_eq] | split)

theorem keeps_warmBase {a0} {a1} (h0 : Keeps s0 a0) : Keeps s0 (warmBase a0 a1) := by
  unfold warmBase
  with_reducible repeat' (first | assumption | refine keeps_warmWrites ?_ ?_ ?_ | refine keeps_rateApplyOp ?_ | refine keeps_modBase ?_ | refine keeps_stepBase ?_ | intro _ _)

theorem keeps_ppsEnd {a0} (h0 : Keeps s0 a0) : Keeps s0 (ppsEnd a0) := by
  unfold ppsEnd
  with_reducible repeat' (first | assumption | refine keeps_modTime ?_ (by rfl) | refine keeps_advanceTb0 ?_ | refine keeps_ite ?_ ?_)

theorem keeps_modHost {a0} {a1} (h0 : Keeps s0 a0) : Keeps s0 (modHost a0 a1) := by
  unfold modHost
  with_reducible repeat' (first | assumption | refine keepsMk_of ?_ ?_ ?_ ?_ ?_ ?_ ?_ (by rfl) | rfl | dsimp only [keeps_mk_eq])

theorem keeps_modMbx {a0} {a1} {a2} (h0 : Keeps s0 a0) : Keeps s0 (modMbx a0 a1 a2) := by
  unfold modMbx
  with_reducible repeat' (first | assumption | refine keeps_modHost ?_)

theorem keeps_zeroUnit {a0} {a1} (h0 : Keeps s0 a0) : Keeps s0 (zeroUnit a0 a1) := by
  unfold zeroUnit
  exact keeps_modBank (keeps_sram h0 wf_memClear)

theorem keeps_setCmd {a0} {a1} {a2} (h0 : Keeps s0 a0) : Keeps s0 (setCmd a0 a1 a2) := by
  unfold setCmd
  with_reducible repeat' (first | assumption | refine keeps_modMbx ?_)

theorem keeps_finishMbx {a0} {a1} {a2} {a3} (h0 : Keeps s0 a0) : Keeps s0 (finishMbx a0 a1 a2 a3) := by
  unfold finishMbx
  with_reducible repeat' (first | assumption | refine keeps_modMbx ?_ | refine keeps_tenantIrq ?_ | refine keeps_ite ?_ ?_)

theorem keeps_readPlace {a0} {a1} {a2} (h0 : Keeps s0 a0) : Keeps s0 (readPlace a0 a1 a2).1 := by
  unfold readPlace
  with_reducible repeat' (first | assumption | refine keeps_sramRead ?_ | dsimp only [keeps_mk_eq] | refine keeps_foldl_fst ?_ ?_ | intro _ _ _ | split)

theorem keeps_writePlace {a0} {a1} {a2} (h0 : Keeps s0 a0) : Keeps s0 (writePlace a0 a1 a2).1 := by
  unfold writePlace
  with_reducible repeat' (first | assumption | refine keeps_sramWrite ?_ | refine keeps_aliasSpan ?_ | refine keeps_touch ?_ | dsimp only [keeps_mk_eq] | refine keeps_foldl_fst ?_ ?_ | intro _ _ _ | split)

theorem keeps_writeDone {a0} {a1} {a2} (h0 : Keeps s0 a0) : Keeps s0 (writeDone a0 a1 a2) := by
  unfold writeDone
  with_reducible repeat' (first | assumption | refine keeps_mmWriteJob ?_)

theorem keeps_haltDma {a0} {a1} {a2} (h0 : Keeps s0 a0) : Keeps s0 (haltDma a0 a1 a2) := by
  unfold haltDma
  with_reducible repeat' (first | assumption | refine keepsMk_of ?_ ?_ ?_ ?_ ?_ ?_ ?_ (by rfl) | rfl | refine keeps_finishMbx ?_ | dsimp only [keeps_mk_eq])

theorem keeps_putData {a0} {a1} {a2} {a3} {a4} (h0 : Keeps s0 a0) : Keeps s0 (putData a0 a1 a2 a3 a4) := by
  unfold putData
  with_reducible repeat' (first | assumption | refine keeps_mmWriteJob ?_ | refine keeps_writePlace ?_ | refine keeps_writeDone ?_ | refine keeps_haltDma ?_ | refine keeps_finishMbx ?_ | refine keeps_ite ?_ ?_ | dsimp only [keeps_mk_eq] | split)

theorem keeps_startDesc {a0} {a1} {a2} (h0 : Keeps s0 a0) : Keeps s0 (startDesc a0 a1 a2) := by
  unfold startDesc
  with_reducible repeat' (first | assumption | refine keeps_finishMbx ?_ | refine keeps_setCmd ?_ | refine keeps_rcInc ?_ | refine keeps_mmReadJob ?_ | refine keeps_readPlace ?_ | refine keeps_putData ?_ | refine keeps_haltDma ?_ | refine keeps_ite ?_ ?_ | dsimp only [keeps_mk_eq] | split)

theorem keeps_tryDma {a0} {a1} {a2} (h0 : Keeps s0 a0) : Keeps s0 (tryDma a0 a1 a2) := by
  unfold tryDma
  with_reducible repeat' (first | assumption | refine keeps_touch ?_ | refine keeps_setCmd ?_ | refine keeps_startDesc ?_ | refine keeps_finishMbx ?_ | refine keeps_ite ?_ ?_ | dsimp only [keeps_mk_eq] | split)

theorem keeps_waitStep {a0} {a1} (h0 : Keeps s0 a0) : Keeps s0 (waitStep a0 a1) := by
  unfold waitStep
  with_reducible repeat' (first | assumption | refine keeps_tryDma ?_ | refine keeps_finishMbx ?_ | refine keeps_ite ?_ ?_ | split)

theorem keeps_drainUnits {a0} (h0 : Keeps s0 a0) : Keeps s0 (drainUnits a0) := by
  unfold drainUnits
  with_reducible repeat' (first | assumption | refine keeps_modHost ?_ | refine keeps_zeroUnit ?_ | refine keeps_foldl ?_ ?_ | intro _ _ _)

theorem keeps_waitPass {a0} {a1} (h1 : Keeps s0 a1) : Keeps s0 (waitPass a0 a1) := by
  induction a0 generalizing a1 with
  | zero =>
    unfold waitPass
    with_reducible assumption
  | succ n ih =>
    unfold waitPass
    with_reducible repeat' (first | assumption | refine ih ?_ | refine keeps_waitStep ?_ | refine keeps_drainUnits ?_ | refine keeps_foldl ?_ ?_ | intro _ _ _)

theorem keeps_mbxSettle {a0} (h0 : Keeps s0 a0) : Keeps s0 (mbxSettle a0) := by
  unfold mbxSettle
  with_reducible repeat' (first | assumption | refine keeps_mmPump ?_ | refine keeps_waitPass ?_)

theorem keeps_lockRead {a0} {a1} {a2} (h0 : Keeps s0 a0) : Keeps s0 (lockRead a0 a1 a2).1 := by
  unfold lockRead
  with_reducible repeat' (first | assumption | refine keeps_modMbx ?_ | split)

theorem keeps_releaseWrite {a0} {a1} {a2} {a3} {a4} (h0 : Keeps s0 a0) : Keeps s0 (releaseWrite a0 a1 a2 a3 a4) := by
  unfold releaseWrite
  with_reducible repeat' (first | assumption | refine keeps_modMbx ?_ | refine keeps_ite ?_ ?_)

theorem keeps_runMessage {a0} {a1} {a2} (h0 : Keeps s0 a0) : Keeps s0 (runMessage a0 a1 a2) := by
  unfold runMessage
  with_reducible repeat' (first | assumption | refine keeps_finishMbx ?_ | refine keeps_mmPump ?_ | refine keeps_mmReadJob ?_ | refine keeps_setCmd ?_ | refine keeps_ite ?_ ?_ | split)

theorem keeps_ringDoorbell {a0} {a1} {a2} {a3} (h0 : Keeps s0 a0) : Keeps s0 (ringDoorbell a0 a1 a2 a3) := by
  unfold ringDoorbell
  with_reducible repeat' (first | assumption | refine keeps_rcInc ?_ | refine keeps_runMessage ?_ | refine keeps_modMbx ?_ | refine keeps_ite ?_ ?_)

theorem keeps_dmaHaltClearOp {a0} (h0 : Keeps s0 a0) : Keeps s0 (dmaHaltClearOp a0) := by
  unfold dmaHaltClearOp
  with_reducible repeat' (first | assumption | refine keepsMk_of ?_ ?_ ?_ ?_ ?_ ?_ ?_ (by rfl) | rfl | refine keeps_mbxSettle ?_ | dsimp only [keeps_mk_eq])

theorem keeps_dmaBody {a0} {a1} {a2} (h0 : Keeps s0 a0) : Keeps s0 (dmaBody a0 a1 a2) := by
  unfold dmaBody
  with_reducible repeat' (first | assumption | refine keeps_finishMbx ?_ | refine keeps_tryDma ?_ | refine keeps_ite ?_ ?_)

theorem keeps_dmaStage {a0} {a1} {a2} {a3} {a4} (h0 : Keeps s0 a0) : Keeps s0 (dmaStage a0 a1 a2 a3 a4) := by
  unfold dmaStage
  with_reducible repeat' (first | assumption | refine keeps_finishMbx ?_ | refine keeps_putData ?_ | refine keeps_writeDone ?_ | refine keeps_startDesc ?_ | refine keeps_ite ?_ ?_ | split)

theorem keeps_createJob {a0} {a1} {a2} {a3} {a4} (h0 : Keeps s0 a0) : Keeps s0 (createJob a0 a1 a2 a3 a4) := by
  unfold createJob
  with_reducible repeat' (first | assumption | refine keepsMk_of ?_ ?_ ?_ ?_ ?_ ?_ ?_ (by rfl) | rfl | refine keeps_setCmd ?_ | refine keeps_bufMark ?_ | refine keeps_hostJob ?_ | dsimp only [keeps_mk_eq])

theorem keeps_writeResult {a0} {a1} {a2} {a3} {a4} {a5} (h0 : Keeps s0 a0) : Keeps s0 (writeResult a0 a1 a2 a3 a4 a5) := by
  unfold writeResult
  with_reducible repeat' (first | assumption | refine keeps_mmWriteJob ?_ | refine keeps_setCmd ?_)

theorem keeps_pumpRun {a0} {a1} {a2} (h1 : Keeps s0 a1) : Keeps s0 (pumpRun a0 a1 a2) := by
  induction a0 generalizing a1 a2 with
  | zero =>
    unfold pumpRun
    with_reducible assumption
  | succ n ih =>
    unfold pumpRun
    with_reducible repeat' (first | assumption | refine ih ?_ | refine keeps_createJob ?_ | refine keeps_modLeap ?_ | refine keeps_finishMbx ?_ | refine keeps_writeResult ?_ | refine keeps_mmReadJob ?_ | refine keeps_ite ?_ ?_ | dsimp only [keeps_mk_eq] | split)

theorem keeps_pumpRuns {a0} (h0 : Keeps s0 a0) : Keeps s0 (pumpRuns a0) := by
  unfold pumpRuns
  with_reducible repeat' (first | assumption | refine keeps_mbxSettle ?_ | refine keeps_pumpRun ?_ | refine keeps_foldl ?_ ?_ | intro _ _ _)

theorem keeps_ptpLost {a0} {a1} (h0 : Keeps s0 a0) : Keeps s0 (ptpLost a0 a1) := by
  unfold ptpLost
  with_reducible repeat' (first | assumption | refine keeps_mmPump ?_ | refine keeps_mmWriteJob ?_ | refine keeps_setCmd ?_ | refine keeps_ite ?_ ?_)

theorem keeps_ptpDropped {a0} {a1} (h0 : Keeps s0 a0) : Keeps s0 (ptpDropped a0 a1) := by
  unfold ptpDropped
  with_reducible repeat' (first | assumption | refine keeps_ptpLost ?_ | refine keeps_foldl ?_ ?_ | intro _ _ _)

theorem keeps_leapBody {a0} {a1} {a2} (h0 : Keeps s0 a0) : Keeps s0 (leapBody a0 a1 a2) := by
  unfold leapBody
  with_reducible repeat' (first | assumption | refine keeps_finishMbx ?_ | refine keeps_pumpRun ?_ | refine keeps_setCmd ?_ | refine keeps_ite ?_ ?_ | dsimp only [keeps_mk_eq] | split)

theorem keeps_discardCmds {a0} (h0 : Keeps s0 a0) : Keeps s0 (discardCmds a0) := by
  unfold discardCmds
  with_reducible repeat' (first | assumption | refine keeps_abortLeap ?_ | refine keeps_modHost ?_ | refine keeps_modLeap ?_ | refine keeps_zeroUnit ?_ | dsimp only [keeps_mk_eq] | refine keeps_foldl ?_ ?_ | intro _ _ _)

theorem keeps_ptpStart {a0} (h0 : Keeps s0 a0) : Keeps s0 (ptpStart a0) := by
  unfold ptpStart
  with_reducible repeat' (first | assumption | refine keeps_mmPump ?_ | refine keeps_mmWriteJob ?_ | refine keeps_ite ?_ ?_)

theorem keeps_ptpBody {a0} {a1} {a2} (h0 : Keeps s0 a0) : Keeps s0 (ptpBody a0 a1 a2) := by
  unfold ptpBody
  with_reducible repeat' (first | assumption | refine keeps_finishMbx ?_ | refine keeps_setCmd ?_ | refine keeps_modPort ?_ | refine keeps_ite ?_ ?_)

theorem keeps_cutJobs {a0} {a1} (h0 : Keeps s0 a0) : Keeps s0 (cutJobs a0 a1) := by
  unfold cutJobs
  with_reducible repeat' (first | assumption | refine keepsMk_of ?_ ?_ ?_ ?_ ?_ ?_ ?_ (by rfl) | rfl | dsimp only [keeps_mk_eq])

theorem keeps_endCmd {a0} {a1} {a2} (h0 : Keeps s0 a0) : Keeps s0 (endCmd a0 a1 a2) := by
  unfold endCmd
  with_reducible repeat' (first | assumption | refine keeps_cutJobs ?_ | refine keeps_setCmd ?_ | refine keeps_finishMbx ?_ | refine keeps_ite ?_ ?_)

theorem keeps_squashView {a0} {a1} (h0 : Keeps s0 a0) : Keeps s0 (squashView a0 a1) := by
  unfold squashView
  with_reducible repeat' (first | assumption | refine keeps_discardJobs ?_ | refine keeps_pumpRun ?_ | refine keeps_setCmd ?_ | refine keeps_endCmd ?_ | dsimp only [keeps_mk_eq] | split)

theorem keeps_ptpStage {a0} {a1} {a2} (h0 : Keeps s0 a0) : Keeps s0 (ptpStage a0 a1 a2) := by
  unfold ptpStage
  with_reducible repeat' (first | assumption | refine keeps_ptpStart ?_ | refine keeps_rcInc ?_ | refine keeps_modHost ?_ | refine keeps_mmPump ?_ | refine keeps_mmWriteJob ?_ | refine keeps_ite ?_ ?_ | dsimp only [keeps_mk_eq] | split)

theorem keeps_leapData {a0} {a1} {a2} {a3} {a4} (h0 : Keeps s0 a0) : Keeps s0 (leapData a0 a1 a2 a3 a4) := by
  unfold leapData
  with_reducible repeat' (first | assumption | refine keeps_pumpRun ?_ | refine keeps_setCmd ?_)

theorem keeps_lateNext {a0} {a1} (h0 : Keeps s0 a0) : Keeps s0 (lateNext a0 a1) := by
  unfold lateNext
  with_reducible repeat' (first | assumption | refine keeps_mmPump ?_ | refine keeps_mmWriteJob ?_ | refine keeps_setCmd ?_ | refine keeps_finishMbx ?_ | split)

theorem keeps_warnCmds {a0} (h0 : Keeps s0 a0) : Keeps s0 (warnCmds a0) := by
  unfold warnCmds
  with_reducible repeat' (first | assumption | refine keeps_discardJobs ?_ | refine keeps_abortLoads ?_ | refine keeps_pumpRuns ?_ | refine keeps_setCmd ?_ | refine keeps_finishMbx ?_ | refine keeps_foldl ?_ ?_ | intro _ _ _ | split)

theorem keeps_ptpReceiveOp {a0} {a1} {a2} (h0 : Keeps s0 a0) : Keeps s0 (ptpReceiveOp a0 a1 a2) := by
  unfold ptpReceiveOp
  with_reducible repeat' (first | assumption | refine keeps_rxFrame ?_ | refine keeps_rcInc ?_ | refine keeps_ptpStart ?_ | refine keeps_modHost ?_ | refine keeps_ite ?_ ?_ | dsimp only [keeps_mk_eq] | split | refine keeps_fst ?_ (by assumption))

theorem keeps_ptpSent {a0} {a1} (h0 : Keeps s0 a0) : Keeps s0 (ptpSent a0 a1) := by
  unfold ptpSent
  with_reducible repeat' (first | assumption | refine keeps_mmPump ?_ | refine keeps_mmWriteJob ?_ | refine keeps_setCmd ?_ | split)

theorem keeps_resetTb3 {a0} {a1} (h0 : Keeps s0 a0) : Keeps s0 (resetTb3 a0 a1) := by
  unfold resetTb3
  with_reducible repeat' (first | assumption | refine keepsMk_of ?_ ?_ ?_ ?_ ?_ ?_ ?_ (by rfl) | rfl | refine keeps_modBase ?_ | refine keeps_ite ?_ ?_ | dsimp only [keeps_mk_eq])

theorem keeps_clearView {a0} {a1} (h0 : Keeps s0 a0) : Keeps s0 (clearView a0 a1) := by
  unfold clearView
  exact keeps_modView (keeps_resetTb3 (keeps_modMbx (keepsMk_of (keeps_rcFilter (s0 := s0) h0) rfl rfl rfl rfl rfl rfl rfl)))

theorem keeps_completeReset {a0} {a1} (h0 : Keeps s0 a0) : Keeps s0 (completeReset a0 a1) := by
  unfold completeReset
  with_reducible repeat' (first | assumption | refine keeps_clearView ?_ | refine keeps_zeroUnit ?_ | refine keeps_modView ?_ | refine keeps_mbxSettle ?_ | refine keeps_finishMbx ?_ | refine keeps_ite ?_ ?_ | refine keeps_foldl ?_ ?_ | intro _ _ _ | split)

theorem keeps_viewResetCompleteOp {a0} {a1} (h0 : Keeps s0 a0) : Keeps s0 (viewResetCompleteOp a0 a1) := by
  unfold viewResetCompleteOp
  with_reducible repeat' (first | assumption | refine keeps_completeReset ?_ | refine keeps_ite ?_ ?_)

theorem keeps_beginReset {a0} {a1} {a2} (h0 : Keeps s0 a0) : Keeps s0 (beginReset a0 a1 a2) := by
  unfold beginReset
  with_reducible repeat' (first | assumption | refine keeps_modView ?_)

theorem keeps_releaseUnits {a0} {a1} (h0 : Keeps s0 a0) : Keeps s0 (releaseUnits a0 a1) := by
  unfold releaseUnits
  with_reducible repeat' (first | assumption | refine keeps_modHost ?_)

theorem keeps_applyEnt {a0} {a1} {a2} {a3} (h0 : Keeps s0 a0) : Keeps s0 (applyEnt a0 a1 a2 a3).1 := by
  unfold applyEnt
  with_reducible repeat' (first | assumption | refine keeps_releaseUnits ?_ | refine keeps_modView ?_)

theorem keeps_viewsActivate {a0} {a1} (h0 : Keeps s0 a0) : Keeps s0 (viewsActivate a0 a1) := by
  unfold viewsActivate
  with_reducible repeat' (first | assumption | refine keeps_viewResetCompleteOp ?_ | refine keeps_beginReset ?_ | refine keeps_applyEnt ?_ | refine keeps_zeroUnit ?_ | refine keeps_mbxSettle ?_ | dsimp only [keeps_mk_eq] | refine keeps_foldl ?_ ?_ | intro _ _ _)

theorem keeps_restoreBody {a0} {a1} {a2} (h0 : Keeps s0 a0) : Keeps s0 (restoreBody a0 a1 a2) := by
  unfold restoreBody
  with_reducible repeat' (first | assumption | refine keeps_finishMbx ?_ | refine keeps_mmReadJob ?_ | refine keeps_setCmd ?_ | refine keeps_ite ?_ ?_)

theorem keeps_cfgEdge {a0} {a1} {a2} {a3} (h0 : Keeps s0 a0) : Keeps s0 (cfgEdge a0 a1 a2 a3) := by
  unfold cfgEdge
  with_reducible repeat' (first | assumption | refine keeps_applyEnt ?_ | refine keeps_modView ?_ | refine keeps_setCmd ?_)

theorem keeps_setPair {a0} {a1} {a2} (h0 : Keeps s0 a0) : Keeps s0 (setPair a0 a1 a2) := by
  unfold setPair
  with_reducible repeat' (first | assumption | refine keeps_rwSet ?_)

theorem keeps_restoreRegs {a0} {a1} {a2} (h0 : Keeps s0 a0) : Keeps s0 (restoreRegs a0 a1 a2) := by
  unfold restoreRegs
  with_reducible repeat' (first | assumption | refine keepsMk_of ?_ ?_ ?_ ?_ ?_ ?_ ?_ (by rfl) | rfl | refine keeps_setPair ?_ | refine keeps_rwSet ?_ | dsimp only [keeps_mk_eq])

theorem keeps_restoreTb3 {a0} {a1} (h0 : Keeps s0 a0) : Keeps s0 (restoreTb3 a0 a1) := by
  unfold restoreTb3
  with_reducible repeat' (first | assumption | refine keeps_modBase ?_)

theorem keeps_restoreEdge {a0} {a1} {a2} {a3} {a4} (h0 : Keeps s0 a0) : Keeps s0 (restoreEdge a0 a1 a2 a3 a4) := by
  unfold restoreEdge
  with_reducible repeat' (first | assumption | refine keeps_applyEnt ?_ | refine keeps_modView ?_ | refine keeps_restoreRegs ?_ | refine keeps_modMbx ?_ | refine keeps_finishMbx ?_ | refine keeps_restoreTb3 ?_ | refine keeps_ite ?_ ?_)

theorem keeps_viewsEdge {a0} (h0 : Keeps s0 a0) : Keeps s0 (viewsEdge a0) := by
  unfold viewsEdge
  with_reducible repeat' (first | assumption | refine keeps_mbxSettle ?_ | refine keeps_cfgEdge ?_ | refine keeps_restoreEdge ?_ | refine keeps_foldl ?_ ?_ | intro _ _ _ | split)

theorem keeps_takeUnits {a0 : State} {n} {t : State} {us} (h0 : Keeps s0 a0) (e : takeUnits a0 n = some (t, us)) : Keeps s0 t := by
  unfold takeUnits at e
  split at e
  · cases e
  · cases e; exact keeps_foldl (fun _ _ h => keeps_zeroUnit h) h0

theorem keeps_restoreData {a0} {a1} {a2} {a3} (h0 : Keeps s0 a0) : Keeps s0 (restoreData a0 a1 a2 a3) := by
  unfold restoreData
  with_reducible repeat' (first | assumption | refine keeps_finishMbx ?_ | refine keeps_takeUnits ?_ (by assumption) | refine keeps_setCmd ?_ | refine keeps_ite ?_ ?_ | split)

theorem keeps_cfgBody {a0} {a1} {a2} (h0 : Keeps s0 a0) : Keeps s0 (cfgBody a0 a1 a2) := by
  unfold cfgBody
  with_reducible repeat' (first | assumption | refine keeps_finishMbx ?_ | refine keeps_takeUnits ?_ (by assumption) | refine keeps_setCmd ?_ | refine keeps_ite ?_ ?_ | split)

theorem keeps_freezeBody {a0} {a1} {a2} (h0 : Keeps s0 a0) : Keeps s0 (freezeBody a0 a1 a2) := by
  unfold freezeBody
  with_reducible repeat' (first | assumption | refine keeps_finishMbx ?_ | refine keeps_setCmd ?_ | refine keeps_modView ?_ | refine keeps_ite ?_ ?_)

theorem keeps_thawBody {a0} {a1} {a2} (h0 : Keeps s0 a0) : Keeps s0 (thawBody a0 a1 a2) := by
  unfold thawBody
  with_reducible repeat' (first | assumption | refine keeps_finishMbx ?_ | refine keeps_modView ?_ | refine keeps_ite ?_ ?_)

theorem keeps_saveBody {a0} {a1} {a2} (h0 : Keeps s0 a0) : Keeps s0 (saveBody a0 a1 a2) := by
  unfold saveBody
  with_reducible repeat' (first | assumption | refine keeps_finishMbx ?_ | refine keeps_mmWriteJob ?_ | refine keeps_setCmd ?_ | refine keeps_ite ?_ ?_)

theorem keeps_resetBody {a0} {a1} {a2} (h0 : Keeps s0 a0) : Keeps s0 (resetBody a0 a1 a2) := by
  unfold resetBody
  with_reducible repeat' (first | assumption | refine keeps_finishMbx ?_ | refine keeps_setCmd ?_ | refine keeps_beginReset ?_ | refine keeps_squashView ?_ | refine keeps_ite ?_ ?_)

theorem keeps_bodyDoneAt {a0} {a1} {a2} (h0 : Keeps s0 a0) : Keeps s0 (bodyDoneAt a0 a1 a2) := by
  unfold bodyDoneAt
  with_reducible repeat' (first | assumption | refine keeps_dmaBody ?_ | refine keeps_leapBody ?_ | refine keeps_ptpBody ?_ | refine keeps_cfgBody ?_ | refine keeps_finishMbx ?_ | refine keeps_freezeBody ?_ | refine keeps_thawBody ?_ | refine keeps_saveBody ?_ | refine keeps_restoreBody ?_ | refine keeps_resetBody ?_ | refine keeps_ite ?_ ?_ | split)

theorem keeps_endingDone {a0} {a1} (h0 : Keeps s0 a0) : Keeps s0 (endingDone a0 a1) := by
  unfold endingDone
  with_reducible repeat' (first | assumption | refine keeps_finishMbx ?_ | refine keeps_ite ?_ ?_ | split)

theorem keeps_dataDoneAt {a0} {a1} {a2} {a3} (h0 : Keeps s0 a0) : Keeps s0 (dataDoneAt a0 a1 a2 a3) := by
  unfold dataDoneAt
  with_reducible repeat' (first | assumption | refine keeps_leapData ?_ | refine keeps_finishMbx ?_ | refine keeps_mmWriteJob ?_ | refine keeps_setCmd ?_ | refine keeps_restoreData ?_ | refine keeps_lateNext ?_ | refine keeps_ite ?_ ?_ | split)

theorem keeps_mbxDone {a0} {a1} {a2} {a3} (h0 : Keeps s0 a0) : Keeps s0 (mbxDone a0 a1 a2 a3) := by
  unfold mbxDone
  with_reducible repeat' (first | assumption | refine keeps_mbxSettle ?_ | refine keeps_endingDone ?_ | refine keeps_bodyDoneAt ?_ | refine keeps_finishMbx ?_ | refine keeps_dataDoneAt ?_ | refine keeps_dmaStage ?_ | refine keeps_ite ?_ ?_ | dsimp only [keeps_mk_eq] | split)

end Sys2Proof.Machine
end

