-- ==== Sys2Proof/Laws/KeepsBlock.lean ====
section
/-!
SUPPORT. Activation, memory responses, power, the boot store, the strobe and the resets keep everything that `Keeps` says.
-/
namespace Sys2Proof.Machine

variable {s0 s t : State}

theorem keeps_imgBusy {a0} (h0 : Keeps s0 a0) : Keeps s0 (imgBusy a0) := by
  unfold imgBusy
  with_reducible repeat' (first | assumption | refine keeps_modImg ?_)

theorem keeps_stageOp {a0} {a1} (h0 : Keeps s0 a0) : Keeps s0 (stageOp a0 a1) := by
  unfold stageOp
  with_reducible repeat' (first | assumption | refine keeps_imgBusy ?_ | refine keeps_unstageModels ?_ | refine keeps_modImg ?_ | refine keeps_ite ?_ ?_)

theorem keeps_abortStaging {a0} (h0 : Keeps s0 a0) : Keeps s0 (abortStaging a0) := by
  unfold abortStaging
  with_reducible repeat' (first | assumption | refine keeps_modImg ?_ | refine keeps_ite ?_ ?_)

theorem keeps_discardStagedOp {a0} (h0 : Keeps s0 a0) : Keeps s0 (discardStagedOp a0) := by
  unfold discardStagedOp
  with_reducible repeat' (first | assumption | refine keeps_abortStaging ?_ | refine keeps_unstageModels ?_ | refine keeps_modImg ?_ | refine keeps_ite ?_ ?_ | split)

theorem keeps_settleRates {a0} (h0 : Keeps s0 a0) : Keeps s0 (settleRates a0) := by
  unfold settleRates
  with_reducible repeat' (first | assumption | refine keepsMk_of ?_ ?_ ?_ ?_ ?_ ?_ ?_ (by rfl) | rfl | refine keeps_settleBudgets ?_ | refine keeps_settleLevels ?_ | dsimp only [keeps_mk_eq])

theorem keeps_loadRegs {a0} {a1} (h0 : Keeps s0 a0) : Keeps s0 (loadRegs a0 a1) := by
  unfold loadRegs
  with_reducible repeat' (first | assumption | refine keepsMk_of ?_ ?_ ?_ ?_ ?_ ?_ ?_ (by rfl) | rfl | refine keeps_settleRates ?_ | dsimp only [keeps_mk_eq])

theorem keeps_switchTraces {a0} {a1} (h0 : Keeps s0 a0) : Keeps s0 (switchTraces a0 a1) := by
  unfold switchTraces
  with_reducible repeat' (first | assumption | refine keeps_closeBlock ?_ | refine keeps_ite ?_ ?_ | dsimp only [keeps_mk_eq] | refine keeps_foldl ?_ ?_ | intro _ _ _)

theorem keeps_cutRates {a0} (h0 : Keeps s0 a0) : Keeps s0 (cutRates a0) := by
  unfold cutRates
  with_reducible repeat' (first | assumption | refine keeps_modVrd ?_ | refine keeps_settleLevels ?_ | refine keeps_ite ?_ ?_)

theorem keeps_freshPort {a0} {a1} {a2} {a3} (h0 : Keeps s0 a0) : Keeps s0 (freshPort a0 a1 a2 a3) := by
  unfold freshPort
  with_reducible repeat' (first | assumption | refine keeps_ptpDropped ?_ | refine keeps_modPort ?_)

theorem keeps_switchPort {a0} {a1} {a2} {a3} {a4} (h4 : Keeps s0 a4) : Keeps s0 (switchPort a0 a1 a2 a3 a4) := by
  unfold switchPort
  with_reducible repeat' (first | assumption | refine keeps_freshPort ?_ | refine keeps_ite ?_ ?_ | split)

theorem keeps_heartActive {a0} (h0 : Keeps s0 a0) : Keeps s0 (heartActive a0) := by
  unfold heartActive
  with_reducible repeat' (first | assumption | refine keeps_modPort ?_ | split)

theorem keeps_powerRole {a0} {a1} (h0 : Keeps s0 a0) : Keeps s0 (powerRole a0 a1) := by
  unfold powerRole
  cases unitUsed a1 18
  · exact keeps_of h0 rfl rfl (Nat.le_refl _) fun ⟨b1, b2, b3, b4, b5, _, b7⟩ => ⟨b1, b2, b3, b4, b5, Nat.zero_le _, b7⟩
  · exact keepsMk_of h0 rfl rfl rfl rfl rfl rfl rfl

theorem keeps_switchTo {a0} {a1} {a2} (h0 : Keeps s0 a0) : Keeps s0 (switchTo a0 a1 a2) := by
  unfold switchTo
  with_reducible repeat' (first | assumption | refine keeps_carryAll ?_ | refine keeps_loadRegs ?_ | refine keeps_switchTraces ?_ | refine keeps_cutRates ?_ | refine keeps_modImg ?_ | refine keeps_capRemap ?_ | refine keeps_switchFeats ?_ | refine keeps_modVrd ?_ | refine keeps_switchPort ?_ | refine keeps_modIlk ?_ | refine keeps_heartActive ?_ | refine keeps_modSeal ?_ | refine keeps_fillLevel ?_ | refine keeps_viewsActivate ?_ | refine keeps_activateModels ?_ | refine keeps_powerRole ?_ | refine keeps_ite ?_ ?_ | refine keeps_foldl ?_ ?_ | intro _ _ _)

theorem keeps_anchorGrid {a0} {a1} (h0 : Keeps s0 a0) : Keeps s0 (anchorGrid a0 a1) := by
  unfold anchorGrid
  with_reducible repeat' (first | assumption | refine keeps_modGrid ?_)

theorem keeps_moveAnchor {a0} {a1} {a2} (h0 : Keeps s0 a0) : Keeps s0 (moveAnchor a0 a1 a2) := by
  unfold moveAnchor
  with_reducible repeat' (first | assumption | refine keeps_modGrid ?_ | refine keeps_ite ?_ ?_)

theorem keeps_clearEpochs {a0} (h0 : Keeps s0 a0) : Keeps s0 (clearEpochs a0) := by
  unfold clearEpochs
  with_reducible repeat' (first | assumption | refine keeps_modCap ?_ | refine keeps_modRed ?_ | refine keeps_modSeal ?_ | refine keeps_modFeat ?_ | refine keeps_modVrd ?_)

theorem keeps_immediateGrid {a0} {a1} (h0 : Keeps s0 a0) : Keeps s0 (immediateGrid a0 a1) := by
  unfold immediateGrid
  with_reducible repeat' (first | assumption | refine keeps_anchorGrid ?_ | refine keeps_moveAnchor ?_ | refine keeps_clearEpochs ?_ | refine keeps_ite ?_ ?_ | split)

theorem keeps_takeGenNow {a0} {a1} (h0 : Keeps s0 a0) : Keeps s0 (takeGenNow a0 a1) := by
  unfold takeGenNow
  with_reducible repeat' (first | assumption | refine keeps_modImg ?_)

theorem keeps_switchNow {a0} {a1} (h0 : Keeps s0 a0) : Keeps s0 (switchNow a0 a1) := by
  unfold switchNow
  with_reducible repeat' (first | assumption | refine keepsMk_of ?_ ?_ ?_ ?_ ?_ ?_ ?_ (by rfl) | rfl | refine keeps_modImg ?_ | refine keeps_switchTo ?_ | refine keeps_immediateGrid ?_ | refine keeps_takeGenNow ?_ | refine keeps_modBoot ?_ (by rfl) | refine keeps_ite ?_ ?_ | dsimp only [keeps_mk_eq])

theorem keeps_scheduleLocalOp {a0} (h0 : Keeps s0 a0) : Keeps s0 (scheduleLocalOp a0) := by
  unfold scheduleLocalOp
  with_reducible repeat' (first | assumption | refine keeps_imgBusy ?_ | refine keeps_switchNow ?_ | refine keeps_takeGenNow ?_ | refine keeps_modImg ?_ | refine keeps_scheduleAt ?_ | refine keeps_ite ?_ ?_ | split)

theorem keeps_setSettings {a0} {a1} {a2} (h0 : Keeps s0 a0) : Keeps s0 (setSettings a0 a1 a2) := by
  unfold setSettings
  with_reducible repeat' (first | assumption | refine keeps_modBoot ?_ (by rfl))

theorem keeps_takeGen {a0} {a1} {a2} {a3} (h0 : Keeps s0 a0) : Keeps s0 (takeGen a0 a1 a2 a3) := by
  unfold takeGen
  with_reducible repeat' (first | assumption | refine keeps_modImg ?_)

theorem keeps_imgStatWrite {a0} {a1} (h0 : Keeps s0 a0) : Keeps s0 (imgStatWrite a0 a1) := by
  unfold imgStatWrite
  with_reducible repeat' (first | assumption | refine keeps_modImg ?_)

theorem keeps_lateMarks {a0} {a1} (h0 : Keeps s0 a0) : Keeps s0 (lateMarks a0 a1) := by
  unfold lateMarks
  with_reducible repeat' (first | assumption | refine keeps_modCap ?_ | refine keeps_modImg ?_ | refine keeps_ite ?_ ?_)

theorem keeps_adoptGen {a0} {a1} {a2} (h0 : Keeps s0 a0) : Keeps s0 (adoptGen a0 a1 a2) := by
  unfold adoptGen
  with_reducible repeat' (first | assumption | refine keeps_takeGen ?_ | refine keeps_modImg ?_ | refine keeps_lateMarks ?_ | refine keeps_fillLevel ?_ | refine keeps_foldl ?_ ?_ | intro _ _ _)

theorem keeps_imageTrial {a0} {a1} (h0 : Keeps s0 a0) : Keeps s0 (imageTrial a0 a1) := by
  unfold imageTrial
  with_reducible repeat' (first | assumption | refine keeps_modBoot ?_ (by rfl) | refine keeps_setSettings ?_ | refine keeps_ite ?_ ?_)

theorem keeps_refuseSched {a0} (h0 : Keeps s0 a0) : Keeps s0 (refuseSched a0) := by
  unfold refuseSched
  with_reducible repeat' (first | assumption | refine keeps_modImg ?_)

theorem keeps_activateAt {a0} {a1} (h0 : Keeps s0 a0) : Keeps s0 (activateAt a0 a1) := by
  unfold activateAt
  with_reducible repeat' (first | assumption | refine keeps_lateMarks ?_ | refine keeps_imageTrial ?_ | refine keeps_switchTo ?_ | refine keeps_moveAnchor ?_ | refine keeps_takeGen ?_ | refine keeps_refuseSched ?_ | refine keeps_adoptGen ?_ | refine keeps_ite ?_ ?_ | dsimp only [keeps_mk_eq] | split)

theorem keeps_dropPorts {a0} (h0 : Keeps s0 a0) : Keeps s0 (dropPorts a0) := by
  unfold dropPorts
  with_reducible repeat' (first | assumption | refine keeps_freshPort ?_ | dsimp only [keeps_mk_eq] | refine keeps_foldl ?_ ?_ | intro _ _ _)

theorem keeps_oldReleaseOp {a0} (h0 : Keeps s0 a0) : Keeps s0 (oldReleaseOp a0) := by
  unfold oldReleaseOp
  with_reducible repeat' (first | assumption | refine keeps_modImg ?_ | refine keeps_dropPorts ?_ | refine keeps_carryAll ?_ | refine keeps_carryDetsFor ?_ | refine keeps_ite ?_ ?_ | split)

theorem keeps_haltChannel {a0} {a1} {a2} (h0 : Keeps s0 a0) : Keeps s0 (haltChannel a0 a1 a2) := by
  unfold haltChannel
  with_reducible repeat' (first | assumption | refine keepsMk_of ?_ ?_ ?_ ?_ ?_ ?_ ?_ (by rfl) | rfl | refine keeps_modCap ?_ | refine keeps_ite ?_ ?_ | dsimp only [keeps_mk_eq])

theorem keeps_modJobMm {a0} {a1} {a2} (h0 : Keeps s0 a0) : Keeps s0 (modJobMm a0 a1 a2) := by
  unfold modJobMm
  with_reducible repeat' (first | assumption | refine keepsMk_of ?_ ?_ ?_ ?_ ?_ ?_ ?_ (by rfl) | rfl | dsimp only [keeps_mk_eq])

theorem keeps_mmStage {a0} {a1} {a2} {a3} {a4} (h0 : Keeps s0 a0) : Keeps s0 (mmStage a0 a1 a2 a3 a4) := by
  unfold mmStage
  with_reducible repeat' (first | assumption | refine keeps_snapStage ?_ | refine keeps_profDone ?_ | refine keeps_blockDone ?_ | refine keeps_ercChunkDone ?_ | refine keeps_ringStage ?_ | refine keeps_ptpStage ?_ | refine keeps_dlvStage ?_ | refine keeps_irqDone ?_ | refine keeps_tableDone ?_ | refine keeps_headDone ?_ | refine keeps_bodyDone ?_ | refine keeps_mbxDone ?_ | split)

theorem keeps_endJobs {a0} {a1} (h0 : Keeps s0 a0) : Keeps s0 (endJobs a0 a1) := by
  unfold endJobs
  with_reducible repeat' (first | assumption | refine keepsMk_of ?_ ?_ ?_ ?_ ?_ ?_ ?_ (by rfl) | rfl | refine keeps_mmStage ?_ | refine keeps_ite ?_ ?_ | dsimp only [keeps_mk_eq] | split)

theorem keeps_endTx {a0} {a1} {a2} {a3} (h0 : Keeps s0 a0) : Keeps s0 (endTx a0 a1 a2 a3) := by
  unfold endTx
  with_reducible repeat' (first | assumption | refine keepsMk_of ?_ ?_ ?_ ?_ ?_ ?_ ?_ (by rfl) | rfl | refine keeps_modJobMm ?_ | refine keeps_haltChannel ?_ | refine keeps_mmPump ?_ | refine keeps_pumpRuns ?_ | refine keeps_endJobs ?_ | dsimp only [keeps_mk_eq])

theorem keeps_readBeat {a0} {a1} {a2} {a3} {a4} {a5} (h0 : Keeps s0 a0) : Keeps s0 (readBeat a0 a1 a2 a3 a4 a5) := by
  unfold readBeat
  with_reducible repeat' (first | assumption | refine keepsMk_of ?_ ?_ ?_ ?_ ?_ ?_ ?_ (by rfl) | rfl | refine keeps_modJobMm ?_ | refine keeps_endTx ?_ | refine keeps_haltChannel ?_ | refine keeps_ite ?_ ?_ | dsimp only [keeps_mk_eq])

theorem keeps_readBeatOp {a0} {a1} {a2} {a3} {a4} (h0 : Keeps s0 a0) : Keeps s0 (readBeatOp a0 a1 a2 a3 a4) := by
  unfold readBeatOp
  with_reducible repeat' (first | assumption | refine keeps_readBeat ?_ | split)

theorem keeps_writeCompletionOp {a0} {a1} {a2} (h0 : Keeps s0 a0) : Keeps s0 (writeCompletionOp a0 a1 a2) := by
  unfold writeCompletionOp
  with_reducible repeat' (first | assumption | refine keeps_endTx ?_ | split)

theorem keeps_restage {a0} (h0 : Keeps s0 a0) : Keeps s0 (restage a0) := by
  unfold restage
  with_reducible repeat' (first | assumption | refine keeps_modImg ?_ | refine keeps_ite ?_ ?_)

theorem keeps_ungateAll {a0} (h0 : Keeps s0 a0) : Keeps s0 (ungateAll a0) := by
  unfold ungateAll
  with_reducible repeat' (first | assumption | refine keepsMk_of ?_ ?_ ?_ ?_ ?_ ?_ ?_ (by rfl) | rfl | dsimp only [keeps_mk_eq])

theorem keeps_enterFailSilent {a0} {a1} {a2} (h0 : Keeps s0 a0) : Keeps s0 (enterFailSilent a0 a1 a2) := by
  unfold enterFailSilent
  with_reducible repeat' (first | assumption | refine keepsMk_of ?_ ?_ ?_ ?_ ?_ ?_ ?_ (by rfl) | rfl | refine keeps_discardCmds ?_ | refine keeps_abortStaging ?_ | refine keeps_raiseFault ?_ | refine keeps_ite ?_ ?_ | dsimp only [keeps_mk_eq])

theorem keeps_failSilentWrite {a0} {a1} (h0 : Keeps s0 a0) : Keeps s0 (failSilentWrite a0 a1) := by
  unfold failSilentWrite
  with_reducible repeat' (first | assumption | refine keeps_enterFailSilent ?_ | refine keeps_ite ?_ ?_)

theorem keeps_powerWrite {a0} {a1} {a2} (h0 : Keeps s0 a0) : Keeps s0 (powerWrite a0 a1 a2) := by
  unfold powerWrite
  with_reducible repeat' (first | assumption | refine keeps_modPow ?_ | refine keeps_touch ?_ | refine keeps_ite ?_ ?_)

theorem keeps_selfTestOp {a0} {a1} (h0 : Keeps s0 a0) : Keeps s0 (selfTestOp a0 a1) := by
  unfold selfTestOp
  with_reducible repeat' (first | assumption | refine keepsMk_of ?_ ?_ ?_ ?_ ?_ ?_ ?_ (by rfl) | rfl | refine keeps_selfTestWords ?_ | refine keeps_enterFailSilent ?_ | refine keeps_ite ?_ ?_ | dsimp only [keeps_mk_eq] | split)

theorem keeps_ackLateOp {a0} {a1} (h0 : Keeps s0 a0) : Keeps s0 (ackLateOp a0 a1) := by
  unfold ackLateOp
  with_reducible repeat' (first | assumption | refine keeps_rcInc ?_ | refine keeps_modPow ?_ | refine keeps_advanceTo ?_ | refine keeps_ite ?_ ?_ | dsimp only [keeps_mk_eq] | split)

theorem keeps_settleFlush {a0} (h0 : Keeps s0 a0) : Keeps s0 (settleFlush a0) := by
  unfold settleFlush
  with_reducible repeat' (first | assumption | refine keepsMk_of ?_ ?_ ?_ ?_ ?_ ?_ ?_ (by rfl) | rfl | dsimp only [keeps_mk_eq])

theorem keeps_pwrAck {a0} {a1} (h0 : Keeps s0 a0) : Keeps s0 (pwrAck a0 a1) := by
  unfold pwrAck
  with_reducible repeat' (first | assumption | refine keeps_modPow ?_)

theorem keeps_watchdogOp {a0} (h0 : Keeps s0 a0) : Keeps s0 (watchdogOp a0) := by
  unfold watchdogOp
  with_reducible repeat' (first | assumption | refine keeps_enterFailSilent ?_ | refine keeps_advanceTb2 ?_ | refine keeps_ite ?_ ?_)

theorem keeps_sramInitOp {a0} (h0 : Keeps s0 a0) : Keeps s0 (sramInitOp a0) := by
  unfold sramInitOp
  split
  · exact keeps_of h0 rfl rfl (Nat.le_refl _) fun ⟨b1, b2, b3, b4, b5, b6, b7⟩ => ⟨rfl, b2, b3, b4, b5, b6, b7⟩
  · exact h0

theorem keeps_warnFallOp {a0} (h0 : Keeps s0 a0) : Keeps s0 (warnFallOp a0) := by
  unfold warnFallOp
  with_reducible repeat' (first | assumption | refine keepsMk_of ?_ ?_ ?_ ?_ ?_ ?_ ?_ (by rfl) | rfl | refine keeps_mmPump ?_ | refine keeps_restage ?_ | dsimp only [keeps_mk_eq])

theorem keeps_powerChunks {a0} (h0 : Keeps s0 a0) : Keeps s0 (powerChunks a0) := by
  unfold powerChunks
  with_reducible repeat' (first | assumption | refine keepsMk_of ?_ ?_ ?_ ?_ ?_ ?_ ?_ (by rfl) | rfl | dsimp only [keeps_mk_eq])

theorem keeps_flushDoneOp {a0} (h0 : Keeps s0 a0) : Keeps s0 (flushDoneOp a0) := by
  unfold flushDoneOp
  with_reducible repeat' (first | assumption | refine keeps_mmPump ?_ | refine keeps_restage ?_ | refine keeps_settleFlush ?_)

theorem keeps_wakeAheadOp {a0} (h0 : Keeps s0 a0) : Keeps s0 (wakeAheadOp a0) := by
  unfold wakeAheadOp
  with_reducible repeat' (first | assumption | refine keeps_advanceTick ?_ | refine keeps_touch ?_ | refine keeps_ite ?_ ?_ | dsimp only [keeps_mk_eq] | refine keeps_foldl ?_ ?_ | intro _ _ _)

theorem keeps_warnOp {a0} (h0 : Keeps s0 a0) : Keeps s0 (warnOp a0) := by
  unfold warnOp
  with_reducible repeat' (first | assumption | refine keepsMk_of ?_ ?_ ?_ ?_ ?_ ?_ ?_ (by rfl) | rfl | refine keeps_touch ?_ | refine keeps_abortStaging ?_ | refine keeps_warnCmds ?_ | refine keeps_drainAll ?_ | refine keeps_modBootS ?_ (fun _ => ?_) | refine keeps_modIlk ?_ | refine keeps_ercFlush ?_ | refine keeps_powerChunks ?_ | refine keeps_ite ?_ ?_ | dsimp only [keeps_mk_eq] | refine keeps_foldl ?_ ?_ | intro _ _ _ | split)

theorem keeps_retainOp {a0} {a1} (h0 : Keeps s0 a0) : Keeps s0 (retainOp a0 a1) := by
  unfold retainOp
  with_reducible repeat' (first | assumption | refine keeps_modPow ?_ | refine keeps_advanceSlow ?_ | refine keeps_ite ?_ ?_)

theorem keeps_gateOp {a0} {a1} (h0 : Keeps s0 a0) : Keeps s0 (gateOp a0 a1) := by
  unfold gateOp
  with_reducible repeat' (first | assumption | refine keeps_modPow ?_ | refine keeps_ite ?_ ?_)

theorem keeps_abandonTrial {a0} (h0 : Keeps s0 a0) : Keeps s0 (abandonTrial a0) := by
  unfold abandonTrial
  with_reducible repeat' (first | assumption | refine keeps_setSettings ?_ | refine keeps_ite ?_ ?_)

theorem keeps_startFirmware {a0} {a1} (h0 : Keeps s0 a0) : Keeps s0 (startFirmware a0 a1) := by
  unfold startFirmware
  with_reducible repeat' (first | assumption | refine keepsMk_of ?_ ?_ ?_ ?_ ?_ ?_ ?_ (by rfl) | rfl | refine keeps_setSettings ?_ | refine keeps_modBoot ?_ (by rfl) | refine keeps_restage ?_ | dsimp only [keeps_mk_eq])

theorem keeps_fwSwitchAt {a0} {a1} (h0 : Keeps s0 a0) : Keeps s0 (fwSwitchAt a0 a1) := by
  unfold fwSwitchAt
  with_reducible repeat' (first | assumption | refine keeps_modBoot ?_ (by rfl) | refine keeps_setSettings ?_ | refine keeps_ite ?_ ?_)

theorem keeps_packAtEdge {a0} (h0 : Keeps s0 a0) : Keeps s0 (packAtEdge a0) := by
  unfold packAtEdge
  with_reducible repeat' (first | assumption | refine keeps_modBoot ?_ (by rfl) | refine keeps_setSettings ?_ | refine keeps_ite ?_ ?_ | dsimp only [keeps_mk_eq] | split)

theorem keeps_bootStatWrite {a0} {a1} (h0 : Keeps s0 a0) : Keeps s0 (bootStatWrite a0 a1) := by
  unfold bootStatWrite
  with_reducible repeat' (first | assumption | refine keeps_modBoot ?_ (by rfl))

theorem keeps_fwSchedWrite {a0} {a1} (h0 : Keeps s0 a0) : Keeps s0 (fwSchedWrite a0 a1) := by
  unfold fwSchedWrite
  with_reducible repeat' (first | assumption | refine keeps_modBoot ?_ (by rfl) | refine keeps_ite ?_ ?_)

theorem keeps_bstCommand {a0} {a1} (h0 : Keeps s0 a0) : Keeps s0 (bstCommand a0 a1) := by
  unfold bstCommand
  with_reducible repeat' (first | assumption | refine keeps_modBoot ?_ (by rfl) | refine keeps_ite ?_ ?_)

theorem keeps_packWrite {a0} {a1} (h0 : Keeps s0 a0) : Keeps s0 (packWrite a0 a1) := by
  unfold packWrite
  with_reducible repeat' (first | assumption | refine keeps_modBoot ?_ (by rfl))

theorem keeps_confirmTrial {a0} (h0 : Keeps s0 a0) : Keeps s0 (confirmTrial a0) := by
  unfold confirmTrial
  with_reducible repeat' (first | assumption | refine keeps_setSettings ?_ | refine keeps_ite ?_ ?_)

theorem keeps_confirmWrite {a0} {a1} (h0 : Keeps s0 a0) : Keeps s0 (confirmWrite a0 a1) := by
  unfold confirmWrite
  with_reducible repeat' (first | assumption | refine keeps_confirmTrial ?_ | refine keeps_abandonTrial ?_ | refine keeps_ite ?_ ?_)

theorem keeps_stagedOk {a0} {a1} {a2} (h0 : Keeps s0 a0) : Keeps s0 (stagedOk a0 a1 a2) := by
  unfold stagedOk
  with_reducible repeat' (first | assumption | refine keeps_stageModels ?_ | refine keeps_modImg ?_)

theorem keeps_stagedBad {a0} {a1} (h0 : Keeps s0 a0) : Keeps s0 (stagedBad a0 a1) := by
  unfold stagedBad
  with_reducible repeat' (first | assumption | refine keeps_modImg ?_)

theorem keeps_startupStaged {a0} {a1} {a2} {a3} (h0 : Keeps s0 a0) : Keeps s0 (startupStaged a0 a1 a2 a3) := by
  unfold startupStaged
  with_reducible repeat' (first | assumption | refine keepsMk_of ?_ ?_ ?_ ?_ ?_ ?_ ?_ (by rfl) | rfl | refine keeps_stagedOk ?_ | refine keeps_switchNow ?_ | refine keeps_modBoot ?_ (by rfl) | refine keeps_stagedBad ?_ | refine keeps_setSettings ?_ | refine keeps_modImg ?_ | refine keeps_ite ?_ ?_ | dsimp only [keeps_mk_eq] | split)

theorem keeps_modPhase {a0} {a1} (h0 : Keeps s0 a0) : Keeps s0 (modPhase a0 a1) := by
  unfold modPhase
  with_reducible repeat' (first | assumption | refine keeps_modBoot ?_ (by rfl))

theorem keeps_takeSettings {a0} {a1} {a2} (h0 : Keeps s0 a0) : Keeps s0 (takeSettings a0 a1 a2) := by
  unfold takeSettings
  with_reducible repeat' (first | assumption | refine keeps_modBoot ?_ (by rfl) | refine keeps_rwSet ?_)

theorem keeps_readSettings {a0} (h0 : Keeps s0 a0) : Keeps s0 (readSettings a0).1 := by
  unfold readSettings
  with_reducible repeat' (first | assumption | refine keeps_takeSettings ?_ | refine keeps_modBoot ?_ (by rfl) | dsimp only [keeps_mk_eq] | split)

theorem keeps_settingsReadOp {a0} (h0 : Keeps s0 a0) : Keeps s0 (settingsReadOp a0) := by
  unfold settingsReadOp
  with_reducible repeat' (first | assumption | refine keeps_readSettings ?_ | refine keeps_modPhase ?_ | refine keeps_setSettings ?_ | refine keeps_ite ?_ ?_)

theorem keeps_bufReadOp {a0} {a1} {a2} (h0 : Keeps s0 a0) : Keeps s0 (bufReadOp a0 a1 a2) := by
  unfold bufReadOp
  with_reducible repeat' (first | assumption | refine keeps_modBoot ?_ (by rfl) | refine keeps_sramRead ?_ | refine keeps_ite ?_ ?_)

theorem keeps_bufReadCmd {a0} {a1} {a2} (h0 : Keeps s0 a0) : Keeps s0 (bufReadCmd a0 a1 a2) := by
  unfold bufReadCmd
  with_reducible repeat' (first | assumption | refine keeps_bufReadOp ?_ | refine keeps_awaitUnit ?_ ?_ | refine keeps_ite ?_ ?_ | intro _ _)

theorem keeps_stagingEnd {a0} {a1} (h0 : Keeps s0 a0) : Keeps s0 (stagingEnd a0 a1) := by
  unfold stagingEnd
  with_reducible repeat' (first | assumption | refine keeps_startupStaged ?_ | refine keeps_abortStaging ?_ | refine keeps_stagedOk ?_ | refine keeps_stagedBad ?_ | refine keeps_ite ?_ ?_ | dsimp only [keeps_mk_eq] | split)

theorem keeps_selfConfirmOp {a0} (h0 : Keeps s0 a0) : Keeps s0 (selfConfirmOp a0) := by
  unfold selfConfirmOp
  with_reducible repeat' (first | assumption | refine keeps_confirmTrial ?_ | refine keeps_ite ?_ ?_)

theorem keeps_trialExpiryOp {a0} (h0 : Keeps s0 a0) : Keeps s0 (trialExpiryOp a0) := by
  unfold trialExpiryOp
  with_reducible repeat' (first | assumption | refine keeps_abandonTrial ?_ | refine keeps_advanceSlow ?_ | refine keeps_ite ?_ ?_)

theorem keeps_bstDone {a0} {a1} {a2} (h0 : Keeps s0 a0) : Keeps s0 (bstDone a0 a1 a2) := by
  unfold bstDone
  with_reducible repeat' (first | assumption | refine keeps_modBoot ?_ (by rfl))

theorem keeps_stagingDoneOp {a0} (h0 : Keeps s0 a0) : Keeps s0 (stagingDoneOp a0) := by
  unfold stagingDoneOp
  with_reducible repeat' (first | assumption | refine keeps_stagingEnd ?_)

theorem keeps_programSettings {a0} {a1} (h0 : Keeps s0 a0) : Keeps s0 (programSettings a0 a1) := by
  unfold programSettings
  with_reducible repeat' (first | assumption | refine keeps_modBootS ?_ (fun _ => ?_) | dsimp only [keeps_mk_eq] | refine wf_memWrite ?_ | refine wf_memClear ?_)

theorem keeps_checkSlot {a0} {a1} (h0 : Keeps s0 a0) : Keeps s0 (checkSlot a0 a1) := by
  unfold checkSlot
  with_reducible repeat' (first | assumption | refine keeps_bstDone ?_ | dsimp only [keeps_mk_eq] | split)

theorem keeps_bufWriteOp {a0} {a1} {a2} (h0 : Keeps s0 a0) : Keeps s0 (bufWriteOp a0 a1 a2) := by
  unfold bufWriteOp
  with_reducible repeat' (first | assumption | refine keeps_modBoot ?_ (by rfl) | refine keeps_sramWrite ?_ | refine keeps_ite ?_ ?_)

theorem keeps_setErasedOp {a0} (h0 : Keeps s0 a0) : Keeps s0 (setErasedOp a0) := by
  unfold setErasedOp
  with_reducible repeat' (first | assumption | refine keepsMk_of ?_ ?_ ?_ ?_ ?_ ?_ ?_ (by rfl) | rfl | refine keeps_modBootS ?_ (fun _ => ?_) | refine keeps_ite ?_ ?_ | dsimp only [keeps_mk_eq] | refine wf_memClear ?_)

theorem keeps_firmwareLoadOp {a0} (h0 : Keeps s0 a0) : Keeps s0 (firmwareLoadOp a0) := by
  unfold firmwareLoadOp
  with_reducible repeat' (first | assumption | refine keepsMk_of ?_ ?_ ?_ ?_ ?_ ?_ ?_ (by rfl) | rfl | refine keeps_modBoot ?_ (by rfl) | refine keeps_startFirmware ?_ | refine keeps_setSettings ?_ | refine keeps_ite ?_ ?_ | dsimp only [keeps_mk_eq])

theorem keeps_bufWriteCmd {a0} {a1} {a2} (h0 : Keeps s0 a0) : Keeps s0 (bufWriteCmd a0 a1 a2) := by
  unfold bufWriteCmd
  with_reducible repeat' (first | assumption | refine keeps_bufWriteOp ?_ | refine keeps_awaitUnit ?_ ?_ | refine keeps_ite ?_ ?_ | intro _ _)

theorem keeps_flashFails {a0} {a1} {a2} (h0 : Keeps s0 a0) : Keeps s0 (flashFails a0 a1 a2) := by
  unfold flashFails
  with_reducible repeat' (first | assumption | refine keepsMk_of ?_ ?_ ?_ ?_ ?_ ?_ ?_ (by rfl) | rfl | refine keeps_bstDone ?_ | refine keeps_modBootS ?_ (fun _ => ?_) | dsimp only [keeps_mk_eq] | refine wf_memWrite ?_)

theorem keeps_bstDoneNow {a0} {a1} (h0 : Keeps s0 a0) : Keeps s0 (bstDoneNow a0 a1) := by
  unfold bstDoneNow
  with_reducible repeat' (first | assumption | refine keeps_checkSlot ?_ | refine keeps_bstDone ?_ | refine keeps_programSettings ?_ | refine keeps_modBoot ?_ (by rfl) | refine keeps_modBootS ?_ (fun _ => ?_) | refine keeps_flashFails ?_ | refine keeps_sramRead ?_ | refine keeps_sramWrite ?_ | refine keeps_ite ?_ ?_ | dsimp only [keeps_mk_eq] | split | refine wf_memClear ?_ | refine wf_flashProgram ?_)

theorem keeps_bstDoneOp {a0} {a1} (h0 : Keeps s0 a0) : Keeps s0 (bstDoneOp a0 a1) := by
  unfold bstDoneOp
  with_reducible repeat' (first | assumption | refine keeps_whenOn ?_ ?_ | refine keeps_bstDoneNow ?_ | refine keeps_ite ?_ ?_ | intro _ _)

theorem keeps_endEpoch {a0} {a1} (h0 : Keeps s0 a0) : Keeps s0 (endEpoch a0 a1) := by
  unfold endEpoch
  with_reducible repeat' (first | assumption | refine keeps_capFreeze ?_ | refine keeps_vrdStrobe ?_ | refine keeps_ercEpoch ?_ | refine keeps_queueSample ?_ | refine keeps_ite ?_ ?_)

theorem keeps_edgeWaiters {a0} {a1} (h0 : Keeps s0 a0) : Keeps s0 (edgeWaiters a0 a1) := by
  unfold edgeWaiters
  with_reducible repeat' (first | assumption | refine keeps_fwSwitchAt ?_ | refine keeps_packAtEdge ?_ | refine keeps_viewsEdge ?_ | refine keeps_switchCopies ?_ | refine keeps_mirStrobe ?_)

theorem keeps_applyAdjust {a0} (h0 : Keeps s0 a0) : Keeps s0 (applyAdjust a0) := by
  unfold applyAdjust
  with_reducible repeat' (first | assumption | refine keepsMk_of ?_ ?_ ?_ ?_ ?_ ?_ ?_ (by rfl) | rfl | refine keeps_settleRates ?_ | refine keeps_cutRates ?_ | refine keeps_ite ?_ ?_ | dsimp only [keeps_mk_eq])

theorem keeps_exhaustGrid {a0} (h0 : Keeps s0 a0) : Keeps s0 (exhaustGrid a0) := by
  unfold exhaustGrid
  with_reducible repeat' (first | assumption | refine keeps_ungateAll ?_ | refine keeps_endEpoch ?_ | refine keeps_edgeWaiters ?_ | refine keeps_applyAdjust ?_ | refine keeps_raiseFault ?_ | refine keeps_modGrid ?_ | refine keeps_ite ?_ ?_)

theorem keeps_noteFirstEpoch {a0} {a1} (h0 : Keeps s0 a0) : Keeps s0 (noteFirstEpoch a0 a1) := by
  unfold noteFirstEpoch
  with_reducible repeat' (first | assumption | refine keeps_modImg ?_ | refine keeps_ite ?_ ?_)

theorem keeps_enterEpoch {a0} {a1} {a2} (h0 : Keeps s0 a0) : Keeps s0 (enterEpoch a0 a1 a2) := by
  unfold enterEpoch
  with_reducible repeat' (first | assumption | refine keeps_modGrid ?_)

theorem keeps_firstStrobe {a0} (h0 : Keeps s0 a0) : Keeps s0 (firstStrobe a0) := by
  unfold firstStrobe
  with_reducible repeat' (first | assumption | refine keepsMk_of ?_ ?_ ?_ ?_ ?_ ?_ ?_ (by rfl) | rfl | refine keeps_capBegin ?_ | dsimp only [keeps_mk_eq])

theorem keeps_activationOutcome {a0} {a1} (h0 : Keeps s0 a0) : Keeps s0 (activationOutcome a0 a1) := by
  unfold activationOutcome
  with_reducible repeat' (first | assumption | refine keeps_broadcastOutcomeOp ?_ | refine keeps_ite ?_ ?_)

theorem keeps_serveEpoch {a0} (h0 : Keeps s0 a0) : Keeps s0 (serveEpoch a0) := by
  unfold serveEpoch
  with_reducible repeat' (first | assumption | refine keepsMk_of ?_ ?_ ?_ ?_ ?_ ?_ ?_ (by rfl) | rfl | dsimp only [keeps_mk_eq])

theorem keeps_countEpochs {a0} (h0 : Keeps s0 a0) : Keeps s0 (countEpochs a0) := by
  unfold countEpochs
  with_reducible repeat' (first | assumption | refine keeps_modIlk ?_)

theorem keeps_beginEpoch {a0} {a1} (h0 : Keeps s0 a0) : Keeps s0 (beginEpoch a0 a1) := by
  unfold beginEpoch
  with_reducible repeat' (first | assumption | refine keeps_enterEpoch ?_ | refine keeps_ercPump ?_ | refine keeps_ercStart ?_ | refine keeps_ungateAll ?_ | refine keeps_endEpoch ?_ | refine keeps_firstStrobe ?_ | refine keeps_noteFirstEpoch ?_ | refine keeps_applyAdjust ?_ | refine keeps_activateAt ?_ | refine keeps_activationOutcome ?_ | refine keeps_edgeWaiters ?_ | refine keeps_openWork ?_ | refine keeps_selStrobe ?_ | refine keeps_pumpRuns ?_ | refine keeps_serveEpoch ?_ | refine keeps_countEpochs ?_ | refine keeps_ite ?_ ?_)

theorem keeps_strobe {a0} {a1} (h0 : Keeps s0 a0) : Keeps s0 (strobe a0 a1) := by
  unfold strobe
  with_reducible repeat' (first | assumption | refine keeps_exhaustGrid ?_ | refine keeps_beginEpoch ?_ | refine keeps_ite ?_ ?_)

theorem keeps_epochStrobeOp {a0} (h0 : Keeps s0 a0) : Keeps s0 (epochStrobeOp a0) := by
  unfold epochStrobeOp
  with_reducible repeat' (first | assumption | refine keeps_strobe ?_ | refine keeps_advanceTick ?_ | refine keeps_ite ?_ ?_ | dsimp only [keeps_mk_eq] | split)

theorem keeps_stepGrid {a0} (h0 : Keeps s0 a0) : Keeps s0 (stepGrid a0) := by
  unfold stepGrid
  with_reducible repeat' (first | assumption | refine keeps_modGrid ?_ | refine keeps_strobe ?_ | refine keeps_ite ?_ ?_)

theorem keeps_rateApplyTop {a0} {a1} (h0 : Keeps s0 a0) : Keeps s0 (rateApplyTop a0 a1) := by
  unfold rateApplyTop
  with_reducible repeat' (first | assumption | refine keeps_rateApplyOp ?_ | refine keeps_settleLevels ?_ | refine keeps_advanceTo ?_ | refine keeps_ite ?_ ?_ | split)

theorem keeps_stepApplyOp {a0} {a1} (h0 : Keeps s0 a0) : Keeps s0 (stepApplyOp a0 a1) := by
  unfold stepApplyOp
  with_reducible repeat' (first | assumption | refine keeps_stepBase ?_ | refine keeps_stepGrid ?_ | refine keeps_stepOutputs ?_ | refine keeps_ite ?_ ?_ | dsimp only [keeps_mk_eq] | split)

theorem keeps_crossStep {a0} {a1} (h1 : Keeps s0 a1) : Keeps s0 (crossStep a0 a1) := by
  unfold crossStep
  with_reducible repeat' (first | assumption | refine keeps_modGrid ?_ | refine keeps_ite ?_ ?_)

theorem keeps_ringScanDoneOp {a0} (h0 : Keeps s0 a0) : Keeps s0 (ringScanDoneOp a0) := by
  unfold ringScanDoneOp
  with_reducible repeat' (first | assumption | refine keepsMk_of ?_ ?_ ?_ ?_ ?_ ?_ ?_ (by rfl) | rfl | refine keeps_ite ?_ ?_ | dsimp only [keeps_mk_eq])

theorem keeps_warmTime {a0} (h0 : Keeps s0 a0) : Keeps s0 (warmTime a0) := by
  unfold warmTime
  with_reducible repeat' (first | assumption | refine keeps_crossStep ?_ | refine keeps_warmBase ?_ | refine keeps_foldl ?_ ?_ | intro _ _ _)

theorem warmCounts_small {a b : State} {p : RcReg × Nat} (h : p ∈ warmCounts a b) : p.2 < 2 ^ 32 := by
  unfold warmCounts at h
  obtain ⟨q, -, rfl⟩ := List.mem_map.mp (List.mem_filter.mp h).1
  simp only [add32, satAdd]; omega

theorem keeps_warmState {a0} {a1} (h0 : Keeps s0 a0) : Keeps s0 (warmState a0 a1) :=
  have ⟨_, _, _, kd⟩ : Keeps a0 (discardCmds a0) := keeps_discardCmds keeps_refl
  have ⟨_, _, _, kt⟩ : Keeps a0 (warmTime (discardCmds a0)) := keeps_warmTime (keeps_discardCmds keeps_refl)
  keeps_of h0 rfl rfl (Nat.zero_le _) fun b =>
    ⟨(kd b).1, b.2.1, Nat.zero_le _, (kt b).2.2.2.1, Nat.zero_le _, Nat.zero_le _, fun _ hp => warmCounts_small hp⟩

theorem keeps_warmRestart {a0} {a1} (h0 : Keeps s0 a0) : Keeps s0 (warmRestart a0 a1) := by
  unfold warmRestart
  with_reducible repeat' (first | assumption | refine keeps_warmState ?_ | refine keeps_lateNext ?_ | dsimp only [keeps_mk_eq] | refine keeps_foldl ?_ ?_ | intro _ _ _)

theorem keeps_settingsWriteDoneOp {a0} (h0 : Keeps s0 a0) : Keeps s0 (settingsWriteDoneOp a0) := by
  unfold settingsWriteDoneOp
  with_reducible repeat' (first | assumption | refine keeps_modBoot ?_ (by rfl) | refine keeps_programSettings ?_ | refine keeps_warmRestart ?_ | dsimp only [keeps_mk_eq] | split)

theorem keeps_warmResetOp {a0} (h0 : Keeps s0 a0) : Keeps s0 (warmResetOp a0) := by
  unfold warmResetOp
  with_reducible repeat' (first | assumption | refine keeps_warmRestart ?_ | refine keeps_modBoot ?_ (by rfl))

theorem keeps_keyCaptureOp {a0} {a1} (h0 : Keeps s0 a0) : Keeps s0 (keyCaptureOp a0 a1) := by
  unfold keyCaptureOp
  with_reducible repeat' (first | assumption | refine keepsMk_of ?_ ?_ ?_ ?_ ?_ ?_ ?_ (by rfl) | rfl | refine keeps_ite ?_ ?_ | dsimp only [keeps_mk_eq])

theorem keeps_powerOnResetOp {a0} {a1} (h0 : Keeps s0 a0) : Keeps s0 (powerOnResetOp a0 a1) :=
  keeps_of h0 rfl rfl (Nat.zero_le _) fun ⟨_, b2, _⟩ =>
    ⟨rfl, b2, Nat.zero_le _, Nat.zero_le _, Nat.zero_le _, Nat.zero_le _, fun _ hp => nomatch hp⟩

end Sys2Proof.Machine
end

