-- ==== Sys2Proof/Laws/KeepsAccess.lean ====
section
/-!
SUPPORT. Register accesses keep everything that `Keeps` says; with its acknowledge, an access keeps what `Stays` says.
-/
namespace Sys2Proof.Machine

variable {s0 s t : State}

theorem keeps_imgWrite {a0} {a1} (h0 : Keeps s0 a0) : Keeps s0 (imgWrite a0 a1) := by
  unfold imgWrite
  with_reducible repeat' (first | assumption | refine keeps_stageOp ?_ | refine keeps_leapSettle ?_ | refine keeps_discardStagedOp ?_ | refine keeps_pumpRuns ?_ | refine keeps_scheduleLocalOp ?_ | split)

theorem keeps_readEffect {a0} {a1} {a2} (h0 : Keeps s0 a0) : Keeps s0 (readEffect a0 a1 a2) := by
  unfold readEffect
  split
  · exact keeps_bufMark (keeps_rcClear h0)
  · exact keeps_rcClear h0
  · exact keeps_rcClear h0
  · exact keeps_modBase h0
  · exact keeps_of h0 rfl rfl (Nat.le_refl _) fun ⟨b1, b2, b3, b4, b5, b6, b7⟩ => ⟨b1, b2, b3, by simp; omega, b5, b6, b7⟩
  · exact keeps_modLeap h0
  · exact keeps_eventPop h0
  · exact keeps_lockRead h0
  · exact h0

theorem keeps_freezeWrite {a0} {a1} (h0 : Keeps s0 a0) : Keeps s0 (freezeWrite a0 a1) := by
  unfold freezeWrite
  with_reducible repeat' (first | assumption | refine keepsMk_of ?_ ?_ ?_ ?_ ?_ ?_ ?_ (by rfl) | rfl | refine keeps_ercPump ?_ | refine keeps_ercUnfreeze ?_ | refine keeps_ite ?_ ?_ | dsimp only [keeps_mk_eq])

theorem keeps_putRw {a0} {a1} {a2} (h0 : Keeps s0 a0) : Keeps s0 (putRw a0 a1 a2) := by
  unfold putRw
  with_reducible repeat' (first | assumption | refine keepsMk_of ?_ ?_ ?_ ?_ ?_ ?_ ?_ (by rfl) | rfl | refine keeps_rwSet ?_ | refine keeps_cutRates ?_ | refine keeps_settleRates ?_ | refine keeps_ite ?_ ?_ | dsimp only [keeps_mk_eq])

theorem keeps_detHWrite {a0} {a1} {a2} (h0 : Keeps s0 a0) : Keeps s0 (detHWrite a0 a1 a2) := by
  unfold detHWrite
  with_reducible repeat' (first | assumption | refine keeps_modVrd ?_ | refine keeps_putRw ?_ | refine keeps_ite ?_ ?_ | dsimp only [keeps_mk_eq] | split)

theorem keeps_deny {a0} {a1} {a2} (h0 : Keeps s0 a0) : Keeps s0 (deny a0 a1 a2) := by
  unfold deny
  with_reducible repeat' (first | assumption | refine keeps_modHost ?_ | refine keeps_rcInc ?_)

theorem keeps_plainWrite {a0} {a1} {a2} (h0 : Keeps s0 a0) : Keeps s0 (plainWrite a0 a1 a2) := by
  unfold plainWrite
  with_reducible repeat' (first | assumption | refine keeps_putRw ?_ | refine keeps_ite ?_ ?_)

theorem keeps_adjReject {a0} (h0 : Keeps s0 a0) : Keeps s0 (adjReject a0) := by
  unfold adjReject
  with_reducible repeat' (first | assumption | refine keeps_modImg ?_)

theorem keeps_mirWrite {a0} {a1} (h0 : Keeps s0 a0) : Keeps s0 (mirWrite a0 a1) := by
  unfold mirWrite
  with_reducible repeat' (first | assumption | refine keeps_adjReject ?_ | refine keeps_rwSet ?_ | refine keeps_ite ?_ ?_)

theorem keeps_windowWrite {a0} {a1} {a2} {a3} (h0 : Keeps s0 a0) : Keeps s0 (windowWrite a0 a1 a2 a3) := by
  unfold windowWrite
  with_reducible repeat' (first | assumption | refine keeps_plainWrite ?_ | refine keeps_rcInc ?_ | refine keeps_ite ?_ ?_)

theorem keeps_mailWrite {a0} {a1} {a2} {a3} {a4} (h0 : Keeps s0 a0) : Keeps s0 (mailWrite a0 a1 a2 a3 a4) := by
  unfold mailWrite
  with_reducible repeat' (first | assumption | refine keeps_plainWrite ?_ | refine keeps_rcInc ?_ | refine keeps_ite ?_ ?_)

theorem keeps_rwWriteReg {a0} {a1} {a2} {a3} (h0 : Keeps s0 a0) : Keeps s0 (rwWriteReg a0 a1 a2 a3) := by
  unfold rwWriteReg
  with_reducible repeat' (first | assumption | refine keeps_plainWrite ?_ | refine keeps_mirWrite ?_ | refine keeps_windowWrite ?_ | refine keeps_mailWrite ?_ | refine keeps_mmPump ?_ | refine keeps_sealNow ?_ | refine keeps_ite ?_ ?_ | split)

theorem keeps_capWrite {a0} {a1} (h0 : Keeps s0 a0) : Keeps s0 (capWrite a0 a1) := by
  unfold capWrite
  with_reducible repeat' (first | assumption | refine keeps_adjReject ?_ | refine keeps_putRw ?_ | refine keeps_ite ?_ ?_)

theorem keeps_svcWrite {a0} {a1} {a2} (h0 : Keeps s0 a0) : Keeps s0 (svcWrite a0 a1 a2) := by
  unfold svcWrite
  with_reducible repeat' (first | assumption | refine keepsMk_of ?_ ?_ ?_ ?_ ?_ ?_ ?_ (by rfl) | rfl | refine keeps_bootStatWrite ?_ | refine keeps_fwSchedWrite ?_ | refine keeps_bstCommand ?_ | refine keeps_modBoot ?_ (by rfl) | refine keeps_packWrite ?_ | refine keeps_powerWrite ?_ | dsimp only [keeps_mk_eq] | split)

theorem keeps_ctlWrite {a0} {a1} {a2} {a3} (h0 : Keeps s0 a0) : Keeps s0 (ctlWrite a0 a1 a2 a3) := by
  unfold ctlWrite
  with_reducible repeat' (first | assumption | refine keeps_rearmOp ?_ | refine keeps_refuseBase ?_ | refine keeps_stepGoOp ?_ | refine keeps_ite ?_ ?_)

theorem keeps_timeWrite {a0} {a1} {a2} {a3} (h0 : Keeps s0 a0) : Keeps s0 (timeWrite a0 a1 a2 a3) := by
  unfold timeWrite
  with_reducible repeat' (first | assumption | refine keeps_rateHigh ?_ | refine keeps_rateLow ?_ | refine keeps_ctlWrite ?_ | refine keeps_modBase ?_ | refine keeps_modGrid ?_ | refine keeps_modStrobe ?_ | refine keeps_strobeArmOp ?_ | refine keeps_ite ?_ ?_ | dsimp only [keeps_mk_eq] | split)

theorem keeps_profHaltClear {a0} (h0 : Keeps s0 a0) : Keeps s0 (profHaltClear a0) := by
  unfold profHaltClear
  with_reducible repeat' (first | assumption | refine keepsMk_of ?_ ?_ ?_ ?_ ?_ ?_ ?_ (by rfl) | rfl | refine keeps_profCopy ?_ | refine keeps_modCap ?_ | dsimp only [keeps_mk_eq])

theorem keeps_laneWrite {a0} {a1} (h0 : Keeps s0 a0) : Keeps s0 (laneWrite a0 a1) := by
  unfold laneWrite
  with_reducible repeat' (first | assumption | refine keeps_pumpRuns ?_ | refine keeps_leapSettle ?_ | refine keeps_laneEnable ?_)

theorem keeps_hotWrite {a0} {a1} (h0 : Keeps s0 a0) : Keeps s0 (hotWrite a0 a1) := by
  unfold hotWrite
  with_reducible repeat' (first | assumption | refine keeps_leapSettle ?_ | refine keeps_loadCmd ?_ | refine keeps_pumpRuns ?_ | refine keeps_evictCmd ?_ | refine keeps_pinCmd ?_ | refine keeps_repairCmd ?_ | dsimp only [keeps_mk_eq] | split)

theorem keeps_capWriteReg {a0} {a1} {a2} (h0 : Keeps s0 a0) : Keeps s0 (capWriteReg a0 a1 a2) := by
  unfold capWriteReg
  with_reducible repeat' (first | assumption | refine keeps_profHaltClear ?_ | refine keeps_ringClear ?_ | refine keeps_stepMarkOp ?_ | refine keeps_laneWrite ?_ | refine keeps_modLeap ?_ | refine keeps_leapInjectOp ?_ | refine keeps_plainWrite ?_ | refine keeps_hotWrite ?_ | refine keeps_ite ?_ ?_ | split)

theorem keeps_muteWrite {a0} {a1} (h0 : Keeps s0 a0) : Keeps s0 (muteWrite a0 a1) := by
  unfold muteWrite
  with_reducible repeat' (first | assumption | refine keeps_putRw ?_ | refine keeps_ite ?_ ?_)

theorem keeps_linkWrite {a0} {a1} {a2} (h0 : Keeps s0 a0) : Keeps s0 (linkWrite a0 a1 a2) := by
  unfold linkWrite
  with_reducible repeat' (first | assumption | refine keeps_modVrd ?_ | refine keeps_muteWrite ?_ | refine keeps_detHWrite ?_ | refine keeps_modIlk ?_ | refine keeps_startIssueOp ?_ | refine keeps_modResult ?_ | refine keeps_ite ?_ ?_ | dsimp only [keeps_mk_eq] | split)

theorem keeps_trcSizeWrite {a0} {a1} {a2} (h0 : Keeps s0 a0) : Keeps s0 (trcSizeWrite a0 a1 a2) := by
  unfold trcSizeWrite
  with_reducible repeat' (first | assumption | refine keeps_sizeWrite ?_ | refine keeps_plainWrite ?_)

theorem keeps_armBuf {a0} {a1} (h0 : Keeps s0 a0) : Keeps s0 (armBuf a0 a1) := by
  unfold armBuf
  with_reducible repeat' (first | assumption | refine keepsMk_of ?_ ?_ ?_ ?_ ?_ ?_ ?_ (by rfl) | rfl | refine keeps_ite ?_ ?_ | dsimp only [keeps_mk_eq])

theorem keeps_chainWrite {a0} {a1} (h0 : Keeps s0 a0) : Keeps s0 (chainWrite a0 a1) := by
  unfold chainWrite
  with_reducible repeat' (first | assumption | refine keeps_armBuf ?_ | refine keeps_ercPump ?_ | refine keeps_ite ?_ ?_)

theorem keeps_memWrite1 {a0} {a1} {a2} (h0 : Keeps s0 a0) : Keeps s0 (memWrite1 a0 a1 a2) := by
  unfold memWrite1
  with_reducible repeat' (first | assumption | refine keepsMk_of ?_ ?_ ?_ ?_ ?_ ?_ ?_ (by rfl) | rfl | refine keeps_trcSizeWrite ?_ | refine keeps_trcHaltClear ?_ | refine keeps_freezeWrite ?_ | refine keeps_ercFlush ?_ | refine keeps_chainWrite ?_ | refine keeps_erasureEndOp ?_ | refine keeps_injWrite ?_ | refine keeps_ite ?_ ?_ | dsimp only [keeps_mk_eq] | split)

theorem keeps_faultPop {a0} (h0 : Keeps s0 a0) : Keeps s0 (faultPop a0) :=
  keeps_of h0 rfl rfl (Nat.le_refl _) fun ⟨b1, b2, b3, b4, b5, b6, b7⟩ => ⟨b1, b2, b3, b4, by simp [faultPop]; omega, b6, b7⟩

theorem keeps_hostWrite {a0} {a1} {a2} {a3} (h0 : Keeps s0 a0) : Keeps s0 (hostWrite a0 a1 a2 a3) := by
  unfold hostWrite
  with_reducible repeat' (first | assumption | refine keeps_imgWrite ?_ | refine keeps_imgStatWrite ?_ | refine keeps_failSilentWrite ?_ | refine keeps_faultPop ?_ | refine keeps_modMir ?_ | refine keeps_confirmWrite ?_ | refine keeps_modPnl ?_ (by rfl) | refine keeps_askDeparture ?_ | refine keeps_askCancel ?_ | refine keeps_releaseWrite ?_ | refine keeps_ringDoorbell ?_ | refine keeps_modMbx ?_ | refine keeps_dmaHaltClearOp ?_ | refine keeps_ite ?_ ?_ | split)

theorem keeps_writeReg {a0} {a1} {a2} {a3} {a4} (h0 : Keeps s0 a0) : Keeps s0 (writeReg a0 a1 a2 a3 a4) := by
  unfold writeReg
  with_reducible repeat' (first | assumption | refine keeps_rwWriteReg ?_ | refine keeps_capWrite ?_ | refine keeps_svcWrite ?_ | refine keeps_timeWrite ?_ | refine keeps_capWriteReg ?_ | refine keeps_linkWrite ?_ | refine keeps_memWrite1 ?_ | refine keeps_hostWrite ?_ | split)

theorem keeps_writeAt {a0} {a1} {a2} {a3} {a4} {a5} (h0 : Keeps s0 a0) : Keeps s0 (writeAt a0 a1 a2 a3 a4 a5) := by
  unfold writeAt
  with_reducible repeat' (first | assumption | refine keeps_rcInc ?_ | refine keeps_touch ?_ | refine keeps_modBus ?_ (by rfl) | refine keeps_writeReg ?_ | refine keeps_ite ?_ ?_ | dsimp only [keeps_mk_eq] | split)

theorem keeps_latch {a0} {a1} {a2} (h1 : Keeps s0 a1) : Keeps s0 (latch a0 a1 a2) := by
  unfold latch
  with_reducible repeat' (first | assumption | refine keeps_modBus ?_ (by rfl))

theorem keeps_readReg {a0} {a1} {a2} (h0 : Keeps s0 a0) : Keeps s0 (readReg a0 a1 a2).1 := by
  unfold readReg
  with_reducible repeat' (first | assumption | refine keeps_modBus ?_ (by rfl) | refine keeps_readEffect ?_ | refine keeps_latch ?_ | refine keeps_ite ?_ ?_ | refine keeps_foldl ?_ ?_ | intro _ _ _ | split)

theorem keeps_readAt {a0} {a1} {a2} {a3} (h0 : Keeps s0 a0) : Keeps s0 (readAt a0 a1 a2 a3).1 := by
  unfold readAt
  with_reducible repeat' (first | assumption | refine keeps_readReg ?_ | split)

theorem keeps_accessAt {a0} {a1} {a2} {a3} (h0 : Keeps s0 a0) : Keeps s0 (accessAt a0 a1 a2 a3).1 := by
  unfold accessAt
  with_reducible repeat' (first | assumption | refine keeps_deny ?_ | refine keeps_rcInc ?_ | refine keeps_writeAt ?_ | refine keeps_readAt ?_ | refine keeps_ite ?_ ?_ | dsimp only [keeps_mk_eq] | split)

theorem keeps_svcPuts {a0} {a1} {a2} (h1 : Keeps s0 a1) : Keeps s0 (svcPuts a0 a1 a2) := by
  induction a0 generalizing a1 a2 with
  | nil =>
    unfold svcPuts
    with_reducible assumption
  | cons e r ih =>
    unfold svcPuts
    with_reducible repeat' (first | assumption | refine ih ?_ | refine keeps_accessAt ?_)

theorem keeps_svcWriteOp {a0} {a1} {a2} (h0 : Keeps s0 a0) : Keeps s0 (svcWriteOp a0 a1 a2) := by
  unfold svcWriteOp
  with_reducible repeat' (first | assumption | refine keeps_svcPuts ?_)

theorem keeps_acknowledgeOp {a0} (h0 : Keeps s0 a0) : Keeps s0 (acknowledgeOp a0) := by
  unfold acknowledgeOp
  split
  · rename_i e
    exact keeps_of h0 rfl rfl (by simp [modBus, e]) fun ⟨b1, b2, b3, b4, b5, b6, b7⟩ => ⟨b1, b2, by simp [modBus, e] at b3 ⊢; omega, b4, b5, b6, b7⟩
  · exact h0

theorem keeps_svcWords {a0} {a1} {a2} (h1 : Keeps s0 a1) : Keeps s0 (svcWords a0 a1 a2).1 := by
  induction a0 generalizing a1 a2 with
  | zero =>
    unfold svcWords
    with_reducible assumption
  | succ n ih =>
    unfold svcWords
    with_reducible repeat' (first | assumption | refine ih ?_ | refine keeps_accessAt ?_)

theorem keeps_svcUnknownOp {a0} {a1} (h0 : Keeps s0 a0) : Keeps s0 (svcUnknownOp a0 a1) := by
  unfold svcUnknownOp
  with_reducible repeat' (first | assumption | refine keeps_modBoot ?_ (by rfl) | refine keeps_ite ?_ ?_)

/-- What every command leaves: the integration, the queue, and the invariant. -/
def Stays (s t : State) : Prop := t.integ = s.integ ∧ t.pending = s.pending ∧ (BlockInv s → BlockInv t)

theorem stays_of (h : Keeps s0 s) : Stays s0 s := ⟨h.1, h.2.1, h.2.2.2⟩

theorem stays_accessOp {a0} {a1} {a2} {a3} (h0 : Keeps s0 a0) : Stays s0 (accessOp a0 a1 a2 a3) := by
  have k : Keeps a0 (accessAt a0 a1 a2 a3).1 := keeps_accessAt keeps_refl
  have kk := keeps_trans h0 k
  unfold accessOp
  generalize accessAt a0 a1 a2 a3 = r at k kk
  obtain ⟨rq, v⟩ := a1
  cases rq with
  | reg n =>
    dsimp only
    split
    · exact stays_of h0
    · rename_i hq
      refine ⟨kk.1, kk.2.1, fun b => ?_⟩
      obtain ⟨b1, b2, b3, b4, b5, b6, b7⟩ := kk.2.2.2 b
      have hl := k.2.2.1
      simp only [portFull, decide_eq_true_eq] at hq
      simp only [ackReg, modBus]
      exact ⟨b1, b2, by simp; omega, b4, b5, b6, b7⟩
  | svc =>
    dsimp only [ackReg]
    split
    · exact stays_of kk
    · exact stays_of (keeps_modBoot kk rfl)

theorem keeps_svcReadOp {a0} {a1} {a2} (h0 : Keeps s0 a0) : Keeps s0 (svcReadOp a0 a1 a2) := by
  unfold svcReadOp
  with_reducible repeat' (first | assumption | refine keeps_svcWords ?_ | refine keeps_modBoot ?_ (by rfl))

theorem keeps_svcStatusOp {a0} (h0 : Keeps s0 a0) : Keeps s0 (svcStatusOp a0) := by
  unfold svcStatusOp
  with_reducible repeat' (first | assumption | refine keeps_modBoot ?_ (by rfl))

theorem keeps_settled {a0} {a1} (h0 : Keeps s0 a0) (h1 : Keeps s0 a1) : Keeps s0 (settled a0 a1) := by
  unfold settled
  with_reducible repeat' (first | assumption | refine keeps_pumpRuns ?_ | refine keeps_leapSettle ?_)

theorem stays_getAt {a0} {a1} {a2} (h0 : Keeps s0 a0) : Stays s0 (getAt a0 a1 a2) := stays_accessOp h0

theorem stays_putAt {a0} {a1} {a2} {a3} (h0 : Keeps s0 a0) : Stays s0 (putAt a0 a1 a2 a3) := stays_accessOp h0

theorem stays_bellUnknown {a0} {a1} {a2} {a3} (h0 : Keeps s0 a0) : Stays s0 (bellUnknown a0 a1 a2 a3) := by
  unfold bellUnknown; split
  · exact stays_putAt h0
  · exact stays_of h0

theorem stays_bellOp {a0} {a1} {a2} {a3} {a4} (h0 : Keeps s0 a0) : Stays s0 (bellOp a0 a1 a2 a3 a4) := by
  unfold bellOp; split
  · exact stays_putAt h0
  · exact stays_of h0

theorem keeps_wakeWork {a0} {a1} (h0 : Keeps s0 a0) : Keeps s0 (wakeWork a0 a1) := by
  unfold wakeWork
  with_reducible repeat' (first | assumption | refine keeps_loadPump ?_ | refine keeps_ercWake ?_ | refine keeps_ercPump ?_ | refine keeps_mbxSettle ?_ | refine keeps_ite ?_ ?_)

theorem keeps_serveCommand {a0} {a1} (h0 : Keeps s0 a0) : Keeps s0 (serveCommand a0 a1) := by
  unfold serveCommand
  with_reducible repeat' (first | assumption | refine keeps_bufWriteOp ?_ | refine keeps_bufReadOp ?_ | refine keeps_verdictReceiveOp ?_ | refine keeps_proposeReceive ?_ | refine keeps_ballotReceiveOp ?_ | refine keeps_startReceiveOp ?_ | refine keeps_activateReceiveOp ?_ | refine keeps_ackReceiveOp ?_ | refine keeps_mirrorReceiveOp ?_ | refine keeps_syncReqReceiveOp ?_ | refine keeps_syncDataReceiveOp ?_ | refine keeps_departRequestOp ?_ | refine keeps_departGrantOp ?_ | refine keeps_departSafeOp ?_ | refine keeps_departCancelOp ?_ | refine keeps_departCancelledOp ?_ | split)

theorem keeps_serveHeld {a0} {a1} (h0 : Keeps s0 a0) : Keeps s0 (serveHeld a0 a1) := by
  unfold serveHeld
  with_reducible repeat' (first | assumption | refine keeps_writeReg ?_ | refine keeps_serveCommand ?_ | split)

theorem keeps_powerAckOp {a0} {a1} (h0 : Keeps s0 a0) : Keeps s0 (powerAckOp a0 a1) := by
  unfold powerAckOp
  with_reducible repeat' (first | assumption | refine keeps_pwrAck ?_ | refine keeps_wakeWork ?_ | refine keeps_serveHeld ?_ | refine keeps_modBus ?_ (by rfl) | refine keeps_ite ?_ ?_ | refine keeps_foldl ?_ ?_ | intro _ _ _)

theorem keeps_struckRecord {a0} {a1} (h0 : Keeps s0 a0) : Keeps s0 (struckRecord a0 a1) := by
  unfold struckRecord
  with_reducible repeat' (first | assumption | refine keepsMk_of ?_ ?_ ?_ ?_ ?_ ?_ ?_ (by rfl) | rfl | refine keeps_rcInc ?_ | refine keeps_ite ?_ ?_ | dsimp only [keeps_mk_eq])

theorem keeps_struckProfile {a0} {a1} {a2} (h0 : Keeps s0 a0) : Keeps s0 (struckProfile a0 a1 a2) := by
  unfold struckProfile
  with_reducible repeat' (first | assumption | refine keeps_profShut ?_ | refine keeps_modCap ?_ | refine keeps_modCmp ?_ | refine keeps_ite ?_ ?_)

theorem keeps_struckWarden {a0} {a1} (h0 : Keeps s0 a0) : Keeps s0 (struckWarden a0 a1) := by
  unfold struckWarden
  with_reducible repeat' (first | assumption | refine keeps_enterFailSilent ?_)

theorem keeps_struckMbx {a0} {a1} (h0 : Keeps s0 a0) : Keeps s0 (struckMbx a0 a1) := by
  unfold struckMbx
  with_reducible repeat' (first | assumption | refine keeps_endCmd ?_ | split)

theorem keeps_struckTree {a0} {a1} {a2} (h0 : Keeps s0 a0) : Keeps s0 (struckTree a0 a1 a2) := by
  unfold struckTree
  with_reducible repeat' (first | assumption | refine keeps_memoryFault ?_ | refine keeps_ite ?_ ?_ | split)

theorem keeps_struckFetch {a0} {a1} (h0 : Keeps s0 a0) : Keeps s0 (struckFetch a0 a1) := by
  unfold struckFetch
  with_reducible repeat' (first | assumption | refine keepsMk_of ?_ ?_ ?_ ?_ ?_ ?_ ?_ (by rfl) | rfl | refine keeps_enterFailSilent ?_ | refine keeps_ite ?_ ?_ | dsimp only [keeps_mk_eq])

theorem keeps_struckFrozen {a0} {a1} (h0 : Keeps s0 a0) : Keeps s0 (struckFrozen a0 a1) := by
  unfold struckFrozen
  with_reducible repeat' (first | assumption | refine keeps_modCap ?_)

theorem keeps_struckHead {a0} {a1} (h0 : Keeps s0 a0) : Keeps s0 (struckHead a0 a1) := by
  unfold struckHead
  with_reducible repeat' (first | assumption | refine keeps_discardJobs ?_ | refine keeps_evictModel ?_ | refine keeps_loadPump ?_ | refine keeps_shadowLoad ?_ | refine keeps_ite ?_ ?_ | dsimp only [keeps_mk_eq] | split)

theorem keeps_struckTrace {a0} {a1} {a2} (h0 : Keeps s0 a0) : Keeps s0 (struckTrace a0 a1 a2) := by
  unfold struckTrace
  with_reducible repeat' (first | assumption | refine keeps_bufferFreed ?_ | refine keeps_loseMarks ?_ | refine keeps_loseEvents ?_ | refine keeps_modCore ?_ | refine keeps_modCmp ?_ | refine keeps_ite ?_ ?_ | dsimp only [keeps_mk_eq] | split)

theorem keeps_struckOp {a0} {a1} (h0 : Keeps s0 a0) : Keeps s0 (struckOp a0 a1) := by
  unfold struckOp
  with_reducible repeat' (first | assumption | refine keeps_struckFetch ?_ | refine keeps_stagingEnd ?_ | refine keeps_modVrd ?_ | refine keeps_modLeap ?_ | refine keeps_struckWarden ?_ | refine keeps_modCap ?_ | refine keeps_struckFrozen ?_ | refine keeps_modRed ?_ | refine keeps_modIlk ?_ | refine keeps_struckTree ?_ | refine keeps_struckHead ?_ | refine keeps_struckProfile ?_ | refine keeps_struckTrace ?_ | refine keeps_struckRecord ?_ | refine keeps_struckMbx ?_ | refine keeps_ite ?_ ?_ | split)

theorem keeps_chunkAge {a0} (h0 : Keeps s0 a0) : Keeps s0 (chunkAge a0) := by
  unfold chunkAge
  with_reducible repeat' (first | assumption | refine keepsMk_of ?_ ?_ ?_ ?_ ?_ ?_ ?_ (by rfl) | rfl | refine keeps_ercPump ?_ | refine keeps_ercForm ?_ | refine keeps_ite ?_ ?_ | dsimp only [keeps_mk_eq] | split)

theorem keeps_ageDrain {a0} {a1} (h0 : Keeps s0 a0) : Keeps s0 (ageDrain a0 a1) := by
  unfold ageDrain
  with_reducible repeat' (first | assumption | refine keeps_drainEnt ?_ | refine keeps_advanceCore ?_ | split)

theorem keeps_tickOp {a0} (h0 : Keeps s0 a0) : Keeps s0 (tickOp a0) := by
  unfold tickOp
  with_reducible repeat' (first | assumption | refine keeps_mmPump ?_ | refine keeps_modTime ?_ (by rfl))

end Sys2Proof.Machine
end

