-- ==== Sys2Proof/Machine/Draw.lean ====
section
/-!
DEFINITION. What each unit draws in each power state (R685), scaled to the node class and core clock (R686). Nothing in the block reads these
figures; they are a function of its state.
-/
namespace Sys2Proof.Machine

/-- The table of R685 by unit code: NEWT-S ON, GATED, RET, then SPIRE-L, in µW; 0 for a state the unit never enters. -/
def drawTable (u : Nat) : List Nat :=
  match u with
  | 1 => [45000, 1000, 0, 60000, 4000, 0]
  | 2 => [20000, 1500, 40, 150000, 8000, 500]
  | 3 => [120000, 8000, 250, 2400000, 110000, 12000]
  | 4 => [15000, 1500, 40, 900000, 25000, 1500]
  | 5 => [8000, 800, 20, 250000, 6000, 400]
  | 6 => [12000, 800, 30, 300000, 8000, 500]
  | 7 => [10000, 500, 0, 1190000, 30000, 0]
  | 8 => [3000, 900, 0, 40000, 6000, 0]
  | 9 => [25000, 1200, 30, 120000, 6000, 400]
  | 10 => [6000, 500, 20, 60000, 4000, 300]
  | 11 => [18000, 600, 10, 180000, 5000, 300]
  | 12 => [40000, 14000, 550, 1300000, 180000, 22000]
  | 13 => [12000, 600, 20, 250000, 8000, 500]
  | 14 => [15000, 2200, 80, 150000, 12000, 1000]
  | 15 => [2000, 200, 0, 40000, 3000, 0]
  | 16 => [3000, 400, 10, 60000, 4000, 300]
  | 17 => [4000, 300, 0, 20000, 3000, 0]
  | 18 => [0, 0, 0, 30000, 1000, 100]
  | _ => []

/-- A figure of R685 in µW: column 0 ON, 1 GATED, 2 RET. -/
def drawRef (g : Integ) (u k : Nat) : Nat := (drawTable u).getD (Config.byClass g 0 3 + k) 0

/-- Dk and Lk of R686, in hundredths. -/
def dynFactor (n : NodeClass) : Nat :=
  match n with
  | .n3 => 100
  | .n6 => 180
  | .n12 => 340

def leakFactor (n : NodeClass) : Nat :=
  match n with
  | .n3 => 100
  | .n6 => 55
  | .n12 => 30

/-- The class of the table's figures and its clock in MHz (R685). -/
def refNode (g : Integ) : NodeClass := if Config.isSpireL g then .n6 else .n3
def refMHz (g : Integ) : Nat := Config.byClass g 1200 1000

/-- What a unit draws in nW at the integration's node class and core clock, rounded down; OFF draws under 10 µW, counted as 0. -/
def unitDraw (g : Integ) (u : Nat) (st : PState) : Nat :=
  let leak (k : Nat) : Nat := drawRef g u k * 1000 * leakFactor g.node / leakFactor (refNode g)
  match st with
  | .off => 0
  | .ret => leak 2
  | .gated => leak 1
  | .on => leak 1 + (drawRef g u 0 - drawRef g u 1) * 1000 * g.coreMHz * dynFactor g.node / (refMHz g * dynFactor (refNode g))

/-- What the block draws in nW: the sum over its units (R685). -/
def blockDraw (s : State) : Nat := sumOf ((List.range 18).map (fun i => unitDraw s.integ (i + 1) (powOf s (i + 1)).st))

end Sys2Proof.Machine
end

