-- ==== Sys2Proof/Tests/Slice0.lean ====
section
/-!
SUPPORT. The model's own tests: well-formedness refuses what it should, the manual's worked examples, and for every hypothesis of every statement a
concrete state and operands that meet it.
-/
set_option linter.unusedVariables false
set_option Elab.async false
open Sys2Proof Sys2Proof.Machine
namespace Sys2Proof.Tests

/-- Start-up over, every unit on. -/
def awake (s : State) : State :=
  { s with rst := { s.rst with step := 6 }, pow := s.pow.map (fun p => { p with st := .on, req := true }) }

/-- A NEWT-S and a SPIRE-L after start-up. -/
def up : State := awake State.reset
def upS : State := awake (State.initial Config.spireDefault ⟨0, 0, 0⟩ [])

/-- A requester of the register port, in view 0. -/
def acc : Access := ⟨.reg 1, 0⟩

/-- Sections of a smallest image, of role `r` at height `h`. -/
def node1 (h : Nat) : NodeSec := ⟨42, h, 3, 0, 10, 10, 7, 0, 0, 0⟩
def portOne (p kind peer : Nat) : PortEnt := ⟨p, kind, 9216, peer, 0, 1000, 20, 65536, 1000⟩
def detectOne (dets : List DetEnt) : DetectSec := ⟨16, false, 8, 1, 4, 10, 10, 4, 64, 1000, dets⟩
def imageOne (r h : Nat) : Image :=
  ⟨r, 7, 1, 4096, 1, 42, node1 h, none, ⟨[], []⟩, ⟨1, 0, 0, 0, 0, [], [], [], []⟩, [], ⟨[portOne 0 1 7, portOne 1 3 9, portOne 2 4 8], [⟨9, 1, false, 1, 42⟩], 0, 0⟩, [], detectOne [],
    none, none, none, none⟩

/-- `s` with image `im` in force and the grid running in epoch 5. -/
def runs (s : State) (im : Image) : State :=
  { s with
    img := { s.img with active := some im, hasAct := true, gen := im.gen }
    time := { s.time with grid := { s.time.grid with st := .running, epoch := 5, forming := true } } }

/-- A Newt, a Spire and a Dome at work. -/
def newt : State := runs up (imageOne 1 0)
def spire : State := runs upS (imageOne 2 1)
def dome : State := runs upS (imageOne 3 2)

/-- A frame that reaches a port, and port `p` of `s` changed. -/
def frameOf (ty src seg : Nat) (pl : Bytes) : Bytes :=
  frameBytes ⟨0x30, ty, 5, src, 0, ⟨0, 0⟩, 7, 8 + pl.length / 4, 0, seg, 0, pl⟩
def atPort (s : State) (p : Nat) (f : IPort → IPort) : State := { s with ilk := { s.ilk with ports := [(p, f portNone)] } }


/-! Well-formedness -/

theorem test_wf_bounds_0 : ([.powerOnReset ⟨2 ^ 64, 0, 0⟩, .powerOnReset ⟨0, 256, 0⟩, .powerOnReset ⟨0, 0, 256⟩, .keyAnchorCapture (2 ^ 384), .svcRegisterRead (2 ^ 24) 0,
    .svcRegisterWrite (2 ^ 24) [], .svcUnknownOpcode 256, .bufWrite (2 ^ 24) [], .bufRead (2 ^ 24) 0, .mmReadBeat 64 (zeros 32) false 0, .mmReadBeat 0
    (zeros 32) false 4, .mmWriteCompletion 64 0, .mmWriteCompletion 0 4, .tracePowerDownRequest 64, .tracePowerUp 64, .tracePowerAckTimeout 64,
    .rateLowWrite acc 4 0, .rateCommit acc 4 0, .rateApply 4, .stepGo acc 4, .rearm acc 4, .stepApply 4, .timeNowRead acc 4, .strobeArm acc 32] : List Instr).all (fun i => i.wf == false) = true := by decide +kernel

theorem test_wf_bounds_1 : ([.strobeFire 32, .strandDispatch 16 0, .strandDispatch 0 8, .leapScrubRead (2 ^ 18) 0, .leapScrubWriteback (2 ^ 18), .voteTimeout (2 ^ 32),
    .traceBlockAgeClose 64, .traceBlockWrite 64, .traceHaltClear acc 64, .traceRingSizeWrite acc 64 0, .bufferArm acc 2, .mergeBufferAgeDrain 32,
    .memScrubRead 32, .memScrubWriteback 32, .poisonRewrite ⟨32, .data⟩, .panelEdgeSettled 20 false, .viewResetComplete 257, .stage acc 2] : List Instr).all (fun i => i.wf == false) = true := by decide +kernel

theorem test_wf_unit : ([.pwrOnAck 0, .pwrOnAck 19, .pwrAckLate 0, .pwrAckLate 19, .unitGate 0, .unitGate 19, .unitRetain 0, .unitRetain 19, .powerRegisterWrite acc 0 0,
    .powerRegisterWrite acc 19 0] : List Instr).all (fun i => i.wf == false) = true := by decide +kernel

theorem test_wf_requester_0 : ([.powerRegisterWrite ⟨.reg 256, 0⟩ 1 0, .registerWrite ⟨.reg 256, 0⟩ 0 0, .pairLowRead ⟨.reg 256, 0⟩ 0, .rcRead ⟨.reg 256, 0⟩ 0, .forbiddenAccess ⟨.reg
    256, 0⟩ 0 none, .stepMark ⟨.reg 256, 0⟩ 0, .ringClear ⟨.reg 256, 0⟩ 0, .profileHaltClear ⟨.reg 256, 0⟩, .rateLowWrite ⟨.reg 256, 0⟩ 0 0, .rateCommit
    ⟨.reg 256, 0⟩ 0 0, .stepGo ⟨.reg 256, 0⟩ 0, .rearm ⟨.reg 256, 0⟩ 0, .timeNowRead ⟨.reg 256, 0⟩ 0, .captureFifoPop ⟨.reg 256, 0⟩, .strobeArm ⟨.reg 256,
    0⟩ 0, .laneEnableWrite ⟨.reg 256, 0⟩ 0, .leapInject ⟨.reg 256, 0⟩ 0, .load ⟨.reg 256, 0⟩, .evict ⟨.reg 256, 0⟩, .pin ⟨.reg 256, 0⟩, .unpin ⟨.reg 256,
    0⟩, .repair ⟨.reg 256, 0⟩, .startIssue ⟨.reg 256, 0⟩, .detectorThresholdCommit ⟨.reg 256, 0⟩ 0] : List Instr).all (fun i => i.wf == false) = true := by decide +kernel

theorem test_wf_requester_1 : ([.traceHaltClear ⟨.reg 256, 0⟩ 0, .traceRingSizeWrite ⟨.reg 256, 0⟩ 0 0, .recorderWindowSelect ⟨.reg 256, 0⟩ 0, .recorderFreeze ⟨.reg 256, 0⟩,
    .recorderRelease ⟨.reg 256, 0⟩, .recorderFlush ⟨.reg 256, 0⟩, .bufferArm ⟨.reg 256, 0⟩ 0, .erasureEnd ⟨.reg 256, 0⟩, .injectionArm ⟨.reg 256, 0⟩ 0,
    .faultPop ⟨.reg 256, 0⟩, .failSilentCommand ⟨.reg 256, 0⟩ 0, .panelRequest ⟨.reg 256, 0⟩, .panelCancel ⟨.reg 256, 0⟩, .panelEventPop ⟨.reg 256, 0⟩,
    .mailboxLockRead ⟨.reg 256, 0⟩ 0, .mailboxRelease ⟨.reg 256, 0⟩ 0, .mailboxForceRelease ⟨.reg 256, 0⟩ 0, .nop ⟨.reg 256, 0⟩ 0 0, .dma ⟨.reg 256, 0⟩ 0
    0, .leapRun ⟨.reg 256, 0⟩ 0 0, .ptpTx ⟨.reg 256, 0⟩ 0 0, .viewCfg ⟨.reg 256, 0⟩ 0 0, .viewFreeze ⟨.reg 256, 0⟩ 0 0, .viewThaw ⟨.reg 256, 0⟩ 0 0] : List Instr).all (fun i => i.wf == false) = true := by decide +kernel

theorem test_wf_requester_2 : ([.viewSave ⟨.reg 256, 0⟩ 0 0, .viewRestore ⟨.reg 256, 0⟩ 0 0, .viewReset ⟨.reg 256, 0⟩ 0 0, .dmaHaltClear ⟨.reg 256, 0⟩, .stage ⟨.reg 256, 0⟩ 0,
    .discardStaged ⟨.reg 256, 0⟩, .scheduleLocal ⟨.reg 256, 0⟩, .erase ⟨.reg 256, 0⟩, .program ⟨.reg 256, 0⟩, .read ⟨.reg 256, 0⟩, .check ⟨.reg 256, 0⟩,
    .saveFlash ⟨.reg 256, 0⟩, .firmwareSwitchArm ⟨.reg 256, 0⟩ 0, .trialConfirm ⟨.reg 256, 0⟩, .trialReject ⟨.reg 256, 0⟩, .packSelect ⟨.reg 256, 0⟩ 0,
    .doorbellUnknownOpcode ⟨.reg 256, 0⟩ 0 0] : List Instr).all (fun i => i.wf == false) = true := by decide +kernel

theorem test_wf_view_0 : ([.powerRegisterWrite ⟨.reg 1, 512⟩ 1 0, .registerWrite ⟨.reg 1, 512⟩ 0 0, .pairLowRead ⟨.reg 1, 512⟩ 0, .rcRead ⟨.reg 1, 512⟩ 0, .forbiddenAccess ⟨.reg
    1, 512⟩ 0 none, .stepMark ⟨.reg 1, 512⟩ 0, .ringClear ⟨.reg 1, 512⟩ 0, .profileHaltClear ⟨.reg 1, 512⟩, .rateLowWrite ⟨.reg 1, 512⟩ 0 0, .rateCommit
    ⟨.reg 1, 512⟩ 0 0, .stepGo ⟨.reg 1, 512⟩ 0, .rearm ⟨.reg 1, 512⟩ 0, .timeNowRead ⟨.reg 1, 512⟩ 0, .captureFifoPop ⟨.reg 1, 512⟩, .strobeArm ⟨.reg 1,
    512⟩ 0, .laneEnableWrite ⟨.reg 1, 512⟩ 0, .leapInject ⟨.reg 1, 512⟩ 0, .load ⟨.reg 1, 512⟩, .evict ⟨.reg 1, 512⟩, .pin ⟨.reg 1, 512⟩, .unpin ⟨.reg 1,
    512⟩, .repair ⟨.reg 1, 512⟩, .startIssue ⟨.reg 1, 512⟩, .detectorThresholdCommit ⟨.reg 1, 512⟩ 0] : List Instr).all (fun i => i.wf == false) = true := by decide +kernel

theorem test_wf_view_1 : ([.traceHaltClear ⟨.reg 1, 512⟩ 0, .traceRingSizeWrite ⟨.reg 1, 512⟩ 0 0, .recorderWindowSelect ⟨.reg 1, 512⟩ 0, .recorderFreeze ⟨.reg 1, 512⟩,
    .recorderRelease ⟨.reg 1, 512⟩, .recorderFlush ⟨.reg 1, 512⟩, .bufferArm ⟨.reg 1, 512⟩ 0, .erasureEnd ⟨.reg 1, 512⟩, .injectionArm ⟨.reg 1, 512⟩ 0,
    .faultPop ⟨.reg 1, 512⟩, .failSilentCommand ⟨.reg 1, 512⟩ 0, .panelRequest ⟨.reg 1, 512⟩, .panelCancel ⟨.reg 1, 512⟩, .panelEventPop ⟨.reg 1, 512⟩,
    .mailboxLockRead ⟨.reg 1, 512⟩ 0, .mailboxRelease ⟨.reg 1, 512⟩ 0, .mailboxForceRelease ⟨.reg 1, 512⟩ 0, .nop ⟨.reg 1, 512⟩ 0 0, .dma ⟨.reg 1, 512⟩ 0
    0, .leapRun ⟨.reg 1, 512⟩ 0 0, .ptpTx ⟨.reg 1, 512⟩ 0 0, .viewCfg ⟨.reg 1, 512⟩ 0 0, .viewFreeze ⟨.reg 1, 512⟩ 0 0, .viewThaw ⟨.reg 1, 512⟩ 0 0] : List Instr).all (fun i => i.wf == false) = true := by decide +kernel

theorem test_wf_view_2 : ([.viewSave ⟨.reg 1, 512⟩ 0 0, .viewRestore ⟨.reg 1, 512⟩ 0 0, .viewReset ⟨.reg 1, 512⟩ 0 0, .dmaHaltClear ⟨.reg 1, 512⟩, .stage ⟨.reg 1, 512⟩ 0,
    .discardStaged ⟨.reg 1, 512⟩, .scheduleLocal ⟨.reg 1, 512⟩, .erase ⟨.reg 1, 512⟩, .program ⟨.reg 1, 512⟩, .read ⟨.reg 1, 512⟩, .check ⟨.reg 1, 512⟩,
    .saveFlash ⟨.reg 1, 512⟩, .firmwareSwitchArm ⟨.reg 1, 512⟩ 0, .trialConfirm ⟨.reg 1, 512⟩, .trialReject ⟨.reg 1, 512⟩, .packSelect ⟨.reg 1, 512⟩ 0,
    .doorbellUnknownOpcode ⟨.reg 1, 512⟩ 0 0] : List Instr).all (fun i => i.wf == false) = true := by decide +kernel

theorem test_wf_off : ([.registerWrite acc 2 0, .registerWrite acc (2 ^ 20) 0, .pairLowRead acc 2, .pairLowRead acc (2 ^ 20), .rcRead acc 2, .rcRead acc (2 ^ 20),
    .forbiddenAccess acc 2 none, .forbiddenAccess acc (2 ^ 20) none] : List Instr).all (fun i => i.wf == false) = true := by decide +kernel

theorem test_wf_frame : ([.svcRegisterWrite 0 [0], .bufWrite 0 [0], .mmReadBeat 0 [] false 0, .recordSegmentReceive 0 [0], .heartbeatReceive 0 [0], .resendReqReceive 0 [0],
    .startReceive 0 [0], .ackReceive 0 [0], .activateReceive 0 [0], .verdictReceive 0 [0], .voteProposeReceive 0 [0], .ballotReceive 0 [0], .ptpReceive 0
    [0], .departRequestReceive 0 [0], .departGrantReceive 0 [0], .departSafeReceive 0 [0], .departCancelReceive 0 [0], .departCancelledReceive 0 [0],
    .receivedFrameDrop 0 false [0]] : List Instr).all (fun i => i.wf == false) = true := by decide +kernel

theorem test_wf_slots_0 : ([.counterIncrement (List.replicate 17 ⟨0, 0, false⟩), .counterIncrement [⟨4096, 0, false⟩], .counterIncrement [⟨0, 65536, false⟩], .engineEvent
    (List.replicate 9 ⟨0, 0, 0, false, 0, 0⟩), .engineEvent [⟨512, 0, 0, false, 0, 0⟩], .engineEvent [⟨0, 4, 0, false, 0, 0⟩], .engineEvent [⟨0, 0, 16,
    false, 0, 0⟩], .engineEvent [⟨0, 0, 0, false, 65536, 0⟩], .engineEvent [⟨0, 0, 0, false, 0, 65536⟩], .ringEvent (List.replicate 5 ⟨0, false, 0⟩),
    .ringEvent [⟨65536, false, 0⟩], .ringEvent [⟨0, false, 65536⟩], .eccEvent (List.replicate 3 ⟨0, 0, 0⟩), .eccEvent [⟨64, 0, 0⟩], .eccEvent [⟨0, 4, 0⟩],
    .eccEvent [⟨0, 0, 2 ^ 31⟩], .sensorSample (List.replicate 5 ⟨0, 0⟩), .sensorSample [⟨256, 0⟩], .sensorSample [⟨0, 65536⟩], .linkErrorReport
    (List.replicate 3 ⟨0, 0⟩), .linkErrorReport [⟨256, 0⟩], .linkErrorReport [⟨0, 65536⟩], .traceEvent (List.replicate 9 ⟨0, 0, 0, 0⟩), .traceEvent [⟨64,
    0, 0, 0⟩]] : List Instr).all (fun i => i.wf == false) = true := by decide +kernel

theorem test_wf_slots_1 : ([.traceEvent [⟨0, 4, 0, 0⟩], .traceEvent [⟨0, 0, 2 ^ 64, 0⟩], .traceEvent [⟨0, 0, 0, 256⟩], .captureInputEdge [32], .leap [⟨16, 0, []⟩], .leap [⟨0, 0,
    [64]⟩]] : List Instr).all (fun i => i.wf == false) = true := by decide +kernel

theorem test_wf_port_0 : ([.recordSegmentReceive 176 [], .recordReceive 176, .downReceive 176, .frameTransmitStart 176, .heartbeatSend 176, .heartbeatReceive 176 [],
    .heartbeatMiss 176, .linkUpFall 176, .linkUpRise 176, .portClockStop 176, .gateWindowChange 176, .resendReqReceive 176 [], .downExpired 176,
    .startReceive 176 [], .ackReceive 176 [], .activateReceive 176 [], .verdictReceive 176 [], .voteProposeReceive 176 [], .ballotReceive 176 [],
    .ptpReceive 176 [], .mirrorReceive 176, .syncReqReceive 176, .syncDataReceive 176, .departRequestReceive 176 []] : List Instr).all (fun i => i.wf == false) = true := by decide +kernel

theorem test_wf_port_1 : ([.departGrantReceive 176 [], .departSafeReceive 176 [], .departCancelReceive 176 [], .departCancelledReceive 176 [], .receivedFrameDrop 176 false []] : List Instr).all (fun i => i.wf == false) = true := by decide +kernel

theorem test_wf_struck : ([.poisonRewrite ⟨0, .traceBlock 64 0⟩, .poisonRewrite ⟨0, .traceBlock 0 (2 ^ 32)⟩, .poisonRewrite ⟨0, .recorderRecord (2 ^ 32)⟩, .poisonRewrite ⟨0, .profileBuffer 0 65472⟩, .poisonRewrite ⟨0, .headBlock 64⟩, .poisonRewrite ⟨0, .treeRecord 0 4096⟩, .poisonRewrite ⟨0, .wardenData (some 32)⟩,
    .poisonRewrite ⟨0, .frozenCopy (2 ^ 48)⟩, .poisonRewrite ⟨0, .recordHeader (2 ^ 48) true⟩, .poisonRewrite ⟨0, .heldCopy true 0 (2 ^ 24)⟩] : List Instr).all (fun i => i.wf == false) = true := by decide +kernel

theorem test_wf_mailbox : ([.mailboxLockRead acc 264, .mailboxRelease acc 264, .mailboxForceRelease acc 264, .nop acc 264 0, .dma acc 264 0, .leapRun acc 264 0, .ptpTx acc 264 0,
    .viewCfg acc 264 0, .viewFreeze acc 264 0, .viewThaw acc 264 0, .viewSave acc 264 0, .viewRestore acc 264 0, .viewReset acc 264 0,
    .doorbellUnknownOpcode acc 264 0] : List Instr).all (fun i => i.wf == false) = true := by decide +kernel

theorem test_wf_accepts_0 : ([.powerOnReset ⟨0, 0, 0⟩, .warmReset, .sramInitialisation, .checkerSelfTest none, .keyAnchorCapture 0, .pwrFailWarn, .pwrFailWarnFall,
    .powerFailFlushDone, .pwrOnAck 1, .pwrAckLate 1, .unitGate 1, .unitRetain 1, .wakeAhead, .powerRegisterWrite acc 1 0, .registerWrite acc 0 0,
    .pairLowRead acc 0, .rcRead acc 0, .regAcknowledge, .forbiddenAccess acc 0 none, .svcRegisterRead 0 0, .svcRegisterWrite 0 [], .svcStatusRead,
    .svcUnknownOpcode 0, .bufWrite 0 []] : List Instr).all (fun i => i.wf == true) = true := by decide +kernel

theorem test_wf_accepts_1 : ([.bufRead 0 0, .mmReadBeat 0 (zeros 32) false 0, .mmWriteCompletion 0 0, .counterIncrement [], .engineEvent [], .ringEvent [], .eccEvent [],
    .sensorSample [], .linkErrorReport [], .traceEvent [], .tracePowerDownRequest 0, .tracePowerUp 0, .tracePowerAckTimeout 0, .stepMark acc 0, .ringClear
    acc 0, .profileBufferCopy, .profileHaltClear acc, .rateLowWrite acc 0 0, .rateCommit acc 0 0, .rateApply 0, .stepGo acc 0, .rearm acc 0, .stepApply 0,
    .timeNowRead acc 0] : List Instr).all (fun i => i.wf == true) = true := by decide +kernel

theorem test_wf_accepts_2 : ([.epochStrobe, .captureInputEdge [], .captureFifoPop acc, .strobeArm acc 0, .strobeFire 0, .ppsOutStart, .ppsOutEnd, .epochSampleTakeUp [],
    .eventSampleTakeUp [], .featureVectorComplete, .newtRecordReady [], .detectorPass, .peerGapNote, .strandDispatch 0 0, .leap [], .jobComplete 0,
    .leapScrubRead 0 0, .leapScrubWriteback 0, .laneEnableWrite acc 0, .leapInject acc 0, .load acc, .evict acc, .pin acc, .unpin acc] : List Instr).all (fun i => i.wf == true) = true := by decide +kernel

theorem test_wf_accepts_3 : ([.repair acc, .bundleFetchDone, .bundleVerifyDone, .installDone none, .recordSegmentReceive 0 [], .recordReceive 0, .seal [], .mergedRecordReady,
    .downReceive 0, .childRecordRelease, .frameTransmitStart 0, .heartbeatSend 0, .heartbeatReceive 0 [], .heartbeatMiss 0, .linkUpFall 0, .linkUpRise 0,
    .portClockStop 0, .gateWindowChange 0, .uplinkRevert, .resendReqReceive 0 [], .downMissingTimeout, .downExpired 0, .heldCopyExpiry, .startIssue acc] : List Instr).all (fun i => i.wf == true) = true := by decide +kernel

theorem test_wf_accepts_4 : ([.startReceive 0 [], .startRetry, .ackReceive 0 [], .ackDeadline, .broadcastOutcome, .activateIssue, .activateReceive 0 [], .verdictReceive 0 [],
    .voteProposeReceive 0 [], .ballotReceive 0 [], .voteTimeout 0, .verdictRingWrite, .detectorThresholdCommit acc 0, .ptpReceive 0 [],
    .traceBlockAgeClose 0, .traceBlockWrite 0, .traceHaltClear acc 0, .traceRingSizeWrite acc 0 0, .compressBlockDone false, .recorderWindowSelect acc 0,
    .recorderFreeze acc, .recorderRelease acc, .recorderFlush acc, .recorderChunkAge] : List Instr).all (fun i => i.wf == true) = true := by decide +kernel

theorem test_wf_accepts_5 : ([.bufferArm acc 0, .recorderRingScanDone, .blackBoxPageDone, .blackBoxSetErased, .mergeBufferAgeDrain 0, .memScrubRead 0, .memScrubWriteback 0,
    .poisonRewrite ⟨0, .data⟩, .erasureEnd acc, .injectionArm acc 0, .faultPop acc, .failSilentCommand acc 0, .wardenWatchdogExpiry, .mirrorReceive 0,
    .syncReqSend, .syncReqReceive 0, .syncDataReceive 0, .syncWaitExpiry, .rebuildEnd, .panelEdgeSettled 0 false, .longPress, .panelRequest acc,
    .panelCancel acc, .departRequestRetry] : List Instr).all (fun i => i.wf == true) = true := by decide +kernel

theorem test_wf_accepts_6 : ([.departRequestReceive 0 [], .departGrantReceive 0 [], .departSafeReceive 0 [], .departCancelReceive 0 [], .departCancelledReceive 0 [], .panelEventPop
    acc, .mailboxLockRead acc 0, .mailboxRelease acc 0, .mailboxForceRelease acc 0, .nop acc 0 0, .dma acc 0 0, .leapRun acc 0 0, .ptpTx acc 0 0, .viewCfg
    acc 0 0, .viewFreeze acc 0 0, .viewThaw acc 0 0, .viewSave acc 0 0, .viewRestore acc 0 0, .viewReset acc 0 0, .viewResetComplete 0, .dmaHaltClear acc,
    .stage acc 0, .discardStaged acc, .scheduleLocal acc] : List Instr).all (fun i => i.wf == true) = true := by decide +kernel

theorem test_wf_accepts_7 : ([.stagingDone, .oldImageRelease, .settingsRead, .firmwareLoad, .settingsWriteDone, .erase acc, .program acc, .read acc, .check acc, .saveFlash acc,
    .bootStoreCommandDone false, .firmwareSwitchArm acc 0, .trialConfirm acc, .trialSelfConfirm, .trialReject acc, .trialExpiry, .packSelect acc 0,
    .receivedFrameDrop 0 false [], .doorbellUnknownOpcode acc 0 0] : List Instr).all (fun i => i.wf == true) = true := by decide +kernel

/-! Worked examples of the manual; each expected value is the manual's -/

/-- R34's example: a permanent no-match in cluster 17 of lane 2 on die 41 of package 3. -/
theorem test_location : locWord { up with rst := { up.rst with pkg := 3, die := 0x29 } } 2 3 2 0x11 0 = 0x0329430211000000 := by decide +kernel

/-- R245: the CRC-32C of "123456789". -/
theorem test_crc : crc32c [0x31, 0x32, 0x33, 0x34, 0x35, 0x36, 0x37, 0x38, 0x39] = 0xE3069283 := by decide +kernel

/-- Chapter 02's example: requester 0x21 reads VERSION. -/
theorem test_version_read : (match exec (.pairLowRead ⟨.reg 0x21, 0⟩ 0) up with
    | .next t => t.bus.queue
    | _ => []) = [⟨0x21, 0x00020300⟩] := by decide +kernel

/-- Chapter 18: CAP_LANE_SNAP of lane 0x2A7 and the mailbox of view 12 in the window of view 0. -/
theorem test_window : targetAt up 0 0x19538 = .reg 1 0 (.cap (.laneSnap 0x2A7 false)) ∧ targetAt up 0 0x206C0 = .reg 15 0 (.host (.mbxLock 19)) := by decide +kernel

/-- R8: VERSION is read only. -/
theorem test_version_write : (match exec (.registerWrite acc 0 0xFFFFFFFF) up with
    | .next t => decide (t = answered acc (touch up 17))
    | _ => false) = true := by decide +kernel

/-- Chapter 04's example: -12.5 ppm in units of 2^-44 and its 40-bit word. -/
theorem test_rate_word : signed 40 0xFFF2E48E8A = -219902326 := by decide +kernel

/-- Chapter 04's example: the first lock takes TB0 from 3 s to 1,746,000,000 s and 20,004 ns at C = 3,000,000,004. -/
theorem test_first_lock : (match exec (.stepApply 0) { up with time := { up.time with
      c := 3000000004
      bases := up.time.bases.map (fun b => { b with stepWait := [(1745999997000020000 * 2 ^ 44, 3000000000)] }) } } with
    | .next t => (tb0Stamp t, (baseAt t 0).stepCount)
    | _ => (⟨0, 0⟩, 0)) = (⟨1746000000, 20004⟩, 1) := by decide +kernel

/-- Chapter 04's example: at E = -4 the epoch 164,966,400,001 begins 62,500 ns past 1,746,000,000 s. -/
theorem test_grid_edge : edgeStamp { up.time.grid with e := -4, eOld := -4 } 164966400001 = ⟨1746000000, 62500⟩ := by decide +kernel

/-- R69: a clear and increments of one cycle combine: lane 0x2A7 goes from 1000 to 1005, and to 3 where one slot clears. -/
def laneOne : State :=
  { runs up { imageOne 1 0 with capture := some ⟨[⟨0x2A7, 0, 0, 0⟩], true, true, false, false, false, 0, 0, 0, [17], [], [], [], [], []⟩ } with
    cap := { up.cap with
      lanes := [(0x2A7, ⟨1000, 0, false, false, false⟩)]
      engines := [(17, ⟨2, 3, some (12, 7), 58000, 0, 58000, 0, 0, List.replicate 16 0⟩)] } }
theorem test_increments : (match exec (.counterIncrement [⟨0x2A7, 2, false⟩, ⟨0x2A7, 3, false⟩]) laneOne with
    | .next t => (lookup t.cap.lanes 0x2A7).map (·.value)
    | _ => none) = some 1005 := by decide +kernel
theorem test_clear : (match exec (.counterIncrement [⟨0x2A7, 3, true⟩]) laneOne with
    | .next t => (lookup t.cap.lanes 0x2A7).map (fun l => (l.value, l.clr))
    | _ => none) = some (3, true) := by decide +kernel

/-- Chapter 05's example: at cycle 99,000 engine 17 leaves the stall of reason 3 that began at 58,000 with a command of (13, 0). -/
theorem test_engine : (match exec (.engineEvent [⟨17, 1, 0, true, 13, 0⟩]) { laneOne with time := { laneOne.time with c := 61875 } } with
    | .next t => (lookup t.cap.engines 17).map (fun e => (e.stalled, e.busy, e.cmds, e.byReason.getD 3 0))
    | _ => none) = some (41000, 58000, 1, 41000) := by decide +kernel

/-- Chapter 06's example: the buckets of 380,000 and 395,120 for b = 17, the residue of 116,600, and the quantile of Q = 64,881. -/
theorem test_buckets : (histPlace 17 380000, histPlace 17 395120) =
    (.hist 17 0 0 0 ((List.replicate 64 0).set 11 1), .hist 17 0 0 0 ((List.replicate 64 0).set 12 1)) := by decide +kernel
theorem test_residue : residueOf 1 (.num 116600) = 65 ∧ residueOf 1 (.num 41000) = 200 ∧ residueOf 1 (.num 1200) = 180 := by decide +kernel
theorem test_quantile : quantile 17 0 0 (((List.replicate 64 0).set 11 62).set 12 2) 64881 = (425984, false) := by decide +kernel

/-- Chapter 08's example: the LOG codes of three durations, and AFFINE of 0.41 with SCALE 65,534. -/
theorem test_log_codes : (logCode 412350, logCode 395120, logCode 380000) = (0x2526, 0x2504, 0x24E7) := by decide +kernel
theorem test_bins : transform ⟨[], [⟨2, [960, 1040, 1120, 1200, 1280].map (fofNat f64)⟩]⟩ ⟨0, 0, 0, 0, 1, false, 0, 0, 0, 0, 0⟩ (.f (fofNat f64 1096)) = (2, false) ∧
    transform ⟨[], [⟨2, [960, 1040, 1120, 1200, 1280].map (fofNat f64)⟩]⟩ ⟨0, 0, 0, 0, 1, false, 0, 0, 0, 0, 0⟩ (.f (fofNat f64 1120)) = (3, false) := by decide +kernel

/-- Chapter 09's example: pad A of the straggler tree, its decision vector on die 41, and the entry that matches. -/
def padA : List Ent :=
  [⟨0x8000000000000000, 0x8000000000000003, 0x40000000BFA00000, 0x80042500⟩, ⟨0x8000000000000002, 0x800000000000000B, 0x40000000BE800000, 0x80004000⟩,
   ⟨0x800000000000000A, 0x800000000000000B, 0x400000003F000000, 0xC0020003⟩, ⟨0x8000000000000005, 0x8000000000000005, 0x400000003FC00000, 0x80012C01⟩,
   ⟨0x8000000000000001, 0x8000000000000015, 0x400000003EC00000, 0x80006000⟩, ⟨0x8000000000000011, 0x8000000000000015, 0x50, 0⟩] ++ List.replicate 10 entNone
theorem test_leap : decisionVector padA ⟨1, 0, 5, 0, [0x68F5, 0xFFFF, 2, 0xFFFF, 0x2526], []⟩ = 0x13 ∧ matchesOf padA 0x13 = [5] ∧
    matchesOf padA 1 = [4] := by decide +kernel
theorem test_sigmoid : fsigmoid 0x3FC00000 = 0x3F514C90 := by decide +kernel

/-- Chapter 11's example: what one expulsion costs the Dome with DOME_RATE 50 and 102,400 leaves. -/
theorem test_dome_cost : domeCost { runs upS { imageOne 3 2 with detect := { detectOne [] with fleetLeaves := 102400 } } with rw := [(.vrdDomeBudget, 50)] } = 70312500000 := by
  decide +kernel

/-- Chapter 12's example: GUARD of a 100 Gb/s port with MTU 9,000 and OVH 38. -/
theorem test_guard : guardNs ⟨128, 1, 9000, 0, 0, 100000000000, 38, 0, 0⟩ = 724 := by decide +kernel

/-- Chapter 13's example: the packets of four events on core 5. -/
def core5 : TCore :=
  { coreNone with refAddr := 0x00007F3100401200, insns := 4040, needSync := false, cur := some ⟨0, ⟨0, 0⟩, 0, [], 0, 0, 0, false, false, 0xFFFF, 0, false, false, false, false, []⟩ }
def raw5 (k : TCore) : Option Bytes := k.cur.map (·.raw)
theorem test_trace_packets :
    raw5 (pushEvent core5 1 0x00007F3100401A80 12) = some [0x22, 0x0C, 0x80, 0x1A] ∧
    raw5 (pushEvent { core5 with refAddr := 0x00007F3100401A80, insns := 4052 } 0 0x00007F3100401A80 40) = some [0x10, 0x28] ∧
    raw5 (pushEvent { core5 with refAddr := 0x00007F3100401A80, insns := 4092 } 2 0xFFFF800000000400 3) =
      some [0x38, 0x03, 0x00, 0x04, 0x00, 0x00, 0x00, 0x80, 0xFF, 0xFF] ∧
    raw5 (pushEvent { core5 with refAddr := 0xFFFF800000000400, insns := 4095 } 3 0x00007F3100401A98 1) =
      some [0x48, 0x01, 0x98, 0x1A, 0x40, 0x00, 0x31, 0x7F, 0x00, 0x00] := by decide +kernel

/-- Chapter 14's example: macro 7 of bank 2 flips four bits of code word 1,000, and MEM_LAST_CE names it; with one bit it names the cell. -/
theorem test_correction : (rsDecode ((rsEncode (List.replicate 16 0x55)).modify 7 (· ^^^ 0x3C)) none).fixes = [(7, 0x3C)] ∧
    ceLoc { up with rst := { up.rst with pkg := 3, die := 0x29 } } 2 1000 (7, 0x3C) = 0x03294C0207000000 ∧
    ceLoc { up with rst := { up.rst with pkg := 3, die := 0x29 } } 2 1000 (7, 0x10) = 0x03292C0207001F44 := by decide +kernel

/-! Memory: reset lists nothing, and a byte set back to what unlisted addresses read as leaves no entry -/

theorem test_memory : memSet 0 (memSet 0 [] 5 7) 5 0 = [] ∧ memRead 0xFF (memWrite 0xFF [] 3 [1, 0xFF, 2]) 2 5 = [0xFF, 1, 0xFF, 2, 0xFF] ∧
    (memWrite 0xFF [] 3 [1, 0xFF, 2]).length = 2 ∧ State.reset.mem.sram = [] ∧ State.reset.boot.store = [] := by decide +kernel

/-! The queue: first in, first out; a tick on the empty queue; nothing has a word -/

theorem test_queue : (match step { up with pending := [.svcStatusRead, .warmReset] } with
    | .next t => t.pending
    | _ => []) = [.warmReset] := by decide +kernel
theorem test_tick : (match step State.reset with
    | .next t => t.time.c
    | _ => 0) = 1 := by decide +kernel
theorem test_no_words : decodeTableWord 32 0 = none ∧ State.reset.withFetchWord 32 7 = State.reset := by decide +kernel

/-- R60: a response of no outstanding transaction ends none (log entry 125). -/
theorem test_unknown_tag : exec (.mmWriteCompletion 5 0) up = .next up := rfl

/-- R152: a rate committed at C = 100 does not govern before C = 102, and one committed behind it waits its turn. -/
theorem test_rate_crossing : (match exec (.rateApply 0) { up with time := { up.time with
      c := 100
      bases := up.time.bases.map (fun b => { b with rateWait := [(7, 100), (9, 101)] }) } } with
    | .next t => (t.time.c, (baseAt t 0).rate, (baseAt t 0).rateWait)
    | _ => (0, 0, [])) = (102, 7, [(9, 101)]) := by decide +kernel

/-- R48: a detector pass that falls due while VRD is in RET only asks for VRD's switch. -/
def asleepAll (s : State) : State := { s with pow := s.pow.map (fun p => { p with st := .ret, req := false }) }
theorem test_work_waits : (match exec .detectorPass (asleepAll newt) with
    | .next t => ((powOf t 6).st, (powOf t 6).req, (powOf t 5).req)
    | _ => (.on, false, true)) = (.ret, true, false) := by decide +kernel

/-- R517: TRC stays out of RET while TRC_MAP enables a core. -/
theorem test_trace_no_ret : (match exec (.unitRetain 9) { laneOne with
      pow := laneOne.pow.map (fun p => { p with st := .gated, retEn := true })
      img := { laneOne.img with active := laneOne.img.active.map (fun i => { i with capture := i.capture.map (fun c => { c with traces := [0] }) }) } } with
    | .next t => (powOf t 9).st
    | _ => .on) = .gated := by decide +kernel

/-- The premises of the clauses on units at rest: one state with every unit in RET. -/
theorem witness_units_asleep : (∀ u ∈ [2, 3, 4, 5, 6, 9, 10, 11, 12, 14, 16, 18], asleep (asleepAll up) u = true) ∧
    (∀ u ∈ [6, 12, 14], (powOf (asleepAll up) u).st = .ret ∧ u ≤ (asleepAll up).pow.length) ∧ 6 ≤ (asleepAll up).rst.step := by decide +kernel

/-- Chapter 18's figures: FEAT of a NEWT-S on an N12 die at 0.8 GHz, and the sums of the whole NEWT-S in nW. -/
theorem test_draw : unitDraw { Config.newtDefault with node := .n12, coreMHz := 800 } 2 .gated = 450000 ∧
    unitDraw { Config.newtDefault with node := .n12, coreMHz := 800 } 2 .ret = 12000 ∧
    unitDraw { Config.newtDefault with node := .n12, coreMHz := 800 } 2 .on = 42383333 ∧
    sumOf ((List.range 18).map (fun i => unitDraw { Config.newtDefault with coreMHz := 1200 } (i + 1) .gated)) = 35000000 ∧
    sumOf ((List.range 18).map (fun i => unitDraw { Config.newtDefault with coreMHz := 1200 } (i + 1) .on)) = 358000000 := by decide +kernel


/-! Witnesses: the hypotheses of each statement, clause by clause, are met -/

theorem witness_StepRunsFront : ∃ (s : State) (c : Instr) (rest : List Instr), s.pending = c :: rest :=
  ⟨{ up with pending := [.warmReset] }, .warmReset, [], by decide +kernel⟩

theorem witness_EmptyQueueTicks : ∃ (s : State), s.pending = [] :=
  ⟨up, by decide +kernel⟩

theorem witness_StartUpAdvancesStepByStep :
  (∃ (s : State), s.rst.step = 4 ∧ coreUp s = true) ∧
  (∃ (s : State), s.rst.step = 5 ∧ coreUp s = true) ∧
  (∃ (s : State) (k : Nat), s.rst.step = 5 ∧ coreUp s = true ∧ s.flt.active = false) ∧
  (∃ (s : State) (k : Option Nat), coreUp s = false) ∧
  (∃ (s : State) (k : Nat), s.rst.keyState = 0) ∧
  (∃ (s : State) (k : Nat), s.rst.keyState ≠ 0) :=
  ⟨⟨{ State.reset with pow := up.pow }, by decide +kernel⟩,
   ⟨{ up with rst := { up.rst with step := 5 } }, by decide +kernel⟩,
   ⟨{ up with rst := { up.rst with step := 5 } }, 3, by decide +kernel⟩,
   ⟨State.reset, some 3, by decide +kernel⟩,
   ⟨up, 5, by decide +kernel⟩,
   ⟨{ up with rst := { up.rst with keyState := 1 } }, 5, by decide +kernel⟩⟩

theorem witness_PowerFailWarning :
  (∃ (s : State), pwrBusy s = false) ∧
  (∃ (s : State), pwrBusy s = true) :=
  ⟨⟨up, by decide +kernel⟩,
   ⟨{ up with rst := { up.rst with warn := true, flushA := true } }, by decide +kernel⟩⟩

theorem witness_UnitsWakeGateAndRetain :
  (∃ (s : State) (u : Nat), heldOn s u = false ∧ unitWork s u = false ∧ (powOf s u).st = .on ∧ u - 1 < s.pow.length) ∧
  (∃ (s : State) (u : Nat), (powOf s u).st = .gated ∧ alwaysOn u = false ∧ (powOf s u).retEn = true ∧ busyUnit s u = false ∧ u - 1 < s.pow.length) ∧
  (∃ (s : State) (u n : Nat), (powOf s u).reqAt = some n ∧ (powOf s u).req = true ∧ (powOf s u).late = false ∧ ((powOf s u).st = .ret ∨ (powOf s u).st = .off) ∧ u - 1 < s.pow.length) ∧
  (∃ (s : State) (u : Nat), (powOf s u).req = true ∧ (∀ w ∈ s.bus.deferred, w.1 ≠ u)) ∧
  (∃ (s : State) (u : Nat), u ∉ [3, 10, 12, 13]) ∧
  (∃ (s : State) (u d : Nat) (a : Access) (r : Reg), (powOf s u).req = true ∧ u ∉ [3, 10, 12, 13] ∧ u - 1 < s.pow.length ∧ s.bus.deferred = [(u, .write a r d)]) ∧
  (∃ (s : State), s.time.grid.st ≠ .exhausted) ∧
  (∃ (s : State) (a : Access) (u : Nat) (d : Word), reaches s a 17 ∧ 1 ≤ u ∧ u ≤ 18 ∧ unitAbsent s.integ u = false ∧ alwaysOn u = false ∧ (powOf s u).st ≠ .ret) :=
  ⟨⟨up, 3, by decide +kernel⟩,
   ⟨{ up with pow := up.pow.map (fun p => { p with st := .gated, retEn := true }) }, 3, by decide +kernel⟩,
   ⟨{ up with pow := up.pow.map (fun p => { p with st := .ret, reqAt := some 5, req := true, late := false }) }, 3, 5, by decide +kernel⟩,
   ⟨up, 4, by decide +kernel⟩,
   ⟨up, 4, by decide +kernel⟩,
   ⟨{ up with bus := { up.bus with deferred := [(4, .write acc (.rw .leapBundleCount) 1)] } }, 4, 1, acc, .rw .leapBundleCount, by decide +kernel⟩,
   ⟨up, by decide +kernel⟩,
   ⟨up, acc, 3, 0, by dsimp only [mbxReaches, reaches, viewReaches, portTakes, acc]; decide +kernel⟩⟩

theorem witness_RegisterWriteReachesItsRegister :
  (∃ (s : State) (a : Access) (off u : Nat) (r x : Reg) (d : Word), reaches s a u ∧ targetAt s 0 (off / 4 * 4) = .reg u 0 r ∧ actOn s 0 r = some x) ∧
  (∃ (s : State) (a : Access) (d : Word), reaches s a 3) ∧
  (∃ (s : State) (a : Access) (d : Word), reaches s a 3) ∧
  (∃ (s : State) (a : Access) (off u : Nat) (r x : Reg) (d : Word), portTakes s a ∧ 6 ≤ s.rst.step ∧ s.flt.active = false ∧ asleep s u = true ∧ targetAt s 0 (off / 4 * 4) = .reg u 0 r ∧ actOn s 0 r = some x) ∧
  (∃ (s : State) (a : Access) (off u : Nat) (r : Reg) (d : Word), portTakes s a ∧ 6 ≤ s.rst.step ∧ s.flt.active = true ∧ targetAt s 0 (off / 4 * 4) = .reg u 0 r ∧ r ≠ .host .fltPop) ∧
  (∃ (s : State) (rid v off : Nat) (d : Word), 8 ≤ s.bus.queue.length) :=
  ⟨⟨up, acc, 0x3108, 3, .rw .leapBundleCount, .rw .leapBundleCount, 0, by dsimp only [mbxReaches, reaches, viewReaches, portTakes, acc]; decide +kernel⟩,
   ⟨up, acc, 7, by dsimp only [mbxReaches, reaches, viewReaches, portTakes, acc]; decide +kernel⟩,
   ⟨up, acc, 7, by dsimp only [mbxReaches, reaches, viewReaches, portTakes, acc]; decide +kernel⟩,
   ⟨{ up with pow := up.pow.map (fun p => { p with st := .ret }) }, acc, 0x3108, 3, .rw .leapBundleCount, .rw .leapBundleCount, 7, by dsimp only [mbxReaches, reaches, viewReaches, portTakes, acc]; decide +kernel⟩,
   ⟨{ up with flt := { up.flt with active := true } }, acc, 0x3108, 3, .rw .leapBundleCount, 0, by dsimp only [mbxReaches, reaches, viewReaches, portTakes, acc]; decide +kernel⟩,
   ⟨{ up with bus := { up.bus with queue := List.replicate 8 ⟨1, 0⟩ } }, 1, 0, 0, 0, by decide +kernel⟩⟩

theorem witness_AccessesThatReachNoRegister :
  (∃ (s : State) (a : Access) (off u : Nat) (r : Reg) (d : Word), portTakes s a ∧ s.rst.step < 6 ∧ targetAt s 0 (off / 4 * 4) = .reg u 0 r ∧ u ≠ 17) ∧
  (∃ (s : State) (a : Access), portTakes s a ∧ aget s.bus.latches (a.rq, Reg.svc .version) = none) ∧
  (∃ (s : State) (a : Access) (off : Nat) (d : Word), portTakes s a ∧ 6 ≤ s.rst.step ∧ targetAt s 0 (off / 4 * 4) = .hole) ∧
  (∃ (s : State) (rid v off : Nat) (d : Option Word), 0 < v ∧ s.bus.queue.length < 8 ∧ 6 ≤ s.rst.step ∧ (off / 4 * 4 < 0x80000 ∨ 0x100000 ≤ off / 4 * 4)) :=
  ⟨⟨State.reset, acc, 0x3108, 3, .rw .leapBundleCount, 0, by dsimp only [mbxReaches, reaches, viewReaches, portTakes, acc]; decide +kernel⟩,
   ⟨State.reset, acc, by dsimp only [mbxReaches, reaches, viewReaches, portTakes, acc]; decide +kernel⟩,
   ⟨up, acc, 36, 0, by dsimp only [mbxReaches, reaches, viewReaches, portTakes, acc]; decide +kernel⟩,
   ⟨up, 1, 1, 0, none, by decide +kernel⟩⟩

theorem witness_CounterReadsThenClears : ∃ (s : State) (c : RcReg) (n : Nat), rcGet s c < 2 ^ 32 :=
  ⟨up, .tenHole, 0, by decide +kernel⟩

theorem witness_ReadsLatchClearAndAreAcknowledged :
  (∃ (s : State) (a : Access) (off u : Nat) (c : RcReg), portTakes s a ∧ 6 ≤ s.rst.step ∧ targetAt s 0 (off / 4 * 4) = .reg u 0 (.rc c) ∧ aget s.bus.latches (a.rq, Reg.rc c) = none ∧ actOn s 0 (.rc c) = some (.rc c) ∧ rcGet s c < 2 ^ 32) ∧
  (∃ (s : State) (a : Access) (off u : Nat) (r : RwReg) (h : Reg), portTakes s a ∧ 6 ≤ s.rst.step ∧ targetAt s 0 (off / 4 * 4) = .reg u 0 (.rw r) ∧ pairHigh (.rw r) = some h ∧ aget s.bus.latches (a.rq, Reg.rw r) = none ∧ actOn s 0 (.rw r) = some (.rw r)) ∧
  (∃ (s : State) (a : Access) (off u v : Nat) (r : RwReg), portTakes s a ∧ 6 ≤ s.rst.step ∧ targetAt s 0 (off / 4 * 4) = .reg u 0 (.rw r) ∧ aget s.bus.latches (a.rq, Reg.rw r) = some v ∧ actOn s 0 (.rw r) = some (.rw r)) ∧
  (∃ (s : State) (k : Ack) (rest : List Ack), s.bus.queue = k :: rest) ∧
  (∃ (s : State), s.bus.queue = []) :=
  ⟨⟨up, acc, 4624, 8, .timeCapLost, by dsimp only [mbxReaches, reaches, viewReaches, portTakes, acc]; decide +kernel⟩,
   ⟨up, acc, 20544, 5, .snapBase false, .rw (.snapBase true), by dsimp only [mbxReaches, reaches, viewReaches, portTakes, acc]; decide +kernel⟩,
   ⟨{ up with bus := { up.bus with latches := [((acc.rq, .rw (.snapBase true)), 3)] } }, acc, 20548, 5, 3, .snapBase true, by dsimp only [mbxReaches, reaches, viewReaches, portTakes, acc]; decide +kernel⟩,
   ⟨{ up with bus := { up.bus with queue := [⟨1, 0⟩] } }, ⟨1, 0⟩, [], by decide +kernel⟩,
   ⟨up, by decide +kernel⟩⟩

theorem witness_ServicePortReadsAndWrites :
  (∃ (s : State) (addr u : Nat) (r x : Reg), 6 ≤ s.rst.step ∧ targetAt s 0 (addr / 4 * 4) = .reg u 0 r ∧ actOn s 0 r = some x) ∧
  (∃ (s : State) (addr u : Nat) (r x : Reg) (b : Bytes), reaches s ⟨.svc, 0⟩ u ∧ targetAt s 0 (addr / 4 * 4) = .reg u 0 r ∧ actOn s 0 r = some x ∧ b.length = 4) ∧
  (∃ (s : State) (addr : Nat) (b : Bytes), b.length < 4) ∧
  (∃ (s : State) (op : Nat), op % 256 ∉ [0x0B, 0x02, 0x05, 0x12, 0x1B]) ∧
  (∃ (s : State) (addr : Nat) (b : Bytes), 6 ≤ s.rst.step ∧ asleep s 12 = false ∧ s.boot.cmd.isSome) ∧
  (∃ (s : State) (addr : Nat) (b : Bytes), 6 ≤ s.rst.step ∧ asleep s 12 = false ∧ s.boot.cmd = none ∧ addr % 2 ^ 20 / 4 * 4 < 65536) ∧
  (∃ (s : State) (addr n : Nat), asleep s 12 = false) ∧
  (∃ (s : State) (addr n : Nat) (b : Bytes), 6 ≤ s.rst.step ∧ (powOf s 12).st = .ret ∧ 12 ≤ s.pow.length) :=
  ⟨⟨up, 0x3108, 3, .rw .leapBundleCount, .rw .leapBundleCount, by decide +kernel⟩,
   ⟨up, 0x3108, 3, .rw .leapBundleCount, .rw .leapBundleCount, [0, 0, 0, 1], by dsimp only [mbxReaches, reaches, viewReaches, portTakes, acc]; decide +kernel⟩,
   ⟨up, 0, [1], by decide +kernel⟩,
   ⟨up, 0x77, by decide +kernel⟩,
   ⟨{ up with boot := { up.boot with cmd := some ⟨1, 0, 0⟩ } }, 0, [], by decide +kernel⟩,
   ⟨up, 65532, [], by decide +kernel⟩,
   ⟨up, 0, 2, by decide +kernel⟩,
   ⟨{ up with pow := up.pow.map (fun p => { p with st := .ret }) }, 0, 2, [], by decide +kernel⟩⟩

theorem witness_MemoryPortTakesBeatsByTag :
  (∃ (s : State) (tag : Nat) (x : MmTx) (b : Bytes), lookup s.mm.tags tag = some x ∧ x.write = false ∧ x.got + 1 < x.beats) ∧
  (∃ (s : State) (tag err : Nat) (x : MmTx) (j : MmJob) (b : Bytes), lookup s.mm.tags tag = some x ∧ x.write = false ∧ x.got + 1 < x.beats ∧ 0 < err ∧ err < 4 ∧ mmJobOf s x.owner = some j ∧ j.chan ≠ 1 ∧ j.chan < Config.dmaChannels s.integ) ∧
  (∃ (s : State) (tag : Nat) (x : MmTx) (b : Bytes) (l : Bool), lookup s.mm.tags tag = some x ∧ x.write = false ∧ (l = true ∨ x.got + 1 = x.beats)) ∧
  (∃ (s : State) (tag : Nat) (x : MmTx), lookup s.mm.tags tag = some x ∧ x.write = true) ∧
  (∃ (s : State) (tag err : Nat) (b : Bytes) (l : Bool), lookup s.mm.tags tag = none) :=
  ⟨⟨{ up with mm := { up.mm with tags := [(3, ⟨.snapSeq, false, 0, 0, 2, 0, 0⟩)] } }, 3, ⟨.snapSeq, false, 0, 0, 2, 0, 0⟩, [], by decide +kernel⟩,
   ⟨{ up with mm := { up.mm with tags := [(3, ⟨.mbxBody 0, false, 0, 0, 2, 0, 0⟩)], jobs := [⟨.mbxBody 0, false, 2, 0, 0, 64, [], 64, 64, 0⟩] } }, 3, 3, ⟨.mbxBody 0, false, 0, 0, 2, 0, 0⟩, ⟨.mbxBody 0, false, 2, 0, 0, 64, [], 64, 64, 0⟩, [], by decide +kernel⟩,
   ⟨{ up with mm := { up.mm with tags := [(3, ⟨.snapSeq, false, 0, 0, 2, 0, 1⟩)] } }, 3, ⟨.snapSeq, false, 0, 0, 2, 0, 1⟩, [], false, by decide +kernel⟩,
   ⟨{ up with mm := { up.mm with tags := [(3, ⟨.snapSeq, true, 0, 0, 1, 0, 0⟩)] } }, 3, ⟨.snapSeq, true, 0, 0, 1, 0, 0⟩, by decide +kernel⟩,
   ⟨up, 63, 0, [], true, by decide +kernel⟩⟩

theorem witness_LaneIncrementsAddSaturating :
  (∃ (s : State) (l : List IncSlot), Config.isSpireL s.integ = true) ∧
  (∃ (s : State) (l : List IncSlot), Config.isSpireL s.integ = false) :=
  ⟨⟨upS, [], by decide +kernel⟩,
   ⟨up, [], by decide +kernel⟩⟩

theorem witness_EngineEventsCreditTheInterval :
  (∃ (s : State) (l : List EngSlot), Config.isSpireL s.integ = true) ∧
  (∃ (s : State) (l : List EngSlot), Config.isSpireL s.integ = false) :=
  ⟨⟨upS, [], by decide +kernel⟩,
   ⟨up, [], by decide +kernel⟩⟩

theorem witness_RingsKeepTheirNetOccupancy :
  (∃ (s : State) (l : List RingSlot), Config.isSpireL s.integ = true) ∧
  (∃ (s : State) (l : List RingSlot), Config.isSpireL s.integ = false) ∧
  (∃ (s : State) (a : Access) (d : Word), reaches s a 1) :=
  ⟨⟨upS, [], by decide +kernel⟩,
   ⟨up, [], by decide +kernel⟩,
   ⟨up, acc, 0, by dsimp only [mbxReaches, reaches, viewReaches, portTakes, acc]; decide +kernel⟩⟩

theorem witness_StepMarksOpenAndCloseSteps :
  (∃ (s : State) (a : Access) (d : Word), reaches s a 1 ∧ (∀ c, capSec s = some c → c.stepEn = false)) ∧
  (∃ (s : State) (a : Access) (d : Word) (c : CaptureSec), reaches s a 1 ∧ capSec s = some c ∧ c.stepEn = true) :=
  ⟨⟨up, acc, 0, by exact ⟨by dsimp only [reaches, portTakes, acc]; decide +kernel, fun c h => by cases h⟩⟩,
   ⟨runs up { imageOne 1 0 with capture := some ⟨[], false, false, false, false, true, 0, 0, 0, [], [], [], [], [], []⟩ }, acc, 0, ⟨[], false, false, false, false, true, 0, 0, 0, [], [], [], [], [], []⟩, by dsimp only [mbxReaches, reaches, viewReaches, portTakes, acc]; decide +kernel⟩⟩

theorem witness_ProfileBuffersGoToTheirSlots :
  (∃ (s : State) (b : ProfBuf) (rest : List ProfBuf) (d : Bytes), s.cap.prof.bufs = b :: rest ∧ b.stored = some d ∧ s.cap.prof.flying = false ∧ s.cap.prof.halt = false ∧ profFull s = false ∧ mmQuiet s = false) ∧
  (∃ (s : State), (s.cap.prof.bufs = [] ∨ s.cap.prof.flying = true ∨ s.cap.prof.halt = true ∨ profFull s = true ∨ mmQuiet s = true)) ∧
  (∃ (s : State) (a : Access), reaches s a 1 ∧ s.cap.prof.bufs = []) :=
  ⟨⟨{ newt with rw := [(.capProfSize, 4)], cap := { newt.cap with prof := { newt.cap.prof with bufs := [⟨0, 5, 7, [], 0, 0, true, false, false, some []⟩] } } }, ⟨0, 5, 7, [], 0, 0, true, false, false, some []⟩, [], [], by decide +kernel⟩,
   ⟨up, by decide +kernel⟩,
   ⟨up, acc, by dsimp only [mbxReaches, reaches, viewReaches, portTakes, acc]; decide +kernel⟩⟩

theorem witness_TracePowerHandshake :
  (∃ (s : State) (c : Nat), c < s.trc.length) ∧
  (∃ (s : State) (c : Nat), c < s.trc.length) ∧
  (∃ (s : State) (c : Nat), c < s.trc.length ∧ (coreAt s c).pwrReq = true ∧ (coreAt s c).pwrAck = false) ∧
  (∃ (s : State) (c : Nat), ((coreAt s c).pwrReq = false ∨ (coreAt s c).pwrAck = true)) :=
  ⟨⟨up, 63, by decide +kernel⟩,
   ⟨up, 63, by decide +kernel⟩,
   ⟨{ up with trc := [{ coreNone with pwrReq := true }] }, 0, by decide +kernel⟩,
   ⟨up, 63, by decide +kernel⟩⟩

theorem witness_TraceBlocksCloseAndGoToTheirRing :
  (∃ (s : State) (c : Nat) (b : TBlock), c < s.trc.length ∧ (coreAt s c).cur = some b ∧ b.raw ≠ [] ∧ asleep s 9 = false) ∧
  (∃ (s : State) (c : Nat), (∀ b, (coreAt s c).cur = some b → b.raw = [])) ∧
  (∃ (s : State) (c : Nat) (b : TBlock), c < s.trc.length ∧ (coreAt s c).halt = false ∧ (coreAt s c).flying = none ∧ (coreAt s c).size ≠ 0 ∧ mmQuiet s = false ∧ asleep s 9 = false ∧ readyBlock (coreAt s c) = some b) ∧
  (∃ (s : State) (a : Access) (c : Nat), reaches s a 9 ∧ c < s.integ.traces ∧ c < 64) ∧
  (∃ (s : State) (a : Access) (c : Nat) (d : Word), reaches s a 9 ∧ c < s.integ.traces ∧ c < 64 ∧ c < s.trc.length) :=
  ⟨⟨{ up with trc := [{ coreNone with cur := some ⟨0, ⟨0, 0⟩, 0, [1], 1, 0, 0, false, false, 0, 0, false, true, false, false, [1]⟩ }] }, 0, ⟨0, ⟨0, 0⟩, 0, [1], 1, 0, 0, false, false, 0, 0, false, true, false, false, [1]⟩, by decide +kernel⟩,
   ⟨up, 0, by intro b h; cases h⟩,
   ⟨{ newt with trc := [{ coreNone with size := 4, closed := [⟨0, ⟨0, 0⟩, 0, [1], 1, 0, 0, false, false, 0, 0, false, true, false, false, [1]⟩] }] }, 0, ⟨0, ⟨0, 0⟩, 0, [1], 1, 0, 0, false, false, 0, 0, false, true, false, false, [1]⟩, by decide +kernel⟩,
   ⟨up, acc, 63, by dsimp only [mbxReaches, reaches, viewReaches, portTakes, acc]; decide +kernel⟩,
   ⟨up, acc, 63, 0, by dsimp only [mbxReaches, reaches, viewReaches, portTakes, acc]; decide +kernel⟩⟩

theorem witness_RecorderFreezesReleasesAndSelects :
  (∃ (s : State) (a : Access) (d : Word), reaches s a 10) ∧
  (∃ (s : State) (a : Access), reaches s a 10) ∧
  (∃ (s : State) (a : Access), reaches s a 10) :=
  ⟨⟨up, acc, 0, by dsimp only [mbxReaches, reaches, viewReaches, portTakes, acc]; decide +kernel⟩,
   ⟨up, acc, by dsimp only [mbxReaches, reaches, viewReaches, portTakes, acc]; decide +kernel⟩,
   ⟨up, acc, by dsimp only [mbxReaches, reaches, viewReaches, portTakes, acc]; decide +kernel⟩⟩

theorem witness_RecorderFlushesAndChunks :
  (∃ (s : State) (a : Access), reaches s a 10 ∧ s.erc.freeze = false) ∧
  (∃ (s : State) (q ep : Nat) (rest : List (Nat × Nat)), asleep s 10 = false ∧ s.erc.drain = (q, ep) :: rest ∧ s.erc.chunk = none ∧ ercArmed s = true ∧ mmQuiet s = false ∧ ep + rwGet s .ercCfg / 256 % 256 ≤ epochNow s ∧ ercHeld s.erc ((s.erc.drain.take 16).map (·.1)) ≠ []) ∧
  (∃ (s : State), (s.erc.drain = [] ∨ s.erc.chunk ≠ none ∨ ercArmed s = false ∨ mmQuiet s = true ∨
      (∃ p rest, s.erc.drain = p :: rest ∧ epochNow s < p.2 + rwGet s .ercCfg / 256 % 256))) ∧
  (∃ (s : State) (a : Access) (b : Bool), reaches s a 10 ∧ s.erc.chunk = none ∧ s.erc.flushing = false ∧ s.erc.drain.length < 16) :=
  ⟨⟨up, acc, by dsimp only [mbxReaches, reaches, viewReaches, portTakes, acc]; decide +kernel⟩,
   ⟨{ newt with rw := [(.ercCfg, 0)], erc := { newt.erc with drain := [(3, 3)], ring := [(3, [1])], bufA := ⟨true, 0, 16, 0⟩ } }, 3, 3, [], by decide +kernel⟩,
   ⟨up, by exact Or.inl rfl⟩,
   ⟨up, acc, true, by dsimp only [mbxReaches, reaches, viewReaches, portTakes, acc]; decide +kernel⟩⟩

theorem witness_RecorderScanBlackBoxAndCompression :
  (∃ (s : State), s.erc.scanning = true ∧ asleep s 10 = false) ∧
  (∃ (s : State), s.erc.scanning = false) ∧
  (∃ (s : State), 3 ≤ s.boot.phase ∧ s.erc.bbSets < 16) ∧
  (∃ (s : State), (s.boot.phase < 3 ∨ 16 ≤ s.erc.bbSets)) ∧
  (∃ (s : State), s.erc.bbWrite = none) ∧
  (∃ (s : State) (w : BbWrite) (p : Bytes) (ps : List Bytes), s.erc.bbWrite = some w ∧ w.pages = p :: ps) ∧
  (∃ (s : State) (m : Bool), nextZip s = none) ∧
  (∃ (s : State) (j : ZipJob) (c : Nat), asleep s 11 = false ∧ nextZip s = some j ∧ j.owner = .trc c) :=
  ⟨⟨{ up with erc := { up.erc with scanning := true } }, by decide +kernel⟩,
   ⟨up, by decide +kernel⟩,
   ⟨{ up with boot := { up.boot with phase := 3 } }, by decide +kernel⟩,
   ⟨up, by decide +kernel⟩,
   ⟨up, by decide +kernel⟩,
   ⟨{ up with erc := { up.erc with bbWrite := some ⟨1, 0, [[0]]⟩ } }, ⟨1, 0, [[0]]⟩, [0], [], by decide +kernel⟩,
   ⟨up, false, by decide +kernel⟩,
   ⟨{ up with cmp := { up.cmp with queue := [⟨.trc 3, [1]⟩] } }, ⟨.trc 3, [1]⟩, 3, by decide +kernel⟩⟩

theorem witness_RatesAreHeldCommittedAndApplied :
  (∃ (s : State) (a : Access) (b : Nat) (d : Word), reaches s a 8 ∧ b < 4 ∧ hasBase s b = true ∧ b ≠ 1) ∧
  (∃ (s : State) (a : Access) (d : Word), reaches s a 8 ∧ hasBase s 1 = true) ∧
  (∃ (s : State) (a : Access) (b : Nat) (d : Word), reaches s a 8 ∧ b < 4 ∧ hasBase s b = true ∧ b ≠ 1) ∧
  (∃ (s : State) (b : Nat) (r : Int) (c0 : Nat) (rest : List (Int × Nat)), hasBase s b = true ∧ (baseAt s b).rateWait = (r, c0) :: rest) ∧
  (∃ (s : State) (b : Nat), (baseAt s b).rateWait = []) :=
  ⟨⟨up, acc, 0, 0, by dsimp only [mbxReaches, reaches, viewReaches, portTakes, acc]; decide +kernel⟩,
   ⟨upS, acc, 0, by dsimp only [mbxReaches, reaches, viewReaches, portTakes, acc]; decide +kernel⟩,
   ⟨up, acc, 0, 0, by dsimp only [mbxReaches, reaches, viewReaches, portTakes, acc]; decide +kernel⟩,
   ⟨{ up with time := { up.time with bases := up.time.bases.map (fun b => { b with rateWait := [(5, 0)] }) } }, 0, 5, 0, [], by decide +kernel⟩,
   ⟨up, 0, by decide +kernel⟩⟩

theorem witness_StepsNeedArmingAndMoveTheirBase :
  (∃ (s : State) (a : Access) (b : Nat), reaches s a 8 ∧ b < 4 ∧ hasBase s b = true) ∧
  (∃ (s : State) (a : Access) (b : Nat), reaches s a 8 ∧ b < 4 ∧ hasBase s b = true) ∧
  (∃ (s : State) (rid v : Nat), viewReaches s v 8 ∧ tb3ViewNow s = v ∧ hasBase s 3 = true) ∧
  (∃ (s : State) (b : Nat), (baseAt s b).stepWait = []) ∧
  (∃ (s : State) (b : Nat) (d : Int) (c0 : Nat) (rest : List (Int × Nat)), b ≠ 0 ∧ hasBase s b = true ∧ (baseAt s b).stepWait = (d, c0) :: rest) ∧
  (∃ (s : State) (d : Int) (c0 : Nat) (rest : List (Int × Nat)), hasBase s 0 = true ∧ (baseAt s 0).stepWait = (d, c0) :: rest ∧ s.time.grid.st = .waiting) ∧
  (∃ (s : State) (d : Int) (c0 : Nat) (rest : List (Int × Nat)), hasBase s 0 = true ∧ (baseAt s 0).stepWait = (d, c0) :: rest ∧ s.time.grid.st = .running ∧ let s1 := modBase (advanceTo s (c0 + 2)) 0 (fun k =>
      { k with off := k.off + d, stepWait := rest, stepCount := min (k.stepCount + 1) 255, lastStep := some (max s.time.c (c0 + 2)) })
    (tb0Tick s1 : Int) < edgeTick s.time.grid (s.time.grid.epoch + 1)) ∧
  (∃ (s : State) (was : Nat), (∀ k ∈ s.time.strobes, k.armed = false) ∧ tb0Ns s / 10 ^ 9 ≤ was / 10 ^ 9) :=
  ⟨⟨upS, acc, 3, by dsimp only [mbxReaches, reaches, viewReaches, portTakes, acc]; decide +kernel⟩,
   ⟨upS, acc, 3, by dsimp only [mbxReaches, reaches, viewReaches, portTakes, acc]; decide +kernel⟩,
   ⟨runs upS { imageOne 2 1 with timebase := some ⟨0, 0, 3, 5, 0, 0, 0, [], []⟩, views := some ⟨0, [⟨5, false, true, false, 0, 0, 0, 0, 0⟩]⟩ } |> fun s => { s with host := { s.host with views := [(5, ⟨1, false, none, none, [], 0, 0, 0, [], 0⟩)] } }, 1, 5, by dsimp only [mbxReaches, reaches, viewReaches, portTakes, acc]; decide +kernel⟩,
   ⟨up, 0, by decide +kernel⟩,
   ⟨{ upS with time := { upS.time with bases := upS.time.bases.map (fun b => { b with stepWait := [(5, 0)] }) } }, 3, 5, 0, [], by decide +kernel⟩,
   ⟨{ up with time := { up.time with bases := up.time.bases.map (fun b => { b with stepWait := [(5, 0)] }) } }, 5, 0, [], by decide +kernel⟩,
   ⟨{ newt with time := { newt.time with bases := newt.time.bases.map (fun b => { b with stepWait := [(5, 0)] }) } }, 5, 0, [], by decide +kernel⟩,
   ⟨up, 5, by decide +kernel⟩⟩

theorem witness_NowCaptureAndFifo :
  (∃ (s : State) (a : Access) (b : Nat), portTakes s a ∧ 6 ≤ s.rst.step ∧ viewOf a = 0 ∧ b < 4 ∧ hasBase s b = true ∧ aget s.bus.latches (a.rq, Reg.time (.now b 0)) = none) ∧
  (∃ (s : State) (i : Nat), capBase s i = none) ∧
  (∃ (s : State) (i n : Nat), capBase s i = some n ∧ s.time.fifo.length < 64) ∧
  (∃ (s : State) (i n : Nat), capBase s i = some n ∧ 64 ≤ s.time.fifo.length) ∧
  (∃ (s : State) (a : Access) (e : CapEnt) (rest : List CapEnt), portTakes s a ∧ 6 ≤ s.rst.step ∧ s.time.fifo = e :: rest ∧ aget s.bus.latches (a.rq, Reg.time (.cap 0)) = none) ∧
  (∃ (s : State) (a : Access), portTakes s a ∧ 6 ≤ s.rst.step ∧ s.time.fifo = [] ∧ aget s.bus.latches (a.rq, Reg.time (.cap 0)) = none) :=
  ⟨⟨up, acc, 0, by dsimp only [mbxReaches, reaches, viewReaches, portTakes, acc]; decide +kernel⟩,
   ⟨up, 5, by decide +kernel⟩,
   ⟨up, 0x3F, 0, by decide +kernel⟩,
   ⟨{ up with time := { up.time with fifo := List.replicate 64 ⟨0, 0, false, false, 0, ⟨0, 0⟩⟩ } }, 0x3F, 0, by decide +kernel⟩,
   ⟨{ up with time := { up.time with fifo := [⟨0, 0, false, false, 0, ⟨0, 0⟩⟩] } }, acc, ⟨0, 0, false, false, 0, ⟨0, 0⟩⟩, [], by dsimp only [mbxReaches, reaches, viewReaches, portTakes, acc]; decide +kernel⟩,
   ⟨up, acc, by dsimp only [mbxReaches, reaches, viewReaches, portTakes, acc]; decide +kernel⟩⟩

theorem witness_StrobesAndPulsePerSecond :
  (∃ (s : State) (a : Access) (n : Nat), reaches s a 8 ∧ n < Config.capInputs s.integ ∧ n < 32) ∧
  (∃ (s : State) (n : Nat) (k : Strobe), s.time.strobes[n]? = some k ∧ k.armed = true) ∧
  (∃ (s : State) (n : Nat), (∀ k, s.time.strobes[n]? = some k → k.armed = false)) ∧
  (∃ (s : State), (baseAt s 0).stepCount ≠ 0) ∧
  (∃ (s : State), (baseAt s 0).stepCount = 0) ∧
  (∃ (s : State), s.time.ppsHigh = true) ∧
  (∃ (s : State), s.time.ppsHigh = false) :=
  ⟨⟨up, acc, 7, by dsimp only [mbxReaches, reaches, viewReaches, portTakes, acc]; decide +kernel⟩,
   ⟨{ up with time := { up.time with strobes := [⟨true, false, none⟩] } }, 0, ⟨true, false, none⟩, by decide +kernel⟩,
   ⟨up, 99, by intro k h; cases h⟩,
   ⟨{ up with time := { up.time with bases := up.time.bases.map (fun b => { b with stepCount := 1 }) } }, by decide +kernel⟩,
   ⟨up, by decide +kernel⟩,
   ⟨{ up with time := { up.time with ppsHigh := true } }, by decide +kernel⟩,
   ⟨up, by decide +kernel⟩⟩

theorem witness_EpochStrobeBeginsTheNextEpoch :
  (∃ (s : State), s.time.grid.st = .running ∧ s.time.grid.epoch + 1 < 0xFFFFFFFFFFFF ∧ s.flt.active = false ∧ hasImage s = true) ∧
  (∃ (s : State), s.time.grid.st = .running ∧ s.time.grid.epoch + 1 < 0xFFFFFFFFFFFF ∧ s.flt.active = true) ∧
  (∃ (s : State), s.time.grid.st = .running ∧ s.time.grid.epoch + 1 = 0xFFFFFFFFFFFF) ∧
  (∃ (s : State), (s.time.grid.st = .exhausted ∨ s.time.grid.st = .waiting ∧ hasImage s = false)) :=
  ⟨⟨newt, by decide +kernel⟩,
   ⟨{ newt with flt := { newt.flt with active := true } }, by decide +kernel⟩,
   ⟨{ newt with time := { newt.time with grid := { newt.time.grid with epoch := 0xFFFFFFFFFFFE } } }, by decide +kernel⟩,
   ⟨up, by decide +kernel⟩⟩

theorem witness_SamplesBecomeCodeVectors :
  (∃ (s : State) (p : List Nat) (e : Nat) (im : Image) (smp : Sample), asleep s 2 = false ∧ s.feat.cur = none ∧ quiet s = false ∧ s.feat.queue.findSome? (fun q => match q with | .epoch x => some x | .event _ _ _ => none) = some e ∧ imageAt s e = some im ∧ sampleOf s e = some smp) ∧
  (∃ (s : State) (p : List Nat) (e k : Nat) (v : EvSample) (rest : List FeatIn) (im : Image), asleep s 2 = false ∧ s.feat.cur = none ∧ quiet s = false ∧ s.feat.queue = .event e k v :: rest ∧ (∀ x, FeatIn.epoch x ∉ s.feat.queue) ∧ eventSlotsHeld s < eventSlots s ∧ imageAt s e = some im) ∧
  (∃ (s : State) (v : Vec), asleep s 2 = false ∧ s.feat.cur = some v) ∧
  (∃ (s : State) (p : List Nat), asleep s 2 = false ∧ (s.feat.cur ≠ none ∨ quiet s = true)) :=
  ⟨⟨{ newt with feat := { newt.feat with queue := [.epoch 5] }, cap := { newt.cap with frozen := [⟨5, ⟨0, 0⟩, ⟨0, 0⟩, 0, 7, false, false, false, false, [], [], [], [], [], [], [], [], []⟩] } }, [], 5, imageOne 1 0, ⟨5, ⟨0, 0⟩, ⟨0, 0⟩, 0, 7, false, false, false, false, [], [], [], [], [], [], [], [], []⟩, by decide +kernel⟩,
   ⟨{ newt with feat := { newt.feat with queue := [.event 5 0 (.ue 0 0 0)] } }, [], 5, 0, .ue 0 0 0, [], imageOne 1 0, by refine ⟨by decide +kernel, by decide +kernel, by decide +kernel, by decide +kernel, fun x h => ?_, by decide +kernel, by decide +kernel⟩; simp at h⟩,
   ⟨{ newt with feat := { newt.feat with cur := some ⟨1, 0, 5, 0, [], []⟩ } }, ⟨1, 0, 5, 0, [], []⟩, by decide +kernel⟩,
   ⟨{ newt with feat := { newt.feat with cur := some ⟨1, 0, 5, 0, [], []⟩ } }, [], by decide +kernel⟩⟩

theorem witness_NewtRecordsAreFormedInOrder :
  (∃ (s : State) (p : List Nat) (smp : Sample) (im : Image), asleep s 4 = false ∧ asleep s 6 = false ∧ newtDue s = some smp ∧ imageAt s smp.epoch = some im ∧ im.role = 1 ∧ quiet s = false ∧ vectorPending s smp.epoch = false) ∧
  (∃ (s : State) (p : List Nat), asleep s 4 = false ∧ newtDue s = none) :=
  ⟨⟨{ newt with cap := { newt.cap with frozen := [⟨5, ⟨0, 0⟩, ⟨0, 0⟩, 0, 7, false, false, false, false, [], [], [], [], [], [], [], [], []⟩] } }, [], ⟨5, ⟨0, 0⟩, ⟨0, 0⟩, 0, 7, false, false, false, false, [], [], [], [], [], [], [], [], []⟩, imageOne 1 0, by decide +kernel⟩,
   ⟨newt, [], by decide +kernel⟩⟩

theorem witness_DetectorsJudgeEachEpochOnce :
  (∃ (s : State) (d : PassDue) (rest : List PassDue) (im : Image), asleep s 6 = false ∧ s.vrd.due = d :: rest ∧ imageAt s d.epoch = some im ∧ quiet s = false ∧ vectorPending s d.epoch = false ∧ (im.role = 1 ∨ s.red.own.any (fun r => r.epoch == d.epoch) = true)) ∧
  (∃ (s : State), asleep s 6 = false ∧ s.vrd.due = []) ∧
  (∃ (s : State) (im : Image), asleep s 6 = false ∧ s.img.active = some im ∧ quiet s = false ∧ s.vrd.gapNoted = false ∧ im.detect.peerGap ≤ s.vrd.gapRun) ∧
  (∃ (s : State), (s.img.active = none ∨ quiet s = true ∨ s.vrd.gapNoted = true ∨ (∃ im, s.img.active = some im ∧ s.vrd.gapRun < im.detect.peerGap))) :=
  ⟨⟨{ newt with vrd := { newt.vrd with due := [⟨4, true, false⟩] } }, ⟨4, true, false⟩, [], imageOne 1 0, by decide +kernel⟩,
   ⟨newt, by decide +kernel⟩,
   ⟨{ newt with vrd := { newt.vrd with gapRun := 1 } }, imageOne 1 0, by decide +kernel⟩,
   ⟨up, by exact Or.inl rfl⟩⟩

theorem witness_StrandsEnterFreeContexts :
  (∃ (s : State) (lane ctx k : Nat) (j : Job) (st : Strand), laneIn s lane = true ∧ ctx < 8 ∧ contextBusy s lane ctx = false ∧ quiet s = false ∧ asleep s 3 = false ∧ restartOn s lane = none ∧ tierJob s 0 = some (j, k) ∧ jobAt s j.jid = some j ∧ j.strands[k]? = some st) ∧
  (∃ (s : State) (lane ctx : Nat), (laneIn s lane = false ∨ 8 ≤ ctx ∨ contextBusy s lane ctx = true ∨ quiet s = true)) :=
  ⟨⟨{ newt with leap := { newt.leap with jobs := [⟨1, 2, 0x99, 3, 0, 0, 0, 0, false, true, false, 0, ⟨1, 0, 5, 0, [], []⟩, [⟨0, 0, 0, 0, none, [], 0, none, 0, 0, 0, 0, 0, false⟩], none, []⟩] } }, 0, 0, 0, ⟨1, 2, 0x99, 3, 0, 0, 0, 0, false, true, false, 0, ⟨1, 0, 5, 0, [], []⟩, [⟨0, 0, 0, 0, none, [], 0, none, 0, 0, 0, 0, 0, false⟩], none, []⟩, ⟨0, 0, 0, 0, none, [], 0, none, 0, 0, 0, 0, 0, false⟩, by decide +kernel⟩,
   ⟨up, 99, 0, by decide +kernel⟩⟩

theorem witness_ALeapFollowsTheMatchingEntry :
  (∃ (s : State) (x : LeapIssue) (ctx : Nat) (j : Job) (k : Nat) (t0 : Strand) (r : Tree) (m : Nat) (e : Ent), laneIn s x.lane = true ∧ quiet s = false ∧ asleep s 3 = false ∧ x.upset = 0 ∧ x.fixed = [] ∧ lookupD s.leap.inj x.lane 0 = 0 ∧ pickCtx s x.lane (issueCycle s [x]) = some ctx ∧ strandIn s x.lane ctx = some (j, k, t0) ∧ jobAt s j.jid = some j ∧ (copyAt s j.cid).trees[t0.tree]? = some r ∧ (r.retired = false ∨ t0.pad.isSome) ∧ let p := padOf (copyAt s j.cid) t0
    let pad := padEnts (entAt s) p.1 p.2
    let code := codeOfCtx s x.lane ctx j.vec
    parityFails pad code = false ∧ matchesOf pad (decisionVector pad code.vec) = [m] ∧ pad[m]? = some e ∧ payKind e.payload = 0) ∧
  (∃ (s : State) (x : LeapIssue) (ctx : Nat) (j : Job) (k : Nat) (t0 : Strand) (m : Nat) (e : Ent) (r next : Tree), laneIn s x.lane = true ∧ quiet s = false ∧ asleep s 3 = false ∧ x.upset = 0 ∧ x.fixed = [] ∧ lookupD s.leap.inj x.lane 0 = 0 ∧ pickCtx s x.lane (issueCycle s [x]) = some ctx ∧ strandIn s x.lane ctx = some (j, k, t0) ∧ jobAt s j.jid = some j ∧ let c := copyAt s j.cid
    let p := padOf c t0
    let pad := padEnts (entAt s) p.1 p.2
    let code := codeOfCtx s x.lane ctx j.vec
    c.trees[t0.tree]? = some r ∧ (r.retired = false ∨ t0.pad.isSome) ∧ c.trees[t0.tree + 8]? = some next ∧ next.retired = false ∧ parityFails pad code = false ∧ matchesOf pad (decisionVector pad code.vec) = [m] ∧ pad[m]? = some e ∧ payKind e.payload ≠ 0) ∧
  (∃ (s : State) (l : List LeapIssue), quiet s = true ∧ asleep s 3 = false) :=
  ⟨⟨{ newt with leap := { newt.leap with jobs := [⟨1, 2, 0x99, 3, 0, 0, 0, 0, false, true, false, 0, ⟨1, 0, 5, 0, [], []⟩, [⟨1, 0, 0, 0, none, [], 0, none, 0, 0, 0, 0, 0, false⟩], none, []⟩], copies := [⟨2, 3, 0x99, 0, 0, 1, 1, 1, false, true, false, false, [⟨0, 0, 0, false, 0⟩, ⟨0, 0, 0, false, 0⟩, ⟨0, 0, 0, false, 0⟩, ⟨0, 0, 0, false, 0⟩, ⟨0, 0, 0, false, 0⟩, ⟨0, 0, 0, false, 0⟩, ⟨0, 0, 0, false, 0⟩, ⟨0, 0, 0, false, 0⟩, ⟨0, 0, 0, false, 0⟩], [], [], ⟨0, 0, 0, 0, [], [], []⟩⟩], ents := [(0, ⟨2 ^ 63, 2 ^ 63, 0, 0⟩)] } }, ⟨0, 0, []⟩, 0, ⟨1, 2, 0x99, 3, 0, 0, 0, 0, false, true, false, 0, ⟨1, 0, 5, 0, [], []⟩, [⟨1, 0, 0, 0, none, [], 0, none, 0, 0, 0, 0, 0, false⟩], none, []⟩, 0, ⟨1, 0, 0, 0, none, [], 0, none, 0, 0, 0, 0, 0, false⟩, ⟨0, 0, 0, false, 0⟩, 0, ⟨2 ^ 63, 2 ^ 63, 0, 0⟩, by decide +kernel⟩,
   ⟨{ newt with leap := { newt.leap with jobs := [⟨1, 2, 0x99, 3, 0, 0, 0, 0, false, true, false, 0, ⟨1, 0, 5, 0, [], []⟩, [⟨1, 0, 0, 0, none, [], 0, none, 0, 0, 0, 0, 0, false⟩], none, []⟩], copies := [⟨2, 3, 0x99, 0, 0, 1, 1, 1, false, true, false, false, [⟨0, 0, 0, false, 0⟩, ⟨0, 0, 0, false, 0⟩, ⟨0, 0, 0, false, 0⟩, ⟨0, 0, 0, false, 0⟩, ⟨0, 0, 0, false, 0⟩, ⟨0, 0, 0, false, 0⟩, ⟨0, 0, 0, false, 0⟩, ⟨0, 0, 0, false, 0⟩, ⟨0, 0, 0, false, 0⟩], [], [], ⟨0, 0, 0, 0, [], [], []⟩⟩], ents := [(0, ⟨2 ^ 63, 2 ^ 63, 2 ^ 62, 0⟩)] } }, ⟨0, 0, []⟩, 0, ⟨1, 2, 0x99, 3, 0, 0, 0, 0, false, true, false, 0, ⟨1, 0, 5, 0, [], []⟩, [⟨1, 0, 0, 0, none, [], 0, none, 0, 0, 0, 0, 0, false⟩], none, []⟩, 0, ⟨1, 0, 0, 0, none, [], 0, none, 0, 0, 0, 0, 0, false⟩, 0, ⟨2 ^ 63, 2 ^ 63, 2 ^ 62, 0⟩, ⟨0, 0, 0, false, 0⟩, ⟨0, 0, 0, false, 0⟩, by decide +kernel⟩,
   ⟨{ up with flt := { up.flt with active := true } }, [], by decide +kernel⟩⟩

theorem witness_JobsEndWithTheirOutputs :
  (∃ (s : State) (j : Job), jobAt s j.jid = some j ∧ jobLive j = true ∧ j.cid ≠ 0 ∧ j.strands.all (fun t => t.st == 2) = true ∧ quiet s = false ∧ asleep s 3 = false) ∧
  (∃ (s : State) (jid : Nat), asleep s 3 = false ∧ (jobAt s jid = none ∨ quiet s = true ∨ (∃ j, jobAt s jid = some j ∧ (jobLive j = false ∨ j.cid = 0 ∨ j.strands.any (fun t => t.st != 2) = true)))) :=
  ⟨⟨{ newt with leap := { newt.leap with jobs := [⟨1, 2, 0x99, 3, 0, 0, 0, 0, false, true, false, 0, ⟨1, 0, 5, 0, [], []⟩, [⟨2, 0, 0, 0, none, [], 0, none, 0, 0, 0, 0, 0, false⟩], none, []⟩], copies := [⟨2, 3, 0x99, 0, 0, 1, 1, 1, false, true, false, false, [], [], [], ⟨0, 0, 0, 0, [], [], []⟩⟩] } }, ⟨1, 2, 0x99, 3, 0, 0, 0, 0, false, true, false, 0, ⟨1, 0, 5, 0, [], []⟩, [⟨2, 0, 0, 0, none, [], 0, none, 0, 0, 0, 0, 0, false⟩], none, []⟩, by decide +kernel⟩,
   ⟨up, 1, by exact ⟨by decide +kernel, Or.inl (by decide +kernel)⟩⟩⟩

theorem witness_LeapScrubAndInjection :
  (∃ (s : State) (i : Nat), i < s.integ.cam ∧ quiet s = false ∧ asleep s 3 = false) ∧
  (∃ (s : State) (i n : Nat), asleep s 3 = false ∧ (s.integ.cam ≤ i ∨ quiet s = true)) ∧
  (∃ (s : State) (i : Nat), asleep s 3 = false) ∧
  (∃ (s : State) (a : Access) (d : Word), reaches s a 3) ∧
  (∃ (s : State) (a : Access) (d : Word), reaches s a 3) :=
  ⟨⟨{ up with boot := { up.boot with st := 4 } }, 32767, by decide +kernel⟩,
   ⟨up, 32768, 0, by decide +kernel⟩,
   ⟨up, 7, by decide +kernel⟩,
   ⟨up, acc, 0, by dsimp only [mbxReaches, reaches, viewReaches, portTakes, acc]; decide +kernel⟩,
   ⟨up, acc, 0, by dsimp only [mbxReaches, reaches, viewReaches, portTakes, acc]; decide +kernel⟩⟩

theorem witness_HotSetCommands :
  (∃ (s : State) (a : Access), reaches s a 3 ∧ rwGet s .leapHotSel < Config.models s.integ) ∧
  (∃ (s : State) (a : Access), reaches s a 3 ∧ Config.models s.integ ≤ rwGet s .leapHotSel) ∧
  (∃ (s : State) (a : Access) (n : Nat), reaches s a 3 ∧ bundleNumber s (rwGet s .leapHotArg) = some n) ∧
  (∃ (s : State) (a : Access) (n : Nat), reaches s a 3 ∧ bundleNumber s (rwGet s .leapHotArg) = none ∧ demanded s (rwGet s .leapHotArg) = false ∧ s.rst.keyState = 1 ∧ rwGet s .leapBundleCount ≠ 0 ∧ emptyNumber s = some n ∧ (modelAt s n).serving = none ∧ (∀ y ∈ s.leap.loads, y.lid ≤ s.leap.loadSeq)) ∧
  (∃ (s : State) (a : Access), reaches s a 3 ∧ tablePinned s (rwGet s .leapHotSel) = true) ∧
  (∃ (s : State) (a : Access), reaches s a 3 ∧ tablePinned s (rwGet s .leapHotSel) = false ∧ (modelAt s (rwGet s .leapHotSel)).st ≠ 0 ∧ (modelAt s (rwGet s .leapHotSel)).st ≠ 7) ∧
  (∃ (s : State) (a : Access), reaches s a 3 ∧ (modelAt s (rwGet s .leapHotSel)).st ≠ 5) ∧
  (∃ (s : State) (a : Access) (x : Shadow), reaches s a 3 ∧ let n := rwGet s .leapHotSel
    (modelAt s n).st = 5 ∧ shadowOf s n (modelAt s n) = some x ∧ s.leap.loads.any (fun l => l.model == some n) = false) ∧
  (∃ (s : State) (a : Access), reaches s a 3 ∧ (modelAt s (rwGet s .leapHotSel)).st = 5 ∧ s.leap.loads.any (fun l => l.model == some (rwGet s .leapHotSel)) = true) :=
  ⟨⟨{ up with rw := [(.leapHotSel, 15)] }, acc, by dsimp only [mbxReaches, reaches, viewReaches, portTakes, acc]; decide +kernel⟩,
   ⟨{ up with rw := [(.leapHotSel, 16)] }, acc, by dsimp only [mbxReaches, reaches, viewReaches, portTakes, acc]; decide +kernel⟩,
   ⟨{ up with rw := [(.leapHotArg, 0x99)], leap := { up.leap with models := [(3, ⟨2, 0x99, false, none, none, 0, none, false, false, 0⟩)] } }, acc, 3, by dsimp only [mbxReaches, reaches, viewReaches, portTakes, acc]; decide +kernel⟩,
   ⟨{ up with rst := { up.rst with keyState := 1 }, rw := [(.leapBundleCount, 4)] }, acc, 0, by dsimp only [mbxReaches, reaches, viewReaches, portTakes, acc]; decide +kernel⟩,
   ⟨{ runs up { imageOne 1 0 with epochtab := some ⟨0, [⟨0x99, 0, 3, 0, 0, 1, 0, 0⟩], []⟩ } with rw := [(.leapHotSel, 3)] }, acc, by dsimp only [mbxReaches, reaches, viewReaches, portTakes, acc]; decide +kernel⟩,
   ⟨{ up with rw := [(.leapHotSel, 3)], leap := { up.leap with models := [(3, ⟨2, 0x99, false, none, none, 0, none, false, false, 0⟩)] } }, acc, by dsimp only [mbxReaches, reaches, viewReaches, portTakes, acc]; decide +kernel⟩,
   ⟨up, acc, by dsimp only [mbxReaches, reaches, viewReaches, portTakes, acc]; decide +kernel⟩,
   ⟨{ up with rw := [(.leapHotSel, 3)], leap := { up.leap with models := [(3, ⟨5, 0x99, false, none, none, 0, none, false, false, 0⟩)], shadows := [⟨0x99, some 3, []⟩] } }, acc, ⟨0x99, some 3, []⟩, by dsimp only [mbxReaches, reaches, viewReaches, portTakes, acc]; decide +kernel⟩,
   ⟨{ up with rw := [(.leapHotSel, 3)], leap := { up.leap with models := [(3, ⟨5, 0x99, false, none, none, 0, none, false, false, 0⟩)], loads := [⟨1, 0x99, some 3, none, false, false, false, false, false, false, .fetched, 0, 0, [], none⟩] } }, acc, by dsimp only [mbxReaches, reaches, viewReaches, portTakes, acc]; decide +kernel⟩⟩

theorem witness_BundlesAreVerifiedBeforeTheyServe :
  (∃ (s : State) (x : Load) (n : Nat), s.leap.loads.find? (fun y => y.phase == .fetched) = some x ∧ x.model = some n) ∧
  (∃ (s : State), (∀ y ∈ s.leap.loads, y.phase ≠ .fetched)) ∧
  (∃ (s : State) (x : Load) (n : Nat), s.leap.loads.find? (fun y => y.phase == .verify) = some x ∧ x.model = some n ∧ asleep s 3 = false) ∧
  (∃ (s : State), asleep s 3 = false ∧ (∀ y ∈ s.leap.loads, y.phase ≠ .verify)) ∧
  (∃ (s : State) (x : Load) (cid : Nat), s.leap.loads.find? (fun y => y.phase == .install) = some x ∧ x.copy = some cid ∧ (modelAt s (copyAt s cid).model).serving = none ∧ (modelAt s (copyAt s cid).model).atEdge = false ∧ (modelAt s (copyAt s cid).model).st ≠ 7 ∧ x.staged = false ∧ asleep s 3 = false ∧ s.leap.copies.any (fun c => c.cid == cid) = true) ∧
  (∃ (s : State) (x : Load) (cid i : Nat), s.leap.loads.find? (fun y => y.phase == .install) = some x ∧ x.copy = some cid ∧ asleep s 3 = false ∧ s.leap.copies.any (fun c => c.cid == cid) = true) ∧
  (∃ (s : State) (b : Option Nat), asleep s 3 = false ∧ (∀ y ∈ s.leap.loads, y.phase ≠ .install)) :=
  ⟨⟨{ newt with leap := { newt.leap with loads := [⟨1, 0x99, some 3, none, false, false, false, false, false, false, .fetched, 0, 0, [], none⟩] } }, ⟨1, 0x99, some 3, none, false, false, false, false, false, false, .fetched, 0, 0, [], none⟩, 3, by decide +kernel⟩,
   ⟨newt, by decide +kernel⟩,
   ⟨{ newt with leap := { newt.leap with loads := [⟨1, 0x99, some 3, none, false, false, false, false, false, false, .verify, 0, 0, [], none⟩] } }, ⟨1, 0x99, some 3, none, false, false, false, false, false, false, .verify, 0, 0, [], none⟩, 3, by decide +kernel⟩,
   ⟨newt, by decide +kernel⟩,
   ⟨{ newt with leap := { newt.leap with loads := [⟨1, 0x99, some 3, none, false, false, false, false, false, false, .install, 0, 0, [], some 2⟩], copies := [⟨2, 3, 0x99, 0, 0, 1, 1, 1, false, true, false, false, [], [], [], ⟨0, 0, 0, 0, [], [], []⟩⟩] } }, ⟨1, 0x99, some 3, none, false, false, false, false, false, false, .install, 0, 0, [], some 2⟩, 2, by decide +kernel⟩,
   ⟨{ newt with leap := { newt.leap with loads := [⟨1, 0x99, some 3, none, false, false, false, false, false, false, .install, 0, 0, [], some 2⟩], copies := [⟨2, 3, 0x99, 0, 0, 1, 1, 1, false, true, false, false, [], [], [], ⟨0, 0, 0, 0, [], [], []⟩⟩] } }, ⟨1, 0x99, some 3, none, false, false, false, false, false, false, .install, 0, 0, [], some 2⟩, 2, 5, by decide +kernel⟩,
   ⟨newt, none, by decide +kernel⟩⟩

theorem witness_SegmentsMakeRecords :
  (∃ (s : State) (p : Nat) (b : Bytes) (down : Bool), rxClosed s p = false ∧ mmQuiet s = false ∧ frameFails s p false b = none ∧ s.mir.sync ≠ 1 ∧ let f := frameAt b
    let n := cellsOf (4 * f.len)
    let idx := f.seg / 2 ^ 20
    let last := f.seg / 2 ^ 8 % 2 ^ 12
    let seq := f.seg % 2 ^ 8
    let k := portAt s p
    f.ty = (if down then tyDown else tyRecord)) ∧
  (∃ (s : State) (p : Nat) (b : Bytes) (c : IlkCnt), rxClosed s p = false ∧ frameFails s p false b = some c ∧ s.mir.sync ≠ 1) ∧
  (∃ (s : State) (p : Nat) (b : Bytes), rxClosed s p = false ∧ mmQuiet s = false ∧ frameFails s p false b = none ∧ s.mir.sync = 1 ∧ kindOfPort s p = 4 ∧ (portAt s p).reUp = none ∧ (frameAt b).ty = tyRecord ∧ (frameAt b).seg / 2 ^ 20 = 0 ∧ (frameAt b).seg / 2 ^ 8 % 2 ^ 12 ≠ 0 ∧ mirKind (frameAt b).payload = 3) ∧
  (∃ (s : State) (p : Nat) (e : Bool) (b : Bytes) (c : IlkCnt), rxClosed s p = false ∧ frameFails s p e b = some c) ∧
  (∃ (s : State) (p : Nat) (e : Bool) (b : Bytes), (rxClosed s p = true ∨ frameFails s p e b = none)) :=
  ⟨⟨newt, 0, frameOf tyRecord 7 256 [], false, by decide +kernel⟩,
   ⟨newt, 1, [], .lenBad, by decide +kernel⟩,
   ⟨{ spire with mir := { spire.mir with sync := 1 } }, 2, frameOf tyRecord 8 256 [0, 0, 3, 0], by decide +kernel⟩,
   ⟨newt, 1, true, [], .rxErr, by decide +kernel⟩,
   ⟨up, 2, true, [], by decide +kernel⟩⟩

theorem witness_RecordsAreCheckedThenMergedOrDropped :
  (∃ (s : State) (p : Nat) (r : RxRec) (rest : List RxRec), (portAt s p).rxUp = r :: rest ∧ quiet s = false ∧ kindOfPort s p ≠ 4 ∧ asleep s 4 = false ∧ asleep s 5 = false ∧ (∀ w, lowestOpen s = some w → w.x < s.time.grid.epoch → (tb0Tick s : Int) < sealDeadline s w.x)) ∧
  (∃ (s : State) (p : Nat), asleep s 4 = false ∧ asleep s 5 = false ∧ ((portAt s p).rxUp = [] ∨ quiet s = true ∨ kindOfPort s p = 4)) :=
  ⟨⟨atPort spire 1 (fun k => { k with rxUp := [⟨5, [], 1⟩] }), 1, ⟨5, [], 1⟩, [], by decide +kernel⟩,
   ⟨spire, 1, by decide +kernel⟩⟩

theorem witness_TheSealFormsTheMergedRecord :
  (∃ (s : State) (fs : List MergeFault) (w : EpochWork) (im : Image), lowestOpen s = some w ∧ quiet s = false ∧ asleep s 5 = false ∧ w.x < s.time.grid.epoch ∧ imageAt s w.x = some im) ∧
  (∃ (s : State) (fs : List MergeFault), asleep s 5 = false ∧ (quiet s = true ∨ lowestOpen s = none ∨ (∃ w, lowestOpen s = some w ∧ s.time.grid.epoch ≤ w.x))) ∧
  (∃ (s : State) (r : Record) (fs : List Field) (rest : List (Record × List Field)) (im : Image), s.sealing.ready = (r, fs) :: rest ∧ quiet s = false ∧ asleep s 4 = false ∧ imageAt s r.epoch = some im) ∧
  (∃ (s : State), asleep s 4 = false ∧ (s.sealing.ready = [] ∨ quiet s = true)) ∧
  (∃ (s : State), asleep s 5 = false) :=
  ⟨⟨{ spire with sealing := { spire.sealing with works := [⟨4, true, false, 0, [], [], [], [], [], [], false⟩] } }, [], ⟨4, true, false, 0, [], [], [], [], [], [], false⟩, imageOne 2 1, by decide +kernel⟩,
   ⟨up, [], by exact ⟨by decide +kernel, Or.inr (Or.inl (by decide +kernel))⟩⟩,
   ⟨{ spire with sealing := { spire.sealing with ready := [(⟨1, 7, false, false, false, false, false, 4, 42, 1, ⟨0, 0⟩, ⟨0, 0⟩, ⟨false, false, false, false, false, false, 0, 0, 0, 0, 0, 0, 0, 0, 0, 0, []⟩, [], none, none, [], []⟩, [])] } }, ⟨1, 7, false, false, false, false, false, 4, 42, 1, ⟨0, 0⟩, ⟨0, 0⟩, ⟨false, false, false, false, false, false, 0, 0, 0, 0, 0, 0, 0, 0, 0, 0, []⟩, [], none, none, [], []⟩, [], [], imageOne 2 1, by decide +kernel⟩,
   ⟨spire, by decide +kernel⟩,
   ⟨up, by decide +kernel⟩⟩

theorem witness_DownRecordsAreKeptOnceAndResent :
  (∃ (s : State) (p : Nat) (r : RxRec) (rest : List RxRec), (portAt s p).rxDown = r :: rest ∧ quiet s = false ∧ asleep s 4 = false) ∧
  (∃ (s : State) (p : Nat), asleep s 4 = false ∧ ((portAt s p).rxDown = [] ∨ quiet s = true)) ∧
  (∃ (s : State) (im : Image) (x q : Nat), gridRuns s = true ∧ mmQuiet s = false ∧ s.img.active = some im ∧ im.role ≠ 3 ∧ needsDown im = true ∧ x + 1 = s.time.grid.epoch ∧ (∀ y, y < x → s.red.downs.any (fun d => d.epoch == y) = true ∨ downWait s y < tb0Tick s) ∧ s.red.downs.any (fun d => d.epoch == x) = false ∧ activeUplink s = some q ∧ (entOfPort s q).isSome = true ∧ (aget (portAt s q).asked (x, 2)).getD 0 < 2) ∧
  (∃ (s : State), (gridRuns s = false ∨ mmQuiet s = true ∨ s.time.grid.epoch = 0 ∨ roleOf s = 3 ∨ s.img.active.any needsDown = false)) ∧
  (∃ (s : State) (p : Nat) (b : Bytes), rxClosed s p = false ∧ mmQuiet s = false ∧ frameFails s p false b = none ∧ (frameAt b).ty = tyResend) :=
  ⟨⟨atPort newt 0 (fun k => { k with rxDown := [⟨5, [], 1⟩] }), 0, ⟨5, [], 1⟩, [], by decide +kernel⟩,
   ⟨newt, 0, by decide +kernel⟩,
   ⟨{ runs up { imageOne 1 0 with detect := detectOne [⟨3, 1, 1, 0, 0, 0, 0, 0, 0, 0, 0, 0, 0, 0⟩] } with time := { newt.time with grid := { newt.time.grid with epoch := 1 } }, ilk := { up.ilk with active := 0 } }, { imageOne 1 0 with detect := detectOne [⟨3, 1, 1, 0, 0, 0, 0, 0, 0, 0, 0, 0, 0, 0⟩] }, 0, 0, by decide +kernel⟩,
   ⟨up, by exact Or.inl (by decide +kernel)⟩,
   ⟨newt, 0, frameOf tyResend 7 0 [0, 0, 0, 0, 0, 0, 0, 4, 0, 0, 0, 0], by decide +kernel⟩⟩

theorem witness_HeartbeatsRaiseAndLoseAPort :
  (∃ (s : State) (p : Nat) (e : PortEnt), entOfPort s p = some e ∧ mmQuiet s = false ∧ (portAt s p).linkUp = true) ∧
  (∃ (s : State) (p : Nat), (entOfPort s p = none ∨ mmQuiet s = true ∨ (portAt s p).linkUp = false)) ∧
  (∃ (s : State) (p : Nat) (b : Bytes), rxClosed s p = false ∧ mmQuiet s = false ∧ frameFails s p false b = none ∧ (frameAt b).ty = tyHeart) ∧
  (∃ (s : State) (p : Nat), (portAt s p).lstate = 2 ∧ mmQuiet s = false) ∧
  (∃ (s : State) (p : Nat), ((portAt s p).lstate ≠ 2 ∨ mmQuiet s = true)) ∧
  (∃ (s : State) (p : Nat), portAbsent s p = false ∧ (portAt s p).lstate = 2) ∧
  (∃ (s : State) (p : Nat), portAbsent s p = false ∧ (portAt s p).lstate ≠ 2) ∧
  (∃ (s : State) (p : Nat), portAbsent s p = true) ∧
  (∃ (s : State) (p : Nat), portAbsent s p = false) ∧
  (∃ (s : State) (p : Nat), 128 ≤ p ∧ (portAt s p).linkUp = false ∧ (portAt s p).queue ≠ []) ∧
  (∃ (s : State) (p : Nat), (p < 128 ∨ (portAt s p).linkUp = true)) :=
  ⟨⟨atPort newt 0 (fun k => { k with linkUp := true }), 0, portOne 0 1 7, by decide +kernel⟩,
   ⟨newt, 9, by decide +kernel⟩,
   ⟨newt, 0, frameOf tyHeart 7 0 (zeros 16), by decide +kernel⟩,
   ⟨atPort newt 0 (fun k => { k with lstate := 2 }), 0, by decide +kernel⟩,
   ⟨newt, 0, by decide +kernel⟩,
   ⟨atPort newt 0 (fun k => { k with lstate := 2 }), 0, by decide +kernel⟩,
   ⟨newt, 0, by decide +kernel⟩,
   ⟨newt, 2, by decide +kernel⟩,
   ⟨newt, 1, by decide +kernel⟩,
   ⟨atPort newt 130 (fun k => { k with queue := [⟨2, 2, 0, none, 0, [], none⟩] }), 130, by decide +kernel⟩,
   ⟨newt, 127, by decide +kernel⟩⟩

theorem witness_FramesStartInOrderAtTheGate :
  (∃ (s0 : State) (p : Nat) (e : PortEnt), entOfPort s0 p = some e ∧ mmQuiet s0 = false ∧ (portAt s0 p).linkUp = true) ∧
  (∃ (s : State) (p : Nat) (e : PortEnt), entOfPort s p = some e ∧ (mmQuiet s = true ∨ (portAt s p).linkUp = false)) ∧
  (∃ (s : State) (p : Nat), entOfPort s p = none) ∧
  (∃ (s : State) (p : Nat) (e : PortEnt) (g : GateList) (w : Int × Int) (rest : List (Int × Int)), entOfPort s p = some e ∧ gateOf s p = some g ∧ gateCloses g = true ∧ mmQuiet s = false ∧ windowsFrom s g (tb0Tick s) 0 = w :: rest) ∧
  (∃ (s : State) (p : Nat), (entOfPort s p = none ∨ gateOf s p = none ∨ mmQuiet s = true ∨ (∃ g, gateOf s p = some g ∧ gateCloses g = false))) ∧
  (∃ (s : State) (p : Nat), uplinkPort s 0 = some p) ∧
  (∃ (s : State), uplinkPort s 0 = none) :=
  ⟨⟨atPort newt 0 (fun k => { k with linkUp := true }), 0, portOne 0 1 7, by decide +kernel⟩,
   ⟨newt, 0, portOne 0 1 7, by decide +kernel⟩,
   ⟨newt, 99, by decide +kernel⟩,
   ⟨{ newt with ilk := { newt.ilk with gates := [⟨0, 1000000, 0, [(true, 500000), (false, 500000)]⟩] } }, 0, portOne 0 1 7, ⟨0, 1000000, 0, [(true, 500000), (false, 500000)]⟩, (0, 512000000), [(1024000000, 1536000000), (2048000000, 2560000000)], by decide +kernel⟩,
   ⟨newt, 9, by exact Or.inl (by decide +kernel)⟩,
   ⟨newt, 0, by decide +kernel⟩,
   ⟨up, by decide +kernel⟩⟩

theorem witness_BroadcastsAreTakenForwardedAndAnswered :
  (∃ (s : State) (a : Access), reaches s a 7 ∧ roleOf s = 3 ∧ bcPending s = false ∧ tb0Ns s + (s.img.active.map (·.node.hmax)).getD 0 * 8000 ≤ bcWord s .bcAckby) ∧
  (∃ (s : State) (a : Access), reaches s a 7 ∧ roleOf s = 3 ∧ (bcPending s = true ∨ bcWord s .bcAckby < tb0Ns s + (s.img.active.map (·.node.hmax)).getD 0 * 8000)) ∧
  (∃ (s : State) (p : Nat) (f0 : Bytes), rxClosed s p = false ∧ mmQuiet s = false ∧ asleep s 14 = false ∧ frameFails s p false f0 = none ∧ (frameAt f0).ty = tyStart) ∧
  (∃ (s : State) (p : Nat) (f0 : Bytes), rxClosed s p = false ∧ mmQuiet s = false ∧ asleep s 14 = false ∧ frameFails s p false f0 = none ∧ (frameAt f0).ty = tyActivate) ∧
  (∃ (s : State) (p : Nat) (f0 : Bytes) (c : ChildEnt) (k : Bcast), rxClosed s p = false ∧ mmQuiet s = false ∧ asleep s 14 = false ∧ frameFails s p false f0 = none ∧ (frameAt f0).ty = tyAck ∧ let f := frameAt f0
    childNode (topoOf s) f.src = some c ∧ c.standby = false ∧ (byteAt f.payload 5).testBit 2 = false ∧ s.ilk.bcasts.find? (fun x => x.act == (byteAt f.payload 4 == 1) && x.id == beAt f.payload 0 4) = some k) ∧
  (∃ (s : State) (p : Nat) (f0 : Bytes), rxClosed s p = false ∧ mmQuiet s = false ∧ asleep s 14 = false ∧ frameFails s p false f0 = none ∧ (frameAt f0).ty = tyAck ∧ childNode (topoOf s) (frameAt f0).src = none) ∧
  (∃ (s : State) (b : Bcast), (sortBy (fun b => ackDeadline s b) (s.ilk.bcasts.filter (fun b => b.sentAck.isNone))).head? = some b ∧ (roleOf s = 1 ∨ roleOf s = 2) ∧ quiet s = false ∧ asleep s 14 = false) ∧
  (∃ (s : State), asleep s 14 = false ∧ ((∀ b ∈ s.ilk.bcasts, b.sentAck.isSome = true) ∨ roleOf s = 3 ∨ roleOf s = 0 ∨ quiet s = true)) ∧
  (∃ (s : State) (b : Bcast), (sortBy (fun b => b.retryAt) (s.ilk.bcasts.filter (fun b => !b.done && decide (b.retryAt < ackDeadline s b)))).head? = some b ∧ 2 ≤ roleOf s ∧ quiet s = false ∧ asleep s 14 = false) ∧
  (∃ (s : State), asleep s 14 = false ∧ ((∀ b ∈ s.ilk.bcasts, b.done = true ∨ ackDeadline s b ≤ b.retryAt) ∨ roleOf s < 2 ∨ quiet s = true)) ∧
  (∃ (s : State) (b : Bcast), s.ilk.bcasts.find? (fun b => b.act == s.ilk.result.act && b.id == s.ilk.result.id) = some b ∧ bcPending s = true ∧ roleOf s = 3 ∧ asleep s 14 = false) ∧
  (∃ (s : State), asleep s 14 = false ∧ (bcPending s = false ∨ roleOf s ≠ 3)) ∧
  (∃ (s : State) (im : Image), s.img.active = some im ∧ im.role = 3 ∧ bcPending s = false ∧ quiet s = false ∧ asleep s 14 = false) ∧
  (∃ (s : State), asleep s 14 = false ∧ (s.img.active = none ∨ roleOf s ≠ 3 ∨ bcPending s = true ∨ quiet s = true)) :=
  ⟨⟨{ dome with rw := [(.bcAckby 0, 999999999), (.bcAckby 1, 9)] }, acc, by dsimp only [mbxReaches, reaches, viewReaches, portTakes, acc]; decide +kernel⟩,
   ⟨dome, acc, by dsimp only [mbxReaches, reaches, viewReaches, portTakes, acc]; decide +kernel⟩,
   ⟨spire, 0, frameOf tyStart 7 0 (zeros 40), by decide +kernel⟩,
   ⟨spire, 0, frameOf tyActivate 7 0 (zeros 40), by decide +kernel⟩,
   ⟨{ spire with ilk := { spire.ilk with bcasts := [⟨false, 0, 0, [], 0, [], [], false, false, none, false, 0, false⟩] } }, 1, frameOf tyAck 9 0 (zeros 16), ⟨9, 1, false, 1, 42⟩, ⟨false, 0, 0, [], 0, [], [], false, false, none, false, 0, false⟩, by decide +kernel⟩,
   ⟨spire, 0, frameOf tyAck 7 0 (zeros 16), by decide +kernel⟩,
   ⟨{ spire with ilk := { spire.ilk with bcasts := [⟨false, 0, 0, [], 0, [], [], false, false, none, false, 0, false⟩] } }, ⟨false, 0, 0, [], 0, [], [], false, false, none, false, 0, false⟩, by decide +kernel⟩,
   ⟨up, by refine ⟨by decide +kernel, Or.inl (by decide +kernel)⟩⟩,
   ⟨{ dome with ilk := { dome.ilk with bcasts := [{ (⟨false, 0, 0, [], 0, [], [], false, false, none, false, 0, false⟩ : Bcast) with ackBy := 99999 }] } }, { (⟨false, 0, 0, [], 0, [], [], false, false, none, false, 0, false⟩ : Bcast) with ackBy := 99999 }, by decide +kernel⟩,
   ⟨up, by decide +kernel⟩,
   ⟨{ dome with ilk := { dome.ilk with bcasts := [⟨false, 0, 0, [], 0, [], [], false, false, none, false, 0, false⟩], result := { dome.ilk.result with outcome := 3 } } }, ⟨false, 0, 0, [], 0, [], [], false, false, none, false, 0, false⟩, by decide +kernel⟩,
   ⟨up, by decide +kernel⟩,
   ⟨dome, imageOne 3 2, by decide +kernel⟩,
   ⟨up, by decide +kernel⟩⟩

theorem witness_VerdictsVotesAndTheirRing :
  (∃ (s : State) (p : Nat) (b : Bytes), rxClosed s p = false ∧ mmQuiet s = false ∧ asleep s 6 = false ∧ frameFails s p false b = none ∧ (frameAt b).ty = tyVerdict) ∧
  (∃ (s : State) (p : Nat) (b : Bytes) (im : Image) (x : Nat), rxClosed s p = false ∧ mmQuiet s = false ∧ asleep s 6 = false ∧ frameFails s p false b = none ∧ (frameAt b).ty = tyPropose ∧ let f := frameAt b
    let v := verdictAt f.payload 8
    tagEpoch s f.tag = some x ∧ f.gen = genAt s x ∧ s.img.active = some im) ∧
  (∃ (s : State) (p : Nat) (b : Bytes) (k : Vote) (x : Nat), rxClosed s p = false ∧ mmQuiet s = false ∧ asleep s 6 = false ∧ frameFails s p false b = none ∧ (frameAt b).ty = tyBallot ∧ let f := frameAt b
    let yes := k.yes + flag (byteAt f.payload 4 == 1)
    tagEpoch s f.tag = some x ∧ f.gen = genAt s x ∧ s.vrd.votes.find? (fun k => k.vid == beAt f.payload 0 4) = some k ∧ k.answered.contains f.src = false ∧ k.members.contains f.src = true ∧ (∀ e ∈ s.vrd.queue, e.ready = true ∨ e.voting.isSome = true)) ∧
  (∃ (s : State) (k : Vote) (e : VEntry), s.vrd.votes.find? (fun x => x.vid == k.vid) = some k ∧ s.vrd.queue = [e] ∧ e.voting = some k.vid ∧ asleep s 6 = false) ∧
  (∃ (s : State) (vid : Nat), asleep s 6 = false ∧ (∀ k ∈ s.vrd.votes, k.vid ≠ vid)) ∧
  (∃ (s : State), mmQuiet s = false ∧ asleep s 6 = false ∧ 2 ≤ vRingSlots s ∧ vRingFull s = false ∧ s.vrd.flying = none) ∧
  (∃ (s : State), asleep s 6 = false ∧ (mmQuiet s = true ∨ (2 ≤ vRingSlots s ∧ (vRingFull s = true ∨ s.vrd.flying.isSome = true)))) ∧
  (∃ (s : State) (a : Access) (d : Word) (e : DetEnt) (lo : Nat), reaches s a 6 ∧ (detSec s).dets[rwGet s .vrdDetSel]? = some e ∧ s.vrd.hHeld = some (rwGet s .vrdDetSel, lo)) ∧
  (∃ (s : State) (p : Nat) (b : Bytes), rxClosed s p = false ∧ mmQuiet s = false ∧ frameFails s p false b = none ∧ (frameAt b).ty = tyPtp) :=
  ⟨⟨spire, 1, frameOf tyVerdict 9 0 (zeros 96), by decide +kernel⟩,
   ⟨spire, 0, frameOf tyPropose 7 0 (zeros 104), imageOne 2 1, 5, by decide +kernel⟩,
   ⟨{ spire with vrd := { spire.vrd with votes := [⟨0, 0, [], [9], 0⟩] } }, 1, frameOf tyBallot 9 0 (zeros 8), ⟨0, 0, [], [9], 0⟩, 5, by decide +kernel⟩,
   ⟨{ spire with vrd := { spire.vrd with votes := [⟨0, 0, [], [9], 0⟩], queue := [⟨⟨0, 0, 0, 0, false, false, false, false, 0, 0, 0, 0, 0, 0, 0, 0, 0, 0, 0, 0, 0, 0, 0, 0, []⟩, 0, none, false, false, some 0⟩] } }, ⟨0, 0, [], [9], 0⟩, ⟨⟨0, 0, 0, 0, false, false, false, false, 0, 0, 0, 0, 0, 0, 0, 0, 0, 0, 0, 0, 0, 0, 0, 0, []⟩, 0, none, false, false, some 0⟩, by decide +kernel⟩,
   ⟨up, 3, by decide +kernel⟩,
   ⟨{ dome with rw := [(.vrdRingCfg, 4)] }, by decide +kernel⟩,
   ⟨up, by decide +kernel⟩,
   ⟨{ runs up { imageOne 1 0 with detect := detectOne [⟨1, 0, 1, 0, 0, 0, 0, 0, 0, 0, 0, 0, 0, 0⟩] } with vrd := { up.vrd with hHeld := some (0, 0) } }, acc, 0, ⟨1, 0, 1, 0, 0, 0, 0, 0, 0, 0, 0, 0, 0, 0⟩, 0, by dsimp only [mbxReaches, reaches, viewReaches, portTakes, acc]; decide +kernel⟩,
   ⟨newt, 0, frameOf tyPtp 7 0 (zeros 44), by decide +kernel⟩⟩

theorem witness_MergeScrubAndRewriteOfTheBanks :
  (∃ (s : State) (b : Nat) (e : MergeEnt) (rest : List MergeEnt), (bankAt s b).merge = e :: rest ∧ asleep s 12 = false) ∧
  (∃ (s : State) (b : Nat), asleep s 12 = false ∧ (bankAt s b).merge = []) ∧
  (∃ (s : State) (b : Nat), b < s.mem.banks.length ∧ asleep s 12 = false) ∧
  (∃ (s : State) (b : Nat), asleep s 12 = false ∧ s.mem.banks.length ≤ b) ∧
  (∃ (s : State) (b i : Nat) (rest : List Nat), (bankAt s b).fix = i :: rest ∧ asleep s 12 = false) ∧
  (∃ (s : State) (b : Nat), asleep s 12 = false ∧ (bankAt s b).fix = []) ∧
  (∃ (s : State) (b i : Nat) (rest : List Nat) (h : Struck), (bankAt s b).rewrite = i :: rest ∧ asleep s 12 = false) ∧
  (∃ (s : State) (b : Nat), (bankAt s b).rewrite = [] ∧ asleep s 12 = false ∧ s.flt.active = false) ∧
  (∃ (s : State) (a : Access), reaches s a 12) ∧
  (∃ (s : State) (a : Access) (d : Word), reaches s a 12) :=
  ⟨⟨{ up with mem := { up.mem with banks := [{ bankNone with merge := [⟨0, [], 0⟩] }] } }, 0, ⟨0, [], 0⟩, [], by decide +kernel⟩,
   ⟨up, 0, by decide +kernel⟩,
   ⟨up, 5, by decide +kernel⟩,
   ⟨up, 6, by decide +kernel⟩,
   ⟨{ up with mem := { up.mem with banks := [{ bankNone with fix := [3] }] } }, 0, 3, [], by decide +kernel⟩,
   ⟨up, 0, by decide +kernel⟩,
   ⟨{ up with mem := { up.mem with banks := [{ bankNone with rewrite := [3] }] } }, 0, 3, [], .data, by decide +kernel⟩,
   ⟨up, 0, by decide +kernel⟩,
   ⟨up, acc, by dsimp only [mbxReaches, reaches, viewReaches, portTakes, acc]; decide +kernel⟩,
   ⟨up, acc, 0, by dsimp only [mbxReaches, reaches, viewReaches, portTakes, acc]; decide +kernel⟩⟩

theorem witness_FaultsAndFailSilence :
  (∃ (s : State) (a : Access), portTakes s a ∧ 6 ≤ s.rst.step ∧ asleep s 14 = false) ∧
  (∃ (s : State) (a : Access) (d : Word), reaches s a 14) ∧
  (∃ (s : State), quiet s = false ∧ hasImage s = true ∧ gridRuns s = true) ∧
  (∃ (s : State), (quiet s = true ∨ hasImage s = false ∨ gridRuns s = false)) :=
  ⟨⟨up, acc, by dsimp only [mbxReaches, reaches, viewReaches, portTakes, acc]; decide +kernel⟩,
   ⟨up, acc, 0, by dsimp only [mbxReaches, reaches, viewReaches, portTakes, acc]; decide +kernel⟩,
   ⟨newt, by decide +kernel⟩,
   ⟨up, by decide +kernel⟩⟩

theorem witness_MirrorsAndTheSyncOfASpare :
  (∃ (s : State) (p : Nat) (r : RxRec) (rest : List RxRec), (portAt s p).rxUp = r :: rest ∧ quiet s = false ∧ kindOfPort s p = 4 ∧ 2 ≤ roleOf s ∧ asleep s 14 = false) ∧
  (∃ (s : State) (p : Nat), asleep s 14 = false ∧ ((portAt s p).rxUp = [] ∨ quiet s = true ∨ kindOfPort s p ≠ 4 ∨ roleOf s < 2)) ∧
  (∃ (s : State) (im : Image) (p : Nat), s.img.active = some im ∧ mirrorPort im = some p ∧ s.mir.sync = 0 ∧ s.mir.decided = false ∧ portUp s p = true ∧ gridRuns s = true ∧ quiet s = false ∧ asleep s 14 = false) ∧
  (∃ (s : State), asleep s 14 = false ∧ (s.mir.sync ≠ 0 ∨ s.mir.decided = true ∨ gridRuns s = false ∨ quiet s = true ∨ s.img.active = none)) ∧
  (∃ (s : State), syncOpen s = true ∧ asleep s 14 = false) ∧
  (∃ (s : State), syncOpen s = false ∧ asleep s 14 = false) ∧
  (∃ (s : State), s.mir.sync = 5 ∧ s.mir.left = 0 ∧ asleep s 14 = false) ∧
  (∃ (s : State), (s.mir.sync ≠ 5 ∨ s.mir.left ≠ 0) ∧ asleep s 14 = false) :=
  ⟨⟨atPort spire 2 (fun k => { k with rxUp := [⟨5, [], 1⟩] }), 2, ⟨5, [], 1⟩, [], by decide +kernel⟩,
   ⟨up, 0, by decide +kernel⟩,
   ⟨atPort spire 2 (fun k => { k with lstate := 2 }), imageOne 2 1, 2, by decide +kernel⟩,
   ⟨up, by decide +kernel⟩,
   ⟨{ spire with mir := { spire.mir with sync := 1 } }, by decide +kernel⟩,
   ⟨up, by decide +kernel⟩,
   ⟨{ spire with mir := { spire.mir with sync := 5 } }, by decide +kernel⟩,
   ⟨up, by decide +kernel⟩⟩

theorem witness_PanelEventsAndPlannedDeparture :
  (∃ (s : State) (n : Nat) (level : Bool), Config.isSpireL s.integ = true ∧ n < 20 ∧ (if n < 4 then s.pnl.btn.testBit n else s.pnl.plug.testBit (n - 4)) ≠ level) ∧
  (∃ (s : State) (n : Nat) (level : Bool), (Config.isSpireL s.integ = false ∨ 20 ≤ n ∨ (if n < 4 then s.pnl.btn.testBit n else s.pnl.plug.testBit (n - 4)) = level)) ∧
  (∃ (s : State) (a : Access) (e : PnlEvt) (rest : List PnlEvt), portTakes s a ∧ 6 ≤ s.rst.step ∧ (panelSec s).isSome = true ∧ aget s.bus.latches (a.rq, .host (.evt 0)) = none ∧ s.pnl.evts = e :: rest) ∧
  (∃ (s : State) (c : Nat), s.pnl.press = some c ∧ s.pnl.long = false ∧ asleep s 18 = false) ∧
  (∃ (s : State), asleep s 18 = false ∧ (s.pnl.press = none ∨ s.pnl.long = true)) ∧
  (∃ (s : State) (a : Access) (p : Nat), reaches s a 18 ∧ isTray s = true ∧ quiet s = false ∧ uplinkPort s 0 = some p) ∧
  (∃ (s : State) (p : Nat), isTray s = true ∧ s.pnl.dep = 1 ∧ s.pnl.askedAt + drainLeadNow s ≤ epochNow s ∧ quiet s = false ∧ uplinkPort s 0 = some p ∧ asleep s 18 = false) ∧
  (∃ (s : State), asleep s 18 = false ∧ (isTray s = false ∨ s.pnl.dep ≠ 1 ∨ epochNow s < s.pnl.askedAt + drainLeadNow s ∨ quiet s = true)) ∧
  (∃ (s : State) (p : Nat) (b : Bytes) (c : ChildEnt) (i : Nat), rxClosed s p = false ∧ mmQuiet s = false ∧ asleep s 14 = false ∧ frameFails s p false b = none ∧ (frameAt b).ty = tyDepart ∧ let d := (frameAt b).payload
    childOnPort (topoOf s) p = some c ∧ c.node = departNode d ∧ childIndex (topoOf s) c.node = some i) ∧
  (∃ (s : State) (p : Nat) (b : Bytes), rxClosed s p = false ∧ mmQuiet s = false ∧ asleep s 14 = false ∧ frameFails s p false b = none ∧ (frameAt b).ty = tyDepart ∧ let d := (frameAt b).payload
    departNode d = nodeId s ∧ uplinkPort s 0 = some p) ∧
  (∃ (s : State) (p op : Nat) (b : Bytes), asleep s 14 = false ∧ byteAt (frameAt b).payload 0 = op) :=
  ⟨⟨upS, 19, true, by decide +kernel⟩,
   ⟨upS, 20, true, by decide +kernel⟩,
   ⟨{ runs upS { imageOne 2 1 with panel := some ⟨4, [], []⟩ } with pnl := { upS.pnl with evts := [⟨0, true, 0, ⟨0, 0⟩⟩] } }, acc, ⟨0, true, 0, ⟨0, 0⟩⟩, [], by dsimp only [mbxReaches, reaches, viewReaches, portTakes, acc]; decide +kernel⟩,
   ⟨{ upS with pnl := { upS.pnl with press := some 5 } }, 5, by decide +kernel⟩,
   ⟨up, by decide +kernel⟩,
   ⟨runs upS { imageOne 2 1 with panel := some ⟨4, [], []⟩ }, acc, 0, by dsimp only [mbxReaches, reaches, viewReaches, portTakes, acc]; decide +kernel⟩,
   ⟨{ runs upS { imageOne 2 1 with panel := some ⟨4, [], []⟩ } with pnl := { upS.pnl with dep := 1 }, rw := [(.drainLead, 1)] }, 0, by decide +kernel⟩,
   ⟨up, by decide +kernel⟩,
   ⟨runs upS { imageOne 2 1 with panel := some ⟨4, [], []⟩ }, 1, frameOf tyDepart 9 0 ([1, 0, 0, 0] ++ [0, 0, 0, 9] ++ zeros 8), ⟨9, 1, false, 1, 42⟩, 0, by decide +kernel⟩,
   ⟨runs upS { imageOne 2 1 with panel := some ⟨4, [], []⟩ }, 0, frameOf tyDepart 7 0 ([2, 0, 0, 0] ++ [0, 0, 0, 42] ++ zeros 8), by decide +kernel⟩,
   ⟨up, 0, 0, [], by decide +kernel⟩⟩

theorem witness_MailboxesAreOwnedAndTakeMessagesInOrder :
  (∃ (s : State) (a : Access) (m : Nat), mbxReaches s a m ∧ aget s.bus.latches (a.rq, .host (.mbxLock m)) = none) ∧
  (∃ (s : State) (a : Access) (m : Nat), mbxReaches s a m) ∧
  (∃ (s : State) (a : Access) (m : Nat) (d : Word) (c : Nat), mbxReaches s a m ∧ d.getLsbD 0 = true ∧ (mbxAt s m).owner = some a.rq ∧ (mbxAt s m).busy = false ∧ pwrBusy s = false ∧ let x := messageOf s m
    (∀ q, (mbxAt s m).lastSeq = some q → newer 16 x.seq q = true) ∧ (messageBad s m x = some c ∨ (c = 0 ∧ x.op = 0 ∧ messageBad s m x = none))) ∧
  (∃ (s : State) (a : Access) (m : Nat) (d : Word), mbxReaches s a m) :=
  ⟨⟨up, acc, 7, by exact ⟨Or.inl ⟨by dsimp only [reaches, portTakes, acc]; decide +kernel, by decide⟩, by decide +kernel⟩⟩,
   ⟨up, acc, 7, by exact Or.inl ⟨by dsimp only [reaches, portTakes, acc]; decide +kernel, by decide⟩⟩,
   ⟨{ up with host := { up.host with mboxes := [(7, { mbxNone with owner := some acc.rq })] } }, acc, 7, 1, 0, by exact ⟨Or.inl ⟨by dsimp only [reaches, portTakes, acc]; decide +kernel, by decide⟩, by decide +kernel, by decide +kernel, by decide +kernel, by decide +kernel, And.intro (fun q h => by (have e : (mbxAt { up with host := { up.host with mboxes := [(7, { mbxNone with owner := some acc.rq })] } } 7).lastSeq = none := by decide +kernel); rw [e] at h; cases h) (by decide +kernel)⟩⟩,
   ⟨up, acc, 7, 1, by exact Or.inl ⟨by dsimp only [reaches, portTakes, acc]; decide +kernel, by decide⟩⟩⟩

theorem witness_DoorbellsReadTheirMessageBodies :
  (∃ (s : State) (a : Access) (m : Nat) (d : Word), mbxReaches s a m ∧ d.getLsbD 0 = true ∧ (mbxAt s m).owner = some a.rq ∧ (mbxAt s m).busy = false ∧ pwrBusy s = false ∧ let x := messageOf s m
    (∀ q, (mbxAt s m).lastSeq = some q → newer 16 x.seq q = true) ∧ messageBad s m x = none ∧ x.op ≠ 0) ∧
  (∃ (s : State) (a : Access), reaches s a 13) :=
  ⟨⟨{ up with host := { up.host with mboxes := [(7, { mbxNone with owner := some acc.rq })] }, rw := [(.mbxOp 7, 1), (.mbxLen 7, 64)] }, acc, 7, 1, by exact ⟨Or.inl ⟨by dsimp only [reaches, portTakes, acc]; decide +kernel, by decide⟩, by decide +kernel, by decide +kernel, by decide +kernel, by decide +kernel, And.intro (fun q h => by (have e : (mbxAt { up with host := { up.host with mboxes := [(7, { mbxNone with owner := some acc.rq })] }, rw := [(.mbxOp 7, 1), (.mbxLen 7, 64)] } 7).lastSeq = none := by decide +kernel); rw [e] at h; cases h) ⟨by decide +kernel, by decide +kernel⟩⟩⟩,
   ⟨up, acc, by dsimp only [mbxReaches, reaches, viewReaches, portTakes, acc]; decide +kernel⟩⟩

theorem witness_BodiesActAsTheirCommandsSay :
  (∃ (s : State) (tag m : Nat) (x : MmTx) (j : MmJob) (b : Bytes), lookup s.mm.tags tag = some x ∧ x.write = false ∧ x.owner = .mbxBody m ∧ mmJobOf s x.owner = some j ∧ j.err = 0 ∧ j.len ≤ j.issued ∧ j.left = txBytes j x ∧ (mbxAt s m).cmd = some .body) ∧
  (∃ (s : State) (m : Nat) (b : Bytes) (x : Msg), (mbxAt s m).msg = some x ∧ headOkFor s x.op b = true) ∧
  (∃ (s : State) (m : Nat) (b : Bytes) (x : Msg), (mbxAt s m).msg = some x ∧ m < 8) ∧
  (∃ (s : State) (v : Nat), resetReady s v = true ∧ asleep s 16 = false) ∧
  (∃ (s : State) (v : Nat), resetReady s v = false ∧ asleep s 16 = false) :=
  ⟨⟨{ up with mm := { up.mm with tags := [(3, ⟨.mbxBody 7, false, 0, 0, 1, 0, 0⟩)], jobs := [⟨.mbxBody 7, false, 0, 0, 0, 16, [], 16, 16, 0⟩] }, host := { up.host with mboxes := [(7, { mbxNone with cmd := some .body })] } }, 3, 7, ⟨.mbxBody 7, false, 0, 0, 1, 0, 0⟩, ⟨.mbxBody 7, false, 0, 0, 0, 16, [], 16, 16, 0⟩, [], by decide +kernel⟩,
   ⟨{ up with host := { up.host with mboxes := [(7, { mbxNone with msg := some ⟨0, 16, 5, 1⟩ })] } }, 7, 1 :: zeros 15, ⟨0, 16, 5, 1⟩, by decide +kernel⟩,
   ⟨{ up with host := { up.host with mboxes := [(7, { mbxNone with msg := some ⟨0, 16, 1, 1⟩ })] } }, 7, zeros 32, ⟨0, 16, 1, 1⟩, by decide +kernel⟩,
   ⟨{ up with host := { up.host with views := [(3, ⟨3, false, none, none, [], 0, 0, 0, [], 0⟩)] } }, 3, by decide +kernel⟩,
   ⟨up, 3, by decide +kernel⟩⟩

theorem witness_ImagesAreStagedScheduledAndReleased :
  (∃ (s : State) (a : Access) (n : Nat), reaches s a 14) ∧
  (∃ (s : State) (a : Access), reaches s a 14 ∧ quiet s = false) ∧
  (∃ (s : State) (a : Access), reaches s a 14 ∧ noFirmware s = false ∧ quiet s = false) ∧
  (∃ (s : State) (a : Access), reaches s a 14 ∧ hasImage s = false ∧ s.img.staged = none) ∧
  (∃ (s : State) (slot : Nat) (startup : Bool), s.img.loading = some (slot, startup) ∧ quiet s = false ∧ asleep s 14 = false) ∧
  (∃ (s : State), asleep s 14 = false ∧ (s.img.loading = none ∨ quiet s = true)) ∧
  (∃ (s : State) (x : Nat), releaseEpoch s = some x ∧ x ≤ epochNow s) ∧
  (∃ (s : State), (releaseEpoch s = none ∨ (∃ x, releaseEpoch s = some x ∧ epochNow s < x))) :=
  ⟨⟨up, acc, 1, by dsimp only [mbxReaches, reaches, viewReaches, portTakes, acc]; decide +kernel⟩,
   ⟨up, acc, by dsimp only [mbxReaches, reaches, viewReaches, portTakes, acc]; decide +kernel⟩,
   ⟨{ up with boot := { up.boot with phase := 3 } }, acc, by dsimp only [mbxReaches, reaches, viewReaches, portTakes, acc]; decide +kernel⟩,
   ⟨up, acc, by dsimp only [mbxReaches, reaches, viewReaches, portTakes, acc]; decide +kernel⟩,
   ⟨{ up with boot := { up.boot with st := 4 }, img := { newt.img with loading := some (1, false) } }, 1, false, by decide +kernel⟩,
   ⟨up, by exact ⟨by decide +kernel, Or.inl (by decide +kernel)⟩⟩,
   ⟨{ newt with img := { newt.img with old := some (imageOne 2 1) } }, 2, by decide +kernel⟩,
   ⟨up, by exact Or.inl (by decide +kernel)⟩⟩

theorem witness_StartUpReadsSettingsAndFirmware :
  (∃ (s : State), s.rst.step = 6 ∧ s.boot.phase = 1 ∧ s.flt.active = false ∧ s.boot.want = none) ∧
  (∃ (s : State), (s.rst.step ≠ 6 ∨ s.boot.phase ≠ 1 ∨ s.flt.active = true ∨ s.boot.want.isSome = true)) ∧
  (∃ (s : State), s.rst.step = 6 ∧ s.boot.phase = 2 ∧ s.flt.active = false ∧ s.boot.st ≠ 5) ∧
  (∃ (s : State), (s.rst.step ≠ 6 ∨ s.boot.phase ≠ 2 ∨ s.flt.active = true ∨ s.boot.st = 5 ∨ s.rst.keyState = 0)) ∧
  (∃ (s : State) (x : Settings), s.boot.want = some x) ∧
  (∃ (s : State), s.boot.want = none) :=
  ⟨⟨up, by decide +kernel⟩,
   ⟨State.reset, by decide +kernel⟩,
   ⟨{ up with boot := { up.boot with phase := 2 } }, by decide +kernel⟩,
   ⟨State.reset, by decide +kernel⟩,
   ⟨{ up with boot := { up.boot with want := some ⟨1, 0, 0, 0, 0, 0, 0, 0⟩ } }, ⟨1, 0, 0, 0, 0, 0, 0, 0⟩, by decide +kernel⟩,
   ⟨up, by decide +kernel⟩⟩

theorem witness_BootStoreCommandsRunOneAtATime :
  (∃ (s : State) (a : Access), reaches s a 17) ∧
  (∃ (s : State) (c : BstCmd) (e : Bool), s.boot.cmd = some c ∧ asleep s 12 = false) ∧
  (∃ (s : State) (e : Bool), asleep s 12 = true ∧ s.boot.cmd.isSome = true) ∧
  (∃ (s : State) (e : Bool), s.boot.cmd = none) :=
  ⟨⟨up, acc, by dsimp only [mbxReaches, reaches, viewReaches, portTakes, acc]; decide +kernel⟩,
   ⟨{ up with boot := { up.boot with cmd := some ⟨1, 0, 4096⟩ } }, ⟨1, 0, 4096⟩, false, by decide +kernel⟩,
   ⟨{ up with pow := up.pow.map (fun p => { p with st := .ret }), boot := { up.boot with cmd := some ⟨1, 0, 0⟩ } }, false, by decide +kernel⟩,
   ⟨up, false, by decide +kernel⟩⟩

theorem witness_TrialsConfirmRejectOrExpire :
  (∃ (s : State) (a : Access) (d : Word), reaches s a 17) ∧
  (∃ (s : State) (a : Access), reaches s a 14 ∧ trialRuns s = true ∧ 3 ≤ s.boot.phase) ∧
  (∃ (s : State) (a : Access), reaches s a 14 ∧ (trialRuns s = false ∨ s.boot.phase < 3)) ∧
  (∃ (s : State), trialRuns s = true ∧ 3 ≤ s.boot.phase ∧ rwGet s .confirmHold = 0 ∧ healthy s = true) ∧
  (∃ (s : State), (trialRuns s = false ∨ s.boot.phase < 3 ∨ rwGet s .confirmHold ≠ 0 ∨ healthy s = false)) ∧
  (∃ (s : State), trialRuns s = true ∧ 3 ≤ s.boot.phase) ∧
  (∃ (s : State), (trialRuns s = false ∨ s.boot.phase < 3)) ∧
  (∃ (s : State) (a : Access) (d : Word), reaches s a 17) :=
  ⟨⟨up, acc, 0, by dsimp only [mbxReaches, reaches, viewReaches, portTakes, acc]; decide +kernel⟩,
   ⟨{ up with boot := { up.boot with phase := 3, cur := { up.boot.cur with trial := 1 } } }, acc, by dsimp only [mbxReaches, reaches, viewReaches, portTakes, acc]; decide +kernel⟩,
   ⟨up, acc, by dsimp only [mbxReaches, reaches, viewReaches, portTakes, acc]; decide +kernel⟩,
   ⟨{ dome with boot := { dome.boot with phase := 3, cur := { dome.boot.cur with trial := 1 }, snapSince := true }, rst := { dome.rst with selftest := 1 } }, by decide +kernel⟩,
   ⟨up, by decide +kernel⟩,
   ⟨{ up with boot := { up.boot with phase := 3, cur := { up.boot.cur with trial := 1 } } }, by decide +kernel⟩,
   ⟨up, by decide +kernel⟩,
   ⟨up, acc, 0, by dsimp only [mbxReaches, reaches, viewReaches, portTakes, acc]; decide +kernel⟩⟩

theorem witness_EveryStepKeepsTheInvariant : ∃ (s t : State), BlockInv s ∧ step s = .next t :=
  ⟨State.reset, tickOp State.reset, by unfold BlockInv; exact ⟨by decide +kernel, rfl⟩⟩

theorem witness_ResetMeetsTheInvariant : ∃ (g : Integ) (p : Straps) (store : List Host.Cell), Memory.wf 0xFF store = true :=
  ⟨Config.newtDefault, ⟨0, 0, 0⟩, [], by decide +kernel⟩

end Sys2Proof.Tests
end

section
/-!
Every command answers a next state that keeps the integration, the queue of commands and the invariant `BlockInv`; with the tick of the empty queue,
so does every step.
-/
namespace Sys2Proof.Machine

/-- What every command answers: a next state, which leaves the integration, the queue and the invariant (`Stays`). -/
def Answers (s : State) (r : Result) : Prop := ∃ t, r = .next t ∧ Stays s t

variable {s t : State} {u : Nat} {f : State → State}

theorem answers_of_stays (h : Stays s t) : Answers s (.next t) := ⟨t, rfl, h⟩

theorem answers_of_keeps (h : Keeps s t) : Answers s (.next t) := answers_of_stays (stays_of h)

theorem answers_putAt {a : Access} {off d : Nat} : Answers s (.next (putAt s a off d)) := answers_of_stays (stays_putAt keeps_refl)

theorem answers_getAt {a : Access} {off : Nat} : Answers s (.next (getAt s a off)) := answers_of_stays (stays_getAt keeps_refl)

theorem answers_bellOp {a : Access} {m op : Nat} {d : Word} : Answers s (.next (bellOp s a m d op)) := answers_of_stays (stays_bellOp keeps_refl)

/-- The work of a unit that is ON (R94). -/
theorem answers_whenOn (hf : ∀ {x}, Keeps s x → Keeps s (f x)) : Answers s (.next (whenOn s u f)) :=
  answers_of_keeps (keeps_whenOn keeps_refl hf)

/-- The work of a unit that lets LEAP and the mailboxes go on. -/
theorem answers_whenOn_settled (hf : ∀ {x}, Keeps s x → Keeps s (f x)) : Answers s (.next (whenOn s u (fun t => settled t (f t)))) :=
  answers_whenOn fun h => keeps_settled h (hf h)

/-- A frame whose unit is awaited while it sleeps (R48). -/
theorem answers_awaitUnit {c : Instr} (hf : ∀ {x}, Keeps s x → Keeps s (f x)) : Answers s (.next (awaitUnit s u c f)) :=
  answers_of_keeps (keeps_awaitUnit keeps_refl hf)

/-- One cycle's slots, in order. -/
theorem answers_foldl {α : Type} {g : State → α → State} {l : List α} (hg : ∀ b x, Keeps s b → Keeps s (g b x)) : Answers s (.next (l.foldl g s)) :=
  answers_of_keeps (keeps_foldl hg keeps_refl)

theorem answers_execSeal (l : List MergeFault) : Answers s (execSeal l s) := answers_whenOn fun h => keeps_safeCheck (keeps_sealCmd h)

theorem answers_execFrameTransmitStart (p : Nat) : Answers s (execFrameTransmitStart p s) := by
  have h : Keeps s (transmit s p).1 := keeps_transmit keeps_refl
  unfold execFrameTransmitStart
  dsimp only
  split
  · exact answers_of_keeps (keeps_ptpSent h)
  · exact answers_of_keeps h

theorem answers_execPortClockStop (p : Nat) : Answers s (execPortClockStop p s) :=
  have h : Keeps s (clockStop s p) := keeps_clockStop keeps_refl
  answers_of_keeps (keeps_ite (keeps_ptpDropped h) h)

theorem answers_execStepApply (b : Nat) : Answers s (execStepApply b s) :=
  have h : Keeps s (stepApplyOp s b) := keeps_stepApplyOp keeps_refl
  answers_of_keeps (keeps_ite (keeps_settled keeps_refl h) h)

theorem answers_execEpochStrobe : Answers s (execEpochStrobe s) :=
  have h : Keeps s (epochStrobeOp s) := keeps_epochStrobeOp keeps_refl
  answers_of_keeps (keeps_ite h (keeps_settled keeps_refl h))

/-- Every command answers a next state with the same integration and queue and, from a state that meets it, the invariant. -/
theorem exec_answers (c : Instr) (s : State) : Answers s (exec c s) := by
  cases c with
  -- a write of a register (R14)
  | powerRegisterWrite | registerWrite | stepMark | ringClear | profileHaltClear | rateLowWrite | rateCommit | stepGo | rearm | strobeArm
  | laneEnableWrite | leapInject | load | evict | pin | unpin | repair | startIssue | detectorThresholdCommit | traceHaltClear | traceRingSizeWrite
  | recorderWindowSelect | recorderFreeze | recorderRelease | recorderFlush | bufferArm | erasureEnd | injectionArm | faultPop | failSilentCommand
  | panelRequest | panelCancel | mailboxRelease | mailboxForceRelease | dmaHaltClear | stage | discardStaged | scheduleLocal | erase | program | read
  | check | saveFlash | firmwareSwitchArm | trialConfirm | trialReject | packSelect => exact answers_putAt
  -- a read of a register (R15)
  | pairLowRead | rcRead | timeNowRead | captureFifoPop | panelEventPop | mailboxLockRead => exact answers_getAt
  -- a doorbell (R613)
  | nop | dma | leapRun | ptpTx | viewCfg | viewFreeze | viewThaw | viewSave | viewRestore | viewReset => exact answers_bellOp
  | doorbellUnknownOpcode => exact answers_of_stays (stays_bellUnknown keeps_refl)
  -- resets, start-up and power
  | powerOnReset => exact answers_of_keeps (keeps_powerOnResetOp keeps_refl)
  | warmReset => exact answers_of_keeps (keeps_warmResetOp keeps_refl)
  | sramInitialisation => exact answers_of_keeps (keeps_sramInitOp keeps_refl)
  | checkerSelfTest => exact answers_of_keeps (keeps_selfTestOp keeps_refl)
  | keyAnchorCapture => exact answers_of_keeps (keeps_keyCaptureOp keeps_refl)
  | pwrFailWarn => exact answers_of_keeps (keeps_warnOp keeps_refl)
  | pwrFailWarnFall => exact answers_of_keeps (keeps_warnFallOp keeps_refl)
  | powerFailFlushDone => exact answers_of_keeps (keeps_flushDoneOp keeps_refl)
  | pwrOnAck => exact answers_of_keeps (keeps_powerAckOp keeps_refl)
  | pwrAckLate => exact answers_of_keeps (keeps_ackLateOp keeps_refl)
  | unitGate => exact answers_of_keeps (keeps_gateOp keeps_refl)
  | unitRetain => exact answers_of_keeps (keeps_retainOp keeps_refl)
  | wakeAhead => exact answers_of_keeps (keeps_wakeAheadOp keeps_refl)
  -- the register, service and memory ports
  | regAcknowledge => exact answers_of_keeps (keeps_acknowledgeOp keeps_refl)
  | forbiddenAccess => exact answers_of_stays (stays_accessOp keeps_refl)
  | svcRegisterRead => exact answers_of_keeps (keeps_svcReadOp keeps_refl)
  | svcRegisterWrite => exact answers_of_keeps (keeps_svcWriteOp keeps_refl)
  | svcStatusRead => exact answers_of_keeps (keeps_svcStatusOp keeps_refl)
  | svcUnknownOpcode => exact answers_of_keeps (keeps_svcUnknownOp keeps_refl)
  | bufWrite => exact answers_of_keeps (keeps_bufWriteCmd keeps_refl)
  | bufRead => exact answers_of_keeps (keeps_bufReadCmd keeps_refl)
  | mmReadBeat => exact answers_of_keeps (keeps_readBeatOp keeps_refl)
  | mmWriteCompletion => exact answers_of_keeps (keeps_writeCompletionOp keeps_refl)
  -- capture and the trace port
  | counterIncrement => exact answers_of_keeps (keeps_incSlots keeps_refl)
  | engineEvent => exact answers_of_keeps (keeps_engSlots keeps_refl)
  | ringEvent => exact answers_of_keeps (keeps_ringSlots keeps_refl)
  | eccEvent => exact answers_foldl fun _ _ => keeps_eccSlot
  | sensorSample => exact answers_foldl fun _ _ => keeps_snsSlot
  | linkErrorReport => exact answers_foldl fun _ _ => keeps_lnkSlot
  | traceEvent => exact answers_foldl fun _ _ => keeps_traceOne
  | tracePowerDownRequest => exact answers_of_keeps (keeps_powerDown keeps_refl)
  | tracePowerUp => exact answers_of_keeps (keeps_powerUp keeps_refl)
  | tracePowerAckTimeout => exact answers_of_keeps (keeps_ackTimeout keeps_refl)
  | profileBufferCopy => exact answers_of_keeps (keeps_profCopy keeps_refl)
  -- time
  | rateApply => exact answers_of_keeps (keeps_rateApplyTop keeps_refl)
  | stepApply b => exact answers_execStepApply b
  | epochStrobe => exact answers_execEpochStrobe
  | captureInputEdge => exact answers_of_keeps (keeps_captureEdges keeps_refl)
  | strobeFire => exact answers_of_keeps (keeps_strobeFireOp keeps_refl)
  | ppsOutStart => exact answers_of_keeps (keeps_ppsStart keeps_refl)
  | ppsOutEnd => exact answers_of_keeps (keeps_ppsEnd keeps_refl)
  -- features, detectors, LEAP and resident models
  | epochSampleTakeUp => exact answers_whenOn_settled keeps_takeEpoch
  | eventSampleTakeUp => exact answers_whenOn_settled keeps_takeEvent
  | featureVectorComplete => exact answers_whenOn_settled keeps_vectorDone
  | newtRecordReady => exact answers_whenOn_settled keeps_newtReady
  | detectorPass => exact answers_whenOn_settled keeps_detectorPassOp
  | peerGapNote => exact answers_whenOn keeps_peerGapNote
  | strandDispatch => exact answers_whenOn keeps_dispatch
  | leap => exact answers_whenOn_settled keeps_leapCycle
  | jobComplete => exact answers_whenOn_settled keeps_completeJob
  | leapScrubRead => exact answers_whenOn_settled keeps_scrubEntry
  | leapScrubWriteback => exact answers_whenOn keeps_scrubEntryBack
  | bundleFetchDone => exact answers_of_keeps (keeps_settled keeps_refl (keeps_fetchDone keeps_refl))
  | bundleVerifyDone => exact answers_whenOn_settled keeps_verifyDone
  | installDone => exact answers_whenOn_settled keeps_installDone
  -- sealing, links and broadcasts
  | recordSegmentReceive => exact answers_of_keeps (keeps_noteReceiving (keeps_segmentReceive keeps_refl))
  | recordReceive => exact answers_whenOn fun h => keeps_whenOn h fun k => keeps_safeCheck (keeps_recordReceive k)
  | mergedRecordReady => exact answers_whenOn_settled keeps_mergedReady
  | downReceive => exact answers_whenOn keeps_downReceiveOp
  | childRecordRelease => exact answers_whenOn keeps_releaseChildren
  | frameTransmitStart p => exact answers_execFrameTransmitStart p
  | heartbeatSend => exact answers_of_keeps (keeps_heartbeatSendOp keeps_refl)
  | heartbeatReceive => exact answers_of_keeps (keeps_heartbeatReceiveOp keeps_refl)
  | heartbeatMiss => exact answers_of_keeps (keeps_heartbeatMissOp keeps_refl)
  | linkUpFall => exact answers_of_keeps (keeps_linkFall keeps_refl)
  | linkUpRise => exact answers_of_keeps (keeps_linkRise keeps_refl)
  | portClockStop p => exact answers_execPortClockStop p
  | gateWindowChange => exact answers_of_keeps (keeps_gateChange keeps_refl)
  | uplinkRevert => exact answers_of_keeps (keeps_uplinkRevertOp keeps_refl)
  | resendReqReceive => exact answers_of_keeps (keeps_resendReqOp keeps_refl)
  | downMissingTimeout => exact answers_of_keeps (keeps_downMissing keeps_refl)
  | downExpired => exact answers_of_keeps (keeps_expireDown keeps_refl)
  | heldCopyExpiry => exact answers_of_keeps (keeps_expireHeld keeps_refl)
  | startReceive => exact answers_awaitUnit keeps_startReceiveOp
  | startRetry => exact answers_whenOn keeps_startRetryOp
  | ackReceive => exact answers_awaitUnit keeps_ackReceiveOp
  | ackDeadline => exact answers_whenOn keeps_ackDeadlineOp
  | broadcastOutcome => exact answers_whenOn keeps_broadcastOutcomeOp
  | activateIssue => exact answers_whenOn keeps_activateIssueOp
  | activateReceive => exact answers_awaitUnit keeps_activateReceiveOp
  | receivedFrameDrop => exact answers_of_keeps (keeps_frameDrop keeps_refl)
  -- verdicts and PTP
  | verdictReceive => exact answers_awaitUnit keeps_verdictReceiveOp
  | voteProposeReceive => exact answers_awaitUnit keeps_proposeReceive
  | ballotReceive => exact answers_awaitUnit keeps_ballotReceiveOp
  | voteTimeout => exact answers_whenOn keeps_voteTimeoutOp
  | verdictRingWrite => exact answers_whenOn keeps_ringWriteOp
  | ptpReceive => exact answers_of_keeps (keeps_ptpReceiveOp keeps_refl)
  -- trace blocks, the recorder and SRAM
  | traceBlockAgeClose => exact answers_whenOn keeps_ageClose
  | traceBlockWrite => exact answers_whenOn keeps_blockWrite
  | compressBlockDone => exact answers_whenOn keeps_compressDone
  | recorderChunkAge => exact answers_whenOn keeps_chunkAge
  | recorderRingScanDone => exact answers_whenOn keeps_ringScanDoneOp
  | blackBoxPageDone => exact answers_of_keeps (keeps_bbPageDone keeps_refl)
  | blackBoxSetErased => exact answers_of_keeps (keeps_setErasedOp keeps_refl)
  | mergeBufferAgeDrain => exact answers_whenOn keeps_ageDrain
  | memScrubRead => exact answers_whenOn keeps_scrubRead
  | memScrubWriteback => exact answers_whenOn keeps_scrubWriteback
  | poisonRewrite => exact answers_whenOn_settled fun h => keeps_struckOp (keeps_poisonRewriteOp h)
  -- faults, mirrors and the tray panel
  | wardenWatchdogExpiry => exact answers_of_keeps (keeps_watchdogOp keeps_refl)
  | mirrorReceive => exact answers_awaitUnit keeps_mirrorReceiveOp
  | syncReqSend => exact answers_whenOn keeps_syncReqSendOp
  | syncReqReceive => exact answers_awaitUnit keeps_syncReqReceiveOp
  | syncDataReceive => exact answers_awaitUnit keeps_syncDataReceiveOp
  | syncWaitExpiry => exact answers_whenOn keeps_syncWaitExpiryOp
  | rebuildEnd => exact answers_whenOn keeps_rebuildEndOp
  | panelEdgeSettled => exact answers_of_keeps (keeps_panelEdgeOp keeps_refl)
  | longPress => exact answers_whenOn keeps_longPressOp
  | departRequestRetry => exact answers_whenOn keeps_requestRetryOp
  | departRequestReceive => exact answers_awaitUnit keeps_departRequestOp
  | departGrantReceive => exact answers_awaitUnit keeps_departGrantOp
  | departSafeReceive => exact answers_awaitUnit keeps_departSafeOp
  | departCancelReceive => exact answers_awaitUnit keeps_departCancelOp
  | departCancelledReceive => exact answers_awaitUnit keeps_departCancelledOp
  -- views, images, firmware and the boot store
  | viewResetComplete => exact answers_whenOn keeps_viewResetCompleteOp
  | stagingDone => exact answers_whenOn_settled keeps_stagingDoneOp
  | oldImageRelease => exact answers_of_keeps (keeps_oldReleaseOp keeps_refl)
  | settingsRead => exact answers_of_keeps (keeps_settingsReadOp keeps_refl)
  | firmwareLoad => exact answers_of_keeps (keeps_firmwareLoadOp keeps_refl)
  | settingsWriteDone => exact answers_of_keeps (keeps_settingsWriteDoneOp keeps_refl)
  | bootStoreCommandDone => exact answers_of_keeps (keeps_bstDoneOp keeps_refl)
  | trialSelfConfirm => exact answers_of_keeps (keeps_selfConfirmOp keeps_refl)
  | trialExpiry => exact answers_of_keeps (keeps_trialExpiryOp keeps_refl)
  -- SEAL is the one command left: its name is a word of Lean's own and cannot stand as a case's name
  | _ => exact answers_execSeal _

/-- `BlockInv` says nothing of the queue of commands. -/
theorem blockInv_pending {q : List Instr} (h : BlockInv s) : BlockInv { s with pending := q } := h

/-- Settles O59: the tick keeps everything (`keeps_tickOp`), and every command does (`exec_answers`) on the state with the queue's rest. -/
theorem everyStepKeepsTheInvariant : Obligations.EveryStepKeepsTheInvariant := by
  intro s t hb hs
  unfold step at hs
  split at hs
  case h_1 hq =>
    obtain ⟨hi, hp, hinv⟩ := stays_of (s0 := s) (keeps_tickOp keeps_refl)
    cases hs
    exact ⟨hinv hb, hi, by rw [hp, hq]; rfl⟩
  case h_2 c rest hq =>
    obtain ⟨t', he, hi, hp, hinv⟩ := exec_answers c { s with pending := rest }
    cases he.symm.trans hs
    exact ⟨hinv (blockInv_pending hb), hi, by rw [hp, hq]; rfl⟩

end Sys2Proof.Machine
end

section
/-!
Counters saturate (R18), and what a read of FEAT_BUF_HWM leaves: the slots in use, from which the next maximum is taken (R347, R356).
-/
namespace Sys2Proof.Machine

variable {s : State}

/-- A 32-bit counter holds the sum where it fits, else all ones (R18). -/
theorem add32_eq_ite (a n : Nat) : add32 a n = if a + n < 2 ^ 32 then a + n else 2 ^ 32 - 1 := by
  simp only [add32, satAdd]
  split <;> omega

/-- Settles O10: counting 0 changes nothing, and anything else saturates (`rcGet_rcAdd`). -/
theorem counterReadsThenClears : Obligations.CounterReadsThenClears := by
  intro s c n hc
  by_cases hn : n = 0
  · subst hn
    have h0 : rcAdd s c 0 = s := rfl
    exact ⟨by rw [h0, Nat.add_zero, if_pos hc], fun k _ => by rw [h0]⟩
  · refine ⟨?_, fun k hk => ?_⟩
    · rw [rcGet_rcAdd s c n hn, if_pos rfl, add32_eq_ite]
    · rw [rcGet_rcAdd s c n hn, if_neg hk.symm]

/-- FEAT_BUF_HWM after a read: not 0, but the slots in use at the read, as the highest since then has it (R347, R356). -/
theorem rcGet_bufMark_rcClear (h : bufUsed s < 2 ^ 32) : rcGet (bufMark (rcClear s .featBufHwm)) .featBufHwm = bufUsed s := by
  have hz : rcGet (rcClear s .featBufHwm) .featBufHwm = 0 := by simp
  have hu : bufUsed (rcClear s .featBufHwm) = bufUsed s := rfl
  unfold bufMark rcMax
  rw [hz, hu]
  split
  · simp only [rcGet, aget_aset_self, Option.getD_some]; omega
  · rw [hz]; omega

/-- A counter of a state with an acknowledge at the port. -/
theorem rcGet_gave (a : Access) (d : Nat) (t : State) (c : RcReg) : rcGet (gave a d t) c = rcGet t c := by
  obtain ⟨rq, v⟩ := a
  cases rq <;> rfl

/-- A started block whose feature buffer holds one vector. -/
def oneSlotUsed : State :=
  { State.reset with
    rst := { State.reset.rst with step := 6 }
    feat := { State.reset.feat with slots := [⟨⟨1, 0, 0, 0, [], []⟩, [], false, false⟩] } }

/-- FEAT_BUF_HWM is at offset 0x2004 of the window (R356). -/
theorem featBufHwm_at_0x2004 : targetAt oneSlotUsed 0 (0x2004 / 4 * 4) = .reg 2 0 (.rc .featBufHwm) ∧
    actOn oneSlotUsed 0 (.rc .featBufHwm) = some (.rc .featBufHwm) := by decide +kernel

/-- Refutes O11: a read of FEAT_BUF_HWM, an RC counter, does not leave it at 0 while a slot of the feature buffer is in use. It leaves BUF_USED, the
highest since that read; with one slot in use the counter then holds 1. -/
theorem not_readsLatchClearAndAreAcknowledged : ¬ Obligations.ReadsLatchClearAndAreAcknowledged := by
  rintro ⟨hread, -⟩
  obtain ⟨ht, hx⟩ := featBufHwm_at_0x2004
  have hp : portTakes oneSlotUsed ⟨.reg 1, 0⟩ := ⟨rfl, by decide⟩
  obtain ⟨hrc, -⟩ := hread oneSlotUsed ⟨.reg 1, 0⟩ 0x2004 2 .featBufHwm hp (by decide) ht rfl hx (by decide)
  have hget : exec (.rcRead ⟨.reg 1, 0⟩ 0x2004) oneSlotUsed = .next (gave ⟨.reg 1, 0⟩ 0 (bufMark (rcClear oneSlotUsed .featBufHwm))) :=
    congrArg _ (getAt_reaches hp (by decide) ht hx)
  have hone : rcGet (bufMark (rcClear oneSlotUsed .featBufHwm)) .featBufHwm = 1 := rcGet_bufMark_rcClear (by decide)
  have hsame := congrArg (fun t => rcGet t .featBufHwm) (Host.Outcome.next.inj (hget.symm.trans hrc))
  simp only [rcGet_gave, hone] at hsame
  exact absurd hsame (by decide)

end Sys2Proof.Machine
end

section
/-!
ENGINE_EVENT (R70, R201 to R207): which slots win a cycle, what a taken event leaves of its engine, and what a cycle's events leave alone.
-/
namespace Sys2Proof.Machine

variable {s t u : State} {n cyc : Nat} {x : EngSlot} {l win : List EngSlot}

/-- What a cycle of engine events may change: the engines, the operator table, the loss counts, the counters and the recorder's tally. -/
def EngFrame (s t : State) : Prop :=
  ∃ rc tally engines optab other loss, t = { s with
    rc := rc
    erc := { s.erc with tally := tally }
    cap := { s.cap with engines := engines, optab := optab, other := other, loss := loss } }

theorem engFrame_trans (h : EngFrame s t) (k : EngFrame t u) : EngFrame s u := by
  obtain ⟨_, _, _, _, _, _, rfl⟩ := h
  obtain ⟨_, _, _, _, _, _, rfl⟩ := k
  exact ⟨_, _, _, _, _, _, rfl⟩

theorem engFrame_eq (h : EngFrame s t) : t = { s with
    rc := t.rc
    erc := { s.erc with tally := t.erc.tally }
    cap := { s.cap with engines := t.cap.engines, optab := t.cap.optab, other := t.cap.other, loss := t.cap.loss } } := by
  obtain ⟨_, _, _, _, _, _, rfl⟩ := h
  rfl

theorem engFrame_coreCycle (h : EngFrame s t) : coreCycle t = coreCycle s := by
  obtain ⟨_, _, _, _, _, _, rfl⟩ := h
  rfl

theorem engFrame_engAt (h : EngFrame s t) (hl : lookup t.cap.engines n = lookup s.cap.engines n) : engAt t n = engAt s n := by
  obtain ⟨_, _, _, _, _, _, rfl⟩ := h
  simp only [engAt, lookupD] at hl ⊢
  rw [hl]

theorem engAt_of_lookup {e : Eng} (h : lookup s.cap.engines n = some e) : engAt s n = e := by
  rw [engAt, lookupD, h, Option.getD_some]

theorem engFrame_modCap (es : List (Nat × Eng)) (tab : List OpEnt) (oth : Option OpEnt) :
    EngFrame s (modCap s (fun c => { c with engines := es, optab := tab, other := oth })) := ⟨_, _, _, _, _, _, rfl⟩

/-! A drop counter -/

theorem engFrame_capDrop (r : RcReg) (k n : Nat) : EngFrame s (capDrop s r k n) := by
  unfold capDrop rcAdd
  split
  · exact ⟨_, _, _, _, _, _, rfl⟩
  · exact ⟨_, _, _, _, _, _, rfl⟩

@[simp] theorem capDrop_engines (r : RcReg) (k n : Nat) : (capDrop s r k n).cap.engines = s.cap.engines := by
  unfold capDrop
  split
  · rfl
  · simp [modCap]

/-- Counting `n` dropped events saturates (R18). -/
theorem rcGet_capDrop_self (r : RcReg) (k n : Nat) (h : rcGet s r < 2 ^ 32) : rcGet (capDrop s r k n) r = min (rcGet s r + n) (2 ^ 32 - 1) := by
  unfold capDrop
  split
  · omega
  · exact (rcGet_rcAdd s r n ‹_› r).trans (if_pos rfl)

theorem rcGet_capDrop_ne {r q : RcReg} (k n : Nat) (h : r ≠ q) : rcGet (capDrop s r k n) q = rcGet s q := by
  unfold capDrop
  split
  · rfl
  · exact (rcGet_rcAdd s r n ‹_› q).trans (if_neg h)

/-! The operator table -/

/-- An operator's credit goes into the table or OTHER; only the table's overflow is counted (R205, R206). -/
theorem optabAdd_eq (key : Nat × Nat) (cmds busy stalled : Nat) : ∃ tab oth k,
    optabAdd s key cmds busy stalled = capDrop (modCap s (fun c => { c with optab := tab, other := oth })) .capOptabOvf 5 k := by
  unfold optabAdd
  split
  · exact ⟨s.cap.optab, s.cap.other, 0, rfl⟩
  · split
    · exact ⟨_, s.cap.other, 0, rfl⟩
    · split
      · exact ⟨_, s.cap.other, 0, rfl⟩
      · exact ⟨s.cap.optab, _, 1, rfl⟩

/-- A step of a cycle of engine events: within the frame, with CAP_DROP_RANGE as before. -/
def EngStep (s t : State) : Prop := EngFrame s t ∧ rcGet t .capDropRange = rcGet s .capDropRange

theorem engStep_trans (h : EngStep s t) (k : EngStep t u) : EngStep s u := ⟨engFrame_trans h.1 k.1, k.2.trans h.2⟩

theorem engStep_optabAdd (key : Nat × Nat) (cmds busy stalled : Nat) : EngStep s (optabAdd s key cmds busy stalled) := by
  obtain ⟨tab, oth, k, h⟩ := optabAdd_eq (s := s) key cmds busy stalled
  rw [h]
  exact ⟨engFrame_trans (engFrame_modCap _ tab oth) (engFrame_capDrop _ _ _), rcGet_capDrop_ne 5 k (by decide)⟩

@[simp] theorem optabAdd_engines (key : Nat × Nat) (cmds busy stalled : Nat) : (optabAdd s key cmds busy stalled).cap.engines = s.cap.engines := by
  obtain ⟨tab, oth, k, h⟩ := optabAdd_eq (s := s) key cmds busy stalled
  rw [h, capDrop_engines]
  rfl

/-! A taken event -/

/-- An engine whose interval up to `cyc` is credited to the state it was in (R202, R203). -/
def engCredited (o : Eng) (cyc : Nat) : Eng :=
  let d := cyc - o.since
  { o with
    since := cyc
    idle := if o.state = 0 then add32 o.idle d else o.idle
    busy := if o.state = 1 then add32 o.busy d else o.busy
    stalled := if 2 ≤ o.state then add32 o.stalled d else o.stalled
    byReason := if 2 ≤ o.state then o.byReason.modify o.reason (fun v => add32 v d) else o.byReason }

/-- An engine that has taken the event `x` at cycle `cyc` (R202). -/
def engTaken (o : Eng) (x : EngSlot) (cyc : Nat) : Eng :=
  { engCredited o cyc with
    state := x.state
    reason := x.reason
    cmd := if x.cmd then some (x.layer, x.op) else o.cmd
    cmds := if x.cmd then min (o.cmds + 1) (2 ^ 32 - 1) else o.cmds }

/-- The credit as the model's case split on the engine's state gives it. -/
theorem engCredited_eq_match (o : Eng) (cyc : Nat) : engCredited o cyc = { (match o.state with
    | 0 => { o with idle := add32 o.idle (cyc - o.since) }
    | 1 => { o with busy := add32 o.busy (cyc - o.since) }
    | _ => { o with stalled := add32 o.stalled (cyc - o.since), byReason := o.byReason.modify o.reason (fun v => add32 v (cyc - o.since)) } : Eng) with
    since := cyc } := by
  obtain ⟨state, reason, cmd, since, idle, busy, stalled, cmds, byReason⟩ := o
  match state with
  | 0 => rfl
  | 1 => rfl
  | k + 2 => simp [engCredited]

/-- The engine `n` set to `e`. -/
def setEng (s : State) (n : Nat) (e : Eng) : State := modCap s (fun c => { c with engines := setKey c.engines n e })

theorem engStep_setEng (e : Eng) : EngStep s (setEng s n e) := ⟨engFrame_modCap _ _ _, rfl⟩

@[simp] theorem setEng_engines (e : Eng) : (setEng s n e).cap.engines = setKey s.cap.engines n e := rfl

/-- A credit sets the engine; where it had a command, the operator table may take its share. -/
theorem engCredit_cases : engCredit s n cyc = setEng s n (engCredited (engAt s n) cyc) ∨
    ∃ key busy stalled, engCredit s n cyc = optabAdd (setEng s n (engCredited (engAt s n) cyc)) key 0 busy stalled := by
  rw [engCredited_eq_match]
  unfold engCredit setEng
  dsimp only
  split
  · split
    · exact .inl rfl
    · split
      · exact .inr ⟨_, _, _, rfl⟩
      · exact .inr ⟨_, _, _, rfl⟩
  · exact .inl rfl

theorem engStep_engCredit : EngStep s (engCredit s n cyc) := by
  rcases engCredit_cases (s := s) (n := n) (cyc := cyc) with h | ⟨key, busy, stalled, h⟩
  · rw [h]; exact engStep_setEng _
  · rw [h]; exact engStep_trans (engStep_setEng _) (engStep_optabAdd _ _ _ _)

theorem engCredit_engines : (engCredit s n cyc).cap.engines = setKey s.cap.engines n (engCredited (engAt s n) cyc) := by
  rcases engCredit_cases (s := s) (n := n) (cyc := cyc) with h | ⟨key, busy, stalled, h⟩
  · rw [h, setEng_engines]
  · rw [h, optabAdd_engines, setEng_engines]

theorem engAt_engCredit : engAt (engCredit s n cyc) n = engCredited (engAt s n) cyc := by
  exact engAt_of_lookup (by rw [engCredit_engines, lookup_setKey_self])

/-- A taken event credits the interval and sets the engine; where it starts a command, the operator table takes that. -/
theorem engTake_eq : engTake s x =
    (if x.cmd then optabAdd (setEng (engCredit s x.engine (coreCycle s)) x.engine (engTaken (engAt s x.engine) x (coreCycle s))) (x.layer, x.op) 1 0 0
    else setEng (engCredit s x.engine (coreCycle s)) x.engine (engTaken (engAt s x.engine) x (coreCycle s))) := by
  obtain ⟨engine, state, reason, cmd, layer, op⟩ := x
  unfold engTake
  dsimp only
  rw [engAt_engCredit]
  cases cmd <;> rfl

theorem engStep_engTake : EngStep s (engTake s x) := by
  have h : EngStep s (setEng (engCredit s x.engine (coreCycle s)) x.engine (engTaken (engAt s x.engine) x (coreCycle s))) :=
    engStep_trans engStep_engCredit (engStep_setEng _)
  rw [engTake_eq]
  split
  · exact engStep_trans h (engStep_optabAdd _ _ _ _)
  · exact h

/-- A taken event sets its engine and leaves every other one alone. -/
theorem lookup_engTake (n : Nat) : lookup (engTake s x).cap.engines n =
    if x.engine = n then some (engTaken (engAt s x.engine) x (coreCycle s)) else lookup s.cap.engines n := by
  have h : (engTake s x).cap.engines =
      setKey (setKey s.cap.engines x.engine (engCredited (engAt s x.engine) (coreCycle s))) x.engine (engTaken (engAt s x.engine) x (coreCycle s)) := by
    rw [engTake_eq]
    split
    · rw [optabAdd_engines, setEng_engines, engCredit_engines]
    · rw [setEng_engines, engCredit_engines]
  rw [h, lookup_setKey]
  split
  · rfl
  · exact lookup_setKey_ne _ _ ‹_›

/-! A cycle's events -/

theorem engStep_foldl (win : List EngSlot) (s : State) : EngStep s (win.foldl engTake s) := by
  induction win generalizing s with
  | nil => exact ⟨⟨_, _, _, _, _, _, rfl⟩, rfl⟩
  | cons y r ih => exact engStep_trans engStep_engTake (ih _)

/-- An engine of which no event is taken stands. -/
theorem lookup_foldl_of_ne (h : ∀ x ∈ win, x.engine ≠ n) : lookup (win.foldl engTake s).cap.engines n = lookup s.cap.engines n := by
  induction win generalizing s with
  | nil => rfl
  | cons y r ih =>
    have hy : y.engine ≠ n := h y List.mem_cons_self
    rw [List.foldl_cons, ih fun x hx => h x (List.mem_cons_of_mem _ hx), lookup_engTake, if_neg hy]

/-- Of events of different engines each is taken by its engine as the cycle found it. -/
theorem lookup_foldl_of_mem (hd : win.Pairwise (fun a b => a.engine ≠ b.engine)) (hx : x ∈ win) :
    lookup (win.foldl engTake s).cap.engines x.engine = some (engTaken (engAt s x.engine) x (coreCycle s)) := by
  induction win generalizing s with
  | nil => cases hx
  | cons y r ih =>
    obtain ⟨hy, hr⟩ := List.pairwise_cons.mp hd
    rw [List.foldl_cons]
    rcases List.mem_cons.mp hx with rfl | hx
    · rw [lookup_foldl_of_ne fun z hz => (hy z hz).symm, lookup_engTake, if_pos rfl]
    · have hne : y.engine ≠ x.engine := hy x hx
      have hf : EngFrame s (engTake s y) := engStep_engTake.1
      rw [ih hr hx, engFrame_coreCycle hf, engFrame_engAt hf (by rw [lookup_engTake, if_neg hne])]

/-! The slots that win -/

theorem nodup_eraseDups {α : Type} [BEq α] [LawfulBEq α] (l : List α) : l.eraseDups.Nodup := by
  match l with
  | [] => simp
  | a :: r =>
    rw [List.eraseDups_cons, List.nodup_cons]
    exact ⟨by simp [List.mem_eraseDups], nodup_eraseDups _⟩
termination_by l.length
decreasing_by exact Nat.lt_succ_of_le (List.length_filter_le _ _)

/-- Of the accepted slots of one cycle, the highest of each engine (R70). -/
def engWinners (ok : List EngSlot) : List EngSlot :=
  (ok.map (·.engine)).eraseDups.filterMap (fun n => (ok.filter (fun x => x.engine == n)).getLast?)

theorem engine_of_getLast? (h : (l.filter (fun y => y.engine == n)).getLast? = some x) : x.engine = n := by
  simpa using (List.mem_filter.mp (List.mem_of_getLast? h)).2

theorem mem_engWinners : x ∈ engWinners l ↔ (l.filter (fun y => y.engine == x.engine)).getLast? = some x := by
  simp only [engWinners, List.mem_filterMap, List.mem_eraseDups]
  constructor
  · rintro ⟨n, -, h⟩
    rwa [engine_of_getLast? h]
  · intro h
    exact ⟨x.engine, List.mem_map_of_mem (List.mem_filter.mp (List.mem_of_getLast? h)).1, h⟩

theorem engWinners_pairwise (l : List EngSlot) : (engWinners l).Pairwise (fun a b => a.engine ≠ b.engine) := by
  refine List.pairwise_filterMap.mpr ((nodup_eraseDups _).imp fun hne a ha b hb => ?_)
  rwa [engine_of_getLast? ha, engine_of_getLast? hb]

/-- The slots that `s` accepts: of a captured engine, and not of state 3. -/
def engAccepted (s : State) (l : List EngSlot) : List EngSlot := l.filter (fun x => engCaptured s x.engine && x.state != 3)

theorem engAccepted_of_engine (s : State) (l : List EngSlot) (n : Nat) : (engAccepted s l).filter (fun y => y.engine == n) =
    if engCaptured s n then l.filter (fun y => y.engine == n && y.state != 3) else [] := by
  rw [engAccepted, List.filter_filter]
  split
  next hc =>
    refine List.filter_congr fun y _ => ?_
    cases hy : y.engine == n with
    | false => rfl
    | true => rw [eq_of_beq hy, hc]; rfl
  next hc =>
    refine List.filter_eq_nil_iff.mpr fun y _ => ?_
    by_cases hy : y.engine = n
    · simp [hy, hc]
    · simp [hy]

/-- A cycle's events on a NEWT: the dropped slots are counted, and each winner is taken. -/
theorem engSlots_eq (h : Config.isSpireL s.integ = false) : ∃ a b, engSlots s l = (engWinners (engAccepted s l)).foldl engTake
    (capDrop (capDrop (capDrop s .capDropRange 0 (l.filter (fun x => !engCaptured s x.engine)).length) .capDropEngstate 1 a) .capDropEngcol 1 b) := by
  unfold engSlots
  rw [h]
  exact ⟨_, _, rfl⟩

/-- A SPIRE-L takes no engine event, its inputs being tied off (R53). -/
theorem engSlots_spireL (h : Config.isSpireL s.integ = true) : engSlots s l = s := by
  unfold engSlots
  rw [h]
  rfl

/-- Settles O15: a cycle's slots are counted where they drop, and the winners, of different engines, are taken one after another (`engSlots_eq`). -/
theorem engineEventsCreditTheInterval : Obligations.EngineEventsCreditTheInterval := by
  refine ⟨fun s l h => congrArg _ (engSlots_spireL h), fun s l h => ⟨_, rfl, ?_⟩⟩
  obtain ⟨a, b, ht⟩ := engSlots_eq (l := l) h
  rw [ht]
  generalize hs : capDrop (capDrop (capDrop s .capDropRange 0 (l.filter (fun x => !engCaptured s x.engine)).length) .capDropEngstate 1 a)
    .capDropEngcol 1 b = s1
  have hf : EngFrame s s1 := by
    rw [← hs]
    exact engFrame_trans (engFrame_trans (engFrame_capDrop _ _ _) (engFrame_capDrop _ _ _)) (engFrame_capDrop _ _ _)
  have he : s1.cap.engines = s.cap.engines := by rw [← hs, capDrop_engines, capDrop_engines, capDrop_engines]
  have hstep : EngStep s1 ((engWinners (engAccepted s l)).foldl engTake s1) := engStep_foldl _ _
  refine ⟨fun n x hn hx => ?_, fun n hn => ?_, fun hr => ?_, engFrame_eq (engFrame_trans hf hstep.1)⟩
  · have hxn : x.engine = n := by
      have := (List.mem_filter.mp (List.mem_of_getLast? hx)).2
      simp only [Bool.and_eq_true, beq_iff_eq] at this
      exact this.1
    subst hxn
    have hw : x ∈ engWinners (engAccepted s l) := by rwa [mem_engWinners, engAccepted_of_engine, if_pos hn]
    have hl := lookup_foldl_of_mem (s := s1) (engWinners_pairwise _) hw
    rw [engFrame_engAt hf (by rw [he]), engFrame_coreCycle hf] at hl
    exact engAt_of_lookup hl
  · rw [lookup_foldl_of_ne (fun x hx hxn => ?_), he]
    rw [mem_engWinners, engAccepted_of_engine, hxn] at hx
    rcases hn with hn | hn <;> simp [hn] at hx
  · rw [hstep.2, ← hs, rcGet_capDrop_ne _ _ (by decide), rcGet_capDrop_ne _ _ (by decide), rcGet_capDrop_self _ _ _ hr]

end Sys2Proof.Machine
end

section
/-!
Unit power (R45 to R51, R94, R681 to R684): what a unit's power reads after a change, and what a unit in RET or OFF does with work and with requests.
-/
namespace Sys2Proof.Machine

variable {s : State} {u v n : Nat} {p : UnitPow} {f : UnitPow → UnitPow}

/-! The power of a unit -/

theorem powOf_modPow (s : State) (u v : Nat) (f : UnitPow → UnitPow) :
    powOf (modPow s v f) u = if u - 1 = v - 1 ∧ u - 1 < s.pow.length then f (powOf s u) else powOf s u := by
  unfold powOf modPow
  simp only [List.getD, List.getElem?_modify]
  by_cases hv : u - 1 = v - 1
  · by_cases hl : u - 1 < s.pow.length
    · simp [hv, hv ▸ hl]
    · simp [hv, hv ▸ hl]
  · simp [hv, Ne.symm hv]

theorem powOf_modPow_self (h : u - 1 < s.pow.length) : powOf (modPow s u f) u = f (powOf s u) := by
  rw [powOf_modPow, if_pos ⟨rfl, h⟩]

theorem powOf_modPow_ne (h : v - 1 ≠ u - 1) : powOf (modPow s u f) v = powOf s v := by
  rw [powOf_modPow, if_neg fun k => h k.1]

/-- A unit past the list is OFF, and no change reaches it. -/
theorem powOf_of_length_le (h : s.pow.length ≤ u - 1) : powOf s u = unitDefault := by
  simp [powOf, List.getD, h]

theorem length_of_req (h : (powOf s u).req = true) : u - 1 < s.pow.length := by
  refine Nat.lt_of_not_le fun hn => ?_
  rw [powOf_of_length_le hn] at h
  cases h

theorem asleep_iff : asleep s u = true ↔ (powOf s u).st = .ret ∨ (powOf s u).st = .off := by
  unfold asleep
  cases (powOf s u).st <;> simp

@[simp] theorem raiseReq_st (c : Nat) (p : UnitPow) : (raiseReq c p).st = p.st := by
  unfold raiseReq
  split <;> rfl

@[simp] theorem raiseReq_req (c : Nat) (p : UnitPow) : (raiseReq c p).req = true := by
  unfold raiseReq
  split
  · assumption
  · rfl

/-- A request wakes a unit from GATED, and no unit from RET or OFF (R45, R48). -/
theorem touchPow_st (c : Nat) (p : UnitPow) : (touchPow c p).st = if p.st = .gated then .on else p.st := by
  unfold touchPow
  cases h : p.st <;> simp [h]

theorem touchPow_of_ret (c : Nat) (h : p.st = .ret) : touchPow c p = raiseReq c p := by
  simp [touchPow, h]

theorem powOf_touch (s : State) (u v : Nat) :
    powOf (touch s v) u = if u - 1 = v - 1 ∧ u - 1 < s.pow.length then touchPow s.time.c (powOf s u) else powOf s u := powOf_modPow s u v _

theorem powOf_touch_self (h : u - 1 < s.pow.length) : powOf (touch s u) u = touchPow s.time.c (powOf s u) := powOf_modPow_self h

@[simp] theorem asleep_touch (s : State) (u v : Nat) : asleep (touch s v) u = asleep s u := by
  rw [Bool.eq_iff_iff, asleep_iff, asleep_iff, powOf_touch]
  split
  · rw [touchPow_st]
    cases (powOf s u).st <;> simp
  · rfl

/-! Work and requests (R48) -/

theorem whenOn_of_asleep (h : asleep s u = true) (work : State → State) : whenOn s u work = touch s u := by
  simp [whenOn, h]

theorem whenOn_of_awake (h : asleep s u = false) (work : State → State) : whenOn s u work = work (touch s u) := by
  simp [whenOn, h]

theorem awaitUnit_of_ret (h : (powOf s u).st = .ret) (hu : u - 1 < s.pow.length) (i : Instr) (serve : State → State) :
    awaitUnit s u i serve = { touch s u with bus := { s.bus with deferred := s.bus.deferred ++ [(u, .command i)] } } := by
  have hsleep : asleep s u = true := asleep_iff.mpr (.inl h)
  have hreq : (powOf (touch s u) u).req = true := by rw [powOf_touch_self hu, touchPow_of_ret _ h, raiseReq_req]
  simp [awaitUnit, hsleep, hreq]

/-! The host's acknowledge (R94) -/

theorem wakeWork_of_notMem (h : u ∉ [3, 10, 12, 13]) : wakeWork s u = s := by
  simp only [List.mem_cons, List.not_mem_nil, or_false, not_or] at h
  obtain ⟨h3, h10, h12, h13⟩ := h
  simp [wakeWork, h3, h10, h12, h13]

/-- A requesting unit's power once its switch has closed. -/
theorem asleep_pwrAck (h : (powOf s u).req = true) : asleep (pwrAck s u) u = false := by
  rw [Bool.eq_false_iff, ne_eq, asleep_iff, pwrAck, powOf_modPow_self (length_of_req h), if_pos h]
  cases hst : (powOf s u).st <;> simp

theorem powerAckOp_eq (h : (powOf s u).req = true) : powerAckOp s u =
    wakeWork ((s.bus.deferred.filter (fun w => w.1 == u)).foldl (fun t w => serveHeld t w.2)
      { pwrAck s u with bus := { s.bus with deferred := s.bus.deferred.filter (fun w => w.1 != u) } }) u := by
  simp only [powerAckOp, asleep_pwrAck h]
  rfl

/-- With nothing that waits for the unit the acknowledge only lets its work go on. -/
theorem powerAckOp_of_idle (h : (powOf s u).req = true) (hw : ∀ w ∈ s.bus.deferred, w.1 ≠ u) : powerAckOp s u = wakeWork (pwrAck s u) u := by
  have hnone : s.bus.deferred.filter (fun w => w.1 == u) = [] := List.filter_eq_nil_iff.mpr fun w hm => by simpa using hw w hm
  have hall : s.bus.deferred.filter (fun w => w.1 != u) = s.bus.deferred := List.filter_eq_self.mpr fun w hm => by simpa using hw w hm
  rw [powerAckOp_eq h, hnone, hall]
  rfl

/-! Instants -/

/-- The slow clock has reached cycle `n` once the counter has been moved on to it. -/
theorem slowCycle_advanceSlow (s : State) (n : Nat) : n ≤ slowCycle (advanceSlow s n) := by
  unfold slowCycle advanceSlow advanceTo ceilDiv
  simp only
  omega

/-! Waking ahead of an edge (R47) -/

/-- One epoch unit is asked to wake where it is in RET. -/
def wakeOne (s : State) (u : Nat) : State := if (powOf s u).st == .ret then touch s u else s

theorem wakeAheadOp_eq (h : s.time.grid.st ≠ .exhausted) :
    wakeAheadOp s = epochUnits.foldl wakeOne (advanceTick s (edgeTick s.time.grid (nextEpoch s) - 3000 * 1024)) := by
  unfold wakeAheadOp wakeOne
  rw [if_neg (by simpa using h)]

theorem foldl_wakeOne_frame (l : List Nat) (s : State) : ∃ pow, l.foldl wakeOne s = { s with pow := pow } := by
  induction l generalizing s with
  | nil => exact ⟨s.pow, rfl⟩
  | cons u r ih =>
    obtain ⟨pow, h⟩ := ih (wakeOne s u)
    refine ⟨pow, ?_⟩
    rw [List.foldl_cons, h]
    unfold wakeOne
    split <;> rfl

/-- A unit in RET that may have been asked to wake: in RET it stays, and what has been asked stays asked. -/
def AskedIf (asked : Prop) (s : State) (u : Nat) : Prop :=
  (powOf s u).st = .ret ∧ u - 1 < s.pow.length ∧ (asked → (powOf s u).req = true)

theorem askedIf_wakeOne {asked : Prop} (h : AskedIf asked s u) : AskedIf (asked ∨ u = v) (wakeOne s v) u := by
  obtain ⟨hst, hlen, hreq⟩ := h
  by_cases hv : (powOf s v).st = .ret
  · rw [wakeOne, if_pos (by simpa using hv), AskedIf, powOf_touch]
    split
    · simp [touchPow_of_ret _ hst, hst, hlen]
    next hne =>
      refine ⟨hst, by simpa using hlen, ?_⟩
      rintro (ha | rfl)
      · exact hreq ha
      · exact absurd ⟨rfl, hlen⟩ hne
  · rw [wakeOne, if_neg (by simpa using hv)]
    refine ⟨hst, hlen, ?_⟩
    rintro (ha | rfl)
    · exact hreq ha
    · exact absurd hst hv

/-- Every listed unit in RET is asked to wake. -/
theorem askedIf_foldl_wakeOne {asked : Prop} (l : List Nat) (h : AskedIf asked s u) : AskedIf (asked ∨ u ∈ l) (l.foldl wakeOne s) u := by
  induction l generalizing s asked with
  | nil => simpa using h
  | cons v r ih =>
    have := ih (askedIf_wakeOne (v := v) h)
    rwa [or_assoc, ← List.mem_cons] at this

/-! A write of SVC_PWRn (R681, R683) -/

theorem targetAt_pwrOff (h1 : 1 ≤ u) (h18 : u ≤ 18) : targetAt s 0 (pwrOff u / 4 * 4) = .reg 17 0 (.svc (.pwr u)) := by
  have ho : pwrOff u / 4 * 4 = 0x200 + 4 * (u - 1) := by unfold pwrOff; omega
  have hu : (0x200 + 4 * (u - 1) - 0x200) / 4 + 1 = u := by omega
  have hreg : unitReg s.integ (0x200 + 4 * (u - 1)) = some (17, .svc (.pwr u)) := by
    have h0 : (0x200 + 4 * (u - 1)) / 0x1000 = 0 := by omega
    have hmod : (0x200 + 4 * (u - 1)) % 0x1000 = 0x200 + 4 * (u - 1) := by omega
    unfold unitReg
    simp only [h0, hmod]
    rw [if_neg (by omega), if_neg (by omega), if_neg (by omega), svcReg, if_pos (by omega), hu]
    rfl
  rw [ho, targetAt]
  simp only [if_true]
  rw [if_pos (by omega), hreg]

/-- A switchable unit that is not in RET takes its enable and its threshold. -/
theorem powerWrite_of_awake {d : Nat} (ha : unitAbsent s.integ u = false) (hs : alwaysOn u = false) (hr : (powOf s u).st ≠ .ret) :
    powerWrite s u d = modPow s u (fun p => { p with retEn := d.testBit 28, thresh := if 3 ≤ d % 256 then d % 256 else p.thresh }) := by
  simp [powerWrite, ha, hs, hr]

/-! The commands of power -/

theorem exec_unitGate (hh : heldOn s u = false) (hw : unitWork s u = false) : exec (.unitGate u) s =
    .next (modPow s u (fun p => if p.st == .on then { p with st := .gated, gatedAt := slowCycle s, gThresh := p.thresh } else p)) := by
  simp [exec, execUnitGate, gateOp, hh, hw]

theorem exec_unitRetain (hg : (powOf s u).st = .gated) (ha : alwaysOn u = false) (he : (powOf s u).retEn = true) (hb : busyUnit s u = false) :
    exec (.unitRetain u) s = .next (modPow (advanceSlow s ((powOf s u).gatedAt + (powOf s u).gThresh + 1)) u (fun q =>
      { q with st := .ret, retain := true, req := false, reqAt := none, late := false })) := by
  simp [exec, execUnitRetain, retainOp, hg, ha, he, hb]

theorem exec_pwrAckLate (ha : (powOf s u).reqAt = some n) (hr : (powOf s u).req = true) (hl : (powOf s u).late = false)
    (hs : (powOf s u).st = .ret ∨ (powOf s u).st = .off) :
    exec (.pwrAckLate u) s = .next (rcInc (modPow (advanceTo s (n + 4000)) u (fun q => { q with late := true })) .svcPwrAckLate) := by
  simp [exec, execPwrAckLate, ackLateOp, ha, hr, hl, hs]

theorem exec_pwrOnAck_idle (h : (powOf s u).req = true) (hw : ∀ w ∈ s.bus.deferred, w.1 ≠ u) :
    exec (.pwrOnAck u) s = .next (wakeWork (pwrAck s u) u) := congrArg _ (powerAckOp_of_idle h hw)

/-- The one write that waited is made. -/
theorem exec_pwrOnAck_write {a : Access} {r : Reg} {d : Nat} (h : (powOf s u).req = true) (hu : u ∉ [3, 10, 12, 13])
    (hw : s.bus.deferred = [(u, .write a r d)]) :
    exec (.pwrOnAck u) s = .next (writeReg { pwrAck s u with bus := { s.bus with deferred := [] } } a 0 r d) := by
  refine congrArg Host.Outcome.next ?_
  rw [powerAckOp_eq h, wakeWork_of_notMem hu, hw]
  simp [serveHeld]

theorem exec_powerRegisterWrite {a : Access} {d : Word} (h : reaches s a 17) (h1 : 1 ≤ u) (h18 : u ≤ 18) (ha : unitAbsent s.integ u = false)
    (hs : alwaysOn u = false) (hr : (powOf s u).st ≠ .ret) :
    exec (.powerRegisterWrite a u d) s = .next (answered a { touch s 17 with pow := (touch s 17).pow.modify (u - 1) (fun p =>
      { p with retEn := d.toNat.testBit 28, thresh := if 3 ≤ d.toNat % 256 then d.toNat % 256 else p.thresh }) }) := by
  have h17 : u - 1 ≠ 17 - 1 := by
    intro he
    have : u = 17 := by omega
    subst this
    cases hs
  have hr' : (powOf (touch s 17) u).st ≠ .ret := by rwa [powOf_touch, if_neg fun k => h17 k.1]
  have hput : putAt s a (pwrOff u) d.toNat = answered a (powerWrite (touch s 17) u d.toNat) := putAt_reaches h (targetAt_pwrOff h1 h18) rfl
  exact congrArg _ (hput.trans (congrArg _ (powerWrite_of_awake (s := touch s 17) ha hs hr')))

/-- Due work of a unit in RET or OFF only asks the unit to wake. -/
theorem exec_of_asleep {c : Instr} (h : asleep s u = true) (hc : ∃ work, exec c s = .next (whenOn s u work)) : exec c s = .next (touch s u) := by
  obtain ⟨work, hwork⟩ := hc
  rw [hwork, whenOn_of_asleep h]

/-- A request for a unit in RET waits for it. -/
theorem exec_of_ret {c : Instr} (h : (powOf s u).st = .ret) (hu : u - 1 < s.pow.length) (hc : ∃ serve, exec c s = .next (awaitUnit s u c serve)) :
    exec c s = .next { touch s u with bus := { s.bus with deferred := s.bus.deferred ++ [(u, .command c)] } } := by
  obtain ⟨serve, hserve⟩ := hc
  rw [hserve, awaitUnit_of_ret h hu]

theorem exec_bufWrite (h6 : 6 ≤ s.rst.step) (b : Bytes) :
    exec (.bufWrite n b) s = .next (awaitUnit s 12 (.bufWrite n b) (fun t => bufWriteOp t n b)) := by
  have he : earlyStart s = false := by simpa [earlyStart] using h6
  simp [exec, execBufWrite, bufWriteCmd, he]

theorem exec_bufRead (h6 : 6 ≤ s.rst.step) (k : Nat) :
    exec (.bufRead n k) s = .next (awaitUnit s 12 (.bufRead n k) (fun t => bufReadOp t n k)) := by
  have he : earlyStart s = false := by simpa [earlyStart] using h6
  simp [exec, execBufRead, bufReadCmd, he]

/-- WAKE_AHEAD asks every epoch unit in RET to wake, and moves the clock. -/
theorem exec_wakeAhead (h : s.time.grid.st ≠ .exhausted) : ∃ t, exec .wakeAhead s = .next t ∧
    (∀ u ∈ [2, 3, 4, 5, 6], (powOf s u).st = .ret → u - 1 < s.pow.length → (powOf t u).req = true) ∧
    t = { s with pow := t.pow, time := { s.time with c := t.time.c } } := by
  refine ⟨_, congrArg Host.Outcome.next (wakeAheadOp_eq h), fun u hu hst hlen => ?_, ?_⟩
  · obtain ⟨-, -, hasked⟩ := askedIf_foldl_wakeOne (asked := False) (s := advanceTick s (edgeTick s.time.grid (nextEpoch s) - 3000 * 1024))
      epochUnits ⟨hst, hlen, False.elim⟩
    exact hasked (.inr hu)
  · obtain ⟨pow, hframe⟩ := foldl_wakeOne_frame epochUnits (advanceTick s (edgeTick s.time.grid (nextEpoch s) - 3000 * 1024))
    rw [hframe]
    rfl

/-- Settles O7, clause by clause: the commands of power by what each does, due work and requests by `exec_of_asleep` and `exec_of_ret`. -/
theorem unitsWakeGateAndRetain : Obligations.UnitsWakeGateAndRetain := by
  refine ⟨fun s u hh hw hon hlen => ?_, fun s u hg ha he hb hlen => ?_, fun s u n ha hr hl hst hlen => ?_, fun s u h hw => ?_,
    fun s u => wakeWork_of_notMem, fun s u d a r h hu _ hw => exec_pwrOnAck_write h hu hw, fun s => exec_wakeAhead,
    fun s a u d h h1 h18 hab hs hr => exec_powerRegisterWrite h h1 h18 hab hs hr, fun s n k x w y z e h => ?_, fun s n k b => ?_⟩
  · refine ⟨_, exec_unitGate hh hw, ?_, ?_, ?_, fun v hv => powOf_modPow_ne hv, rfl⟩
    all_goals simp [powOf_modPow_self hlen, hon]
  · refine ⟨_, exec_unitRetain hg ha he hb, ?_, ?_, ?_, slowCycle_advanceSlow _ _, rfl⟩
    all_goals simp [powOf_modPow_self (s := advanceSlow s _) hlen]
  · refine ⟨_, exec_pwrAckLate ha hr hl hst, ?_, ?_, by simp, ?_⟩
    · rw [rcGet_rcInc, if_pos rfl]
      rfl
    · exact congrArg UnitPow.late (powOf_modPow_self (s := advanceTo s (n + 4000)) hlen)
    · rfl
  · rw [exec_pwrOnAck_idle h hw]
    simp only [pwrAck, modPow, beq_iff_eq]
  · refine ⟨fun ha c hc => ?_, fun ha c hc => ?_, fun ha c hc => ?_, fun ha c hc => ?_, fun ha c hc => ?_, fun ha c hc => ?_, fun ha c hc => ?_,
      fun ha c hc => ?_, fun ha c hc => ?_, fun ha c hc => ?_, fun ha c hc => ?_, fun ha c hc => ?_⟩
    all_goals
      refine exec_of_asleep ha ?_
      repeat (obtain rfl | hc := List.mem_cons.mp hc; · exact ⟨_, rfl⟩)
      cases hc
  · refine ⟨fun hr hlen c hc => exec_of_ret hr hlen ?_, fun hr hlen c hc => exec_of_ret hr hlen ?_, fun hr hlen h6 c hc => exec_of_ret hr hlen ?_⟩
    · obtain rfl | rfl | rfl := by simpa only [List.mem_cons, List.not_mem_nil, or_false] using hc
      all_goals exact ⟨_, rfl⟩
    · repeat (obtain rfl | hc := List.mem_cons.mp hc; · exact ⟨_, rfl⟩)
      cases hc
    · obtain rfl | rfl := by simpa only [List.mem_cons, List.not_mem_nil, or_false] using hc
      · exact ⟨_, exec_bufWrite h6 b⟩
      · exact ⟨_, exec_bufRead h6 k⟩

end Sys2Proof.Machine
end

section
/-!
What the hot set, the mailboxes' commands, the SRAM, the recorder and the memory port never touch, whatever they do: the fields of `Surround`.
Each operation has one lemma. `surround_mk` is its record updates, `surround_ite` and `surround_foldl` its choices and its folds.
-/
namespace Sys2Proof.Machine

/-- The fields around LEAP, the mailboxes, MEM, DMA and ERC. -/
structure Surround where
  integ     : Integ
  pending   : List Instr
  bus       : Bus
  rw        : List (RwReg × Nat)
  adj       : List (RwReg × Nat)
  time      : TimeU
  cap       : CapU
  img       : ImgU
  red       : RedU
  sealing   : SealU
  vrd       : VrdU
  ilk       : Ilk
  mir       : MirU
  pnl       : PnlU
  trc       : List TCore
  freeDraws : Nat

def surround (s : State) : Surround :=
  ⟨s.integ, s.pending, s.bus, s.rw, s.adj, s.time, s.cap, s.img, s.red, s.sealing, s.vrd, s.ilk, s.mir, s.pnl, s.trc, s.freeDraws⟩

/-- An update of other fields. -/
@[simp] theorem surround_mk (s : State) (pow rst mm rc feat leap host erc cmp flt mem boot) :
    surround ⟨s.integ, s.pending, s.bus, pow, rst, mm, rc, s.rw, s.adj, s.time, s.cap, feat, leap, s.img, s.red, s.sealing, s.vrd, s.ilk, s.mir, s.pnl,
      host, s.trc, erc, cmp, flt, mem, boot, s.freeDraws⟩ = surround s := rfl

@[simp] theorem surround_ite (c : Prop) [Decidable c] (s t : State) : surround (if c then s else t) = if c then surround s else surround t :=
  apply_ite surround c s t

@[simp] theorem surround_foldl {α : Type} {f : State → α → State} (h : ∀ t x, surround (f t x) = surround t) (l : List α) (s : State) :
    surround (l.foldl f s) = surround s := by
  induction l generalizing s with
  | nil => rfl
  | cons x r ih => rw [List.foldl_cons, ih, h]

theorem surround_foldl_fst {α β : Type} {f : State × β → α → State × β} (h : ∀ p x, surround (f p x).1 = surround p.1) {p : State × β} (l : List α) :
    surround (l.foldl f p).1 = surround p.1 := by
  induction l generalizing p with
  | nil => rfl
  | cons x r ih => rw [List.foldl_cons, ih, h]

@[simp] theorem surround_modPow (s : State) (u : Nat) (f : UnitPow → UnitPow) : surround (modPow s u f) = surround s := rfl
@[simp] theorem surround_touch (s : State) (u : Nat) : surround (touch s u) = surround s := rfl
@[simp] theorem surround_modLeap (s : State) (f : LeapU → LeapU) : surround (modLeap s f) = surround s := rfl
@[simp] theorem surround_modTally (s : State) (f : Tally → Tally) : surround (modTally s f) = surround s := rfl
@[simp] theorem surround_modHost (s : State) (f : HostU → HostU) : surround (modHost s f) = surround s := rfl
@[simp] theorem surround_modMbx (s : State) (m : Nat) (f : Mbx → Mbx) : surround (modMbx s m f) = surround s := rfl
@[simp] theorem surround_modView (s : State) (v : Nat) (f : View → View) : surround (modView s v f) = surround s := rfl
@[simp] theorem surround_modBank (s : State) (b : Nat) (f : Bank → Bank) : surround (modBank s b f) = surround s := rfl

@[simp] theorem surround_rcAdd (s : State) (r : RcReg) (n : Nat) : surround (rcAdd s r n) = surround s := by
  unfold rcAdd
  split <;> rfl

@[simp] theorem surround_rcInc (s : State) (r : RcReg) : surround (rcInc s r) = surround s := surround_rcAdd s r 1

@[simp] theorem surround_rcMax (s : State) (r : RcReg) (v : Nat) : surround (rcMax s r v) = surround s := by
  unfold rcMax
  split <;> rfl

/-! The memory port -/

@[simp] theorem surround_mmPump (s : State) : surround (mmPump s) = surround s := by simp [mmPump]

@[simp] theorem surround_mmReadJob (s : State) (o : MmOwner) (qos chan a n : Nat) : surround (mmReadJob s o qos chan a n) = surround s := by
  simp [mmReadJob]

@[simp] theorem surround_mmWriteJob (s : State) (o : MmOwner) (qos chan a : Nat) (b : Bytes) : surround (mmWriteJob s o qos chan a b) = surround s := by
  simp [mmWriteJob]

/-! Models, the slots of the feature buffer, and jobs -/

@[simp] theorem surround_sweepModels (s : State) : surround (sweepModels s) = surround s := by simp [sweepModels]

@[simp] theorem surround_modModel (s : State) (n : Nat) (f : Model → Model) : surround (modModel s n f) = surround s := by simp [modModel]

@[simp] theorem surround_sweepSlots (s : State) : surround (sweepSlots s) = surround s := by simp [sweepSlots]

@[simp] theorem surround_modSlots (s : State) (f : FSlot → FSlot) : surround (modSlots s f) = surround s := by simp [modSlots]

@[simp] theorem surround_readerJob (s : State) (jid : Nat) : surround (readerJob s jid) = surround s := by simp [readerJob]

@[simp] theorem surround_modJob (s : State) (jid : Nat) (f : Job → Job) : surround (modJob s jid f) = surround s := by simp [modJob]

@[simp] theorem surround_keepScore (s : State) (r : Score) : surround (keepScore s r) = surround s := by simp [keepScore]

@[simp] theorem surround_acctAdd (s : State) (sel n : Nat) : surround (acctAdd s sel n) = surround s := by simp [acctAdd]

@[simp] theorem surround_chargeBack (s : State) (j : Job) (w a : Nat) : surround (chargeBack s j w a) = surround s := by simp [chargeBack]

@[simp] theorem surround_closeStrand (s : State) (j : Job) (k : Nat) (t : Strand) : surround (closeStrand s j k t) = surround s := by
  simp [closeStrand]

@[simp] theorem surround_endJob (s : State) (jid status : Nat) (y : List Nat) : surround (endJob s jid status y) = surround s := by
  unfold endJob
  split <;> simp

@[simp] theorem surround_discardJobs (s : State) (status : Nat) (p : Job → Bool) : surround (discardJobs s status p) = surround s := by
  simp [discardJobs]

/-! The hot set: eviction, loads and repairs (R401 to R415) -/

@[simp] theorem surround_dropLoads (s : State) (n : Nat) : surround (dropLoads s n) = surround s := by simp [dropLoads]

@[simp] theorem surround_evictModel (s : State) (n : Nat) (squash : Bool) : surround (evictModel s n squash) = surround s := by simp [evictModel]

theorem surround_of_makeSpace {s t : State} {meets : List Nat → Bool} (h : makeSpace s meets = some t) : surround t = surround s := by
  unfold makeSpace at h
  split at h
  · cases h
    rfl
  · dsimp only at h
    split at h
    · cases h
      simp
    · cases h

@[simp] theorem surround_modLoad (s : State) (lid : Nat) (f : Load → Load) : surround (modLoad s lid f) = surround s := by simp [modLoad]

@[simp] theorem surround_shadowLoad (s : State) (x : Shadow) (n : Nat) (cls : Option Nat) (staged repair isFb : Bool) :
    surround (shadowLoad s x n cls staged repair isFb) = surround s := by simp [shadowLoad]

@[simp] theorem surround_fallbackSwitch (s : State) (n : Nat) (staged : Bool) : surround (fallbackSwitch s n staged) = surround s := by
  unfold fallbackSwitch
  repeat' split
  all_goals simp

@[simp] theorem surround_refuseLoad (s : State) (x : Load) (code : Nat) : surround (refuseLoad s x code) = surround s := by
  unfold refuseLoad
  dsimp only
  repeat' split
  all_goals simp

@[simp] theorem surround_trySpace (s : State) (x : Load) : surround (trySpace s x) = surround s := by
  unfold trySpace
  repeat' split
  case h_1 h => exact surround_of_makeSpace h
  all_goals simp

@[simp] theorem surround_useModel (s : State) (n : Nat) : surround (useModel s n) = surround s := by simp [useModel]

@[simp] theorem surround_giveNumber (s : State) (x : Load) (n : Nat) : surround (giveNumber s x n) = surround s := by simp [giveNumber]

@[simp] theorem surround_readHeader (s : State) (x : Load) : surround (readHeader s x) = surround s := by
  unfold readHeader
  dsimp only
  repeat' split
  all_goals simp

@[simp] theorem surround_found (s : State) (x : Load) (addr len : Nat) (flash : Bool) : surround (found s x addr len flash) = surround s := by
  unfold found
  dsimp only
  repeat' split
  all_goals simp

@[simp] theorem surround_fetchPack (s : State) (x : Load) : surround (fetchPack s x) = surround s := by
  unfold fetchPack
  split <;> simp

@[simp] theorem surround_fetchTable (s0 : State) (x : Load) : surround (fetchTable s0 x) = surround s0 := by
  unfold fetchTable
  dsimp only
  repeat' split
  all_goals simp

@[simp] theorem surround_tryInstall (s : State) (x : Load) : surround (tryInstall s x) = surround s := by
  unfold tryInstall
  dsimp only
  split
  · rfl
  · split
    · simp
    · split
      next h => exact surround_of_makeSpace h
      next => simp

@[simp] theorem surround_stepLoad (s : State) (lid : Nat) : surround (stepLoad s lid) = surround s := by
  unfold stepLoad
  repeat' split
  all_goals simp

@[simp] theorem surround_loadPump (s : State) : surround (loadPump s) = surround s := by simp [loadPump]

@[simp] theorem surround_startRepair (s : State) (n : Nat) : surround (startRepair s n) = surround s := by
  unfold startRepair
  dsimp only
  repeat' split
  all_goals simp

@[simp] theorem surround_dueRepairs (s : State) : surround (dueRepairs s) = surround s := by simp [dueRepairs]

@[simp] theorem surround_autoRepair (old s : State) : surround (autoRepair old s) = surround s := by simp [autoRepair]

@[simp] theorem surround_leapSettle (old s : State) : surround (leapSettle old s) = surround s := by simp [leapSettle]

/-! Mailboxes and views -/

@[simp] theorem surround_zeroUnit (s : State) (k : Nat) : surround (zeroUnit s k) = surround s := by simp [zeroUnit]

@[simp] theorem surround_drainUnits (s : State) : surround (drainUnits s) = surround s := by simp [drainUnits]

@[simp] theorem surround_irqStart (s : State) (v : Nat) : surround (irqStart s v) = surround s := by simp [irqStart]

@[simp] theorem surround_tenantIrq (s : State) (v : Nat) : surround (tenantIrq s v) = surround s := by simp [tenantIrq]

@[simp] theorem surround_finishMbx (s : State) (m code : Nat) (trunc : Bool) : surround (finishMbx s m code trunc) = surround s := by simp [finishMbx]

@[simp] theorem surround_setCmd (s : State) (m : Nat) (c : CmdState) : surround (setCmd s m c) = surround s := by simp [setCmd]

/-! The recorder and faults (R518 to R529, R568 to R570) -/

@[simp] theorem surround_ercWait (s : State) (r : ErcReq) : surround (ercWait s r) = surround s := by simp [ercWait]

@[simp] theorem surround_ercPut (s : State) (kind epoch gen epochs : Nat) (restart tstep : Bool) (body : Bytes) :
    surround (ercPut s kind epoch gen epochs restart tstep body) = surround s := by simp [ercPut]

@[simp] theorem surround_ercAppend (s : State) (kind epoch gen epochs : Nat) (restart tstep : Bool) (body : Bytes) :
    surround (ercAppend s kind epoch gen epochs restart tstep body) = surround s := by simp [ercAppend]

@[simp] theorem surround_ercDropFrozen (s : State) : surround (ercDropFrozen s) = surround s := by simp [ercDropFrozen]

@[simp] theorem surround_ercUnfreeze (s : State) : surround (ercUnfreeze s) = surround s := by simp [ercUnfreeze]

@[simp] theorem surround_ercForm (s : State) (q : List Nat) (power : Bool) : surround (ercForm s q power) = surround s := by simp [ercForm]

@[simp] theorem surround_ercFlushEnd (s : State) : surround (ercFlushEnd s) = surround s := by simp [ercFlushEnd]

@[simp] theorem surround_ercNext (s : State) : surround (ercNext s) = surround s := by simp [ercNext]

@[simp] theorem surround_ercEnd (s : State) (b : Bool) (qos : Nat) : surround (ercEnd s b qos) = surround s := by simp [ercEnd]

@[simp] theorem surround_ercPlace (s : State) (c : Chunk) (d : Bytes) : surround (ercPlace s c d) = surround s := by simp [ercPlace]

@[simp] theorem surround_ercSend (s : State) : surround (ercSend s) = surround s := by
  unfold ercSend
  repeat' split
  all_goals simp

@[simp] theorem surround_ercPump (s : State) : surround (ercPump s) = surround s := by simp [ercPump]

@[simp] theorem surround_bbFault (s : State) : surround (bbFault s) = surround s := by simp [bbFault]

@[simp] theorem surround_bbPower (s : State) : surround (bbPower s) = surround s := by
  unfold bbPower
  dsimp only
  repeat' split
  all_goals simp

@[simp] theorem surround_ercFlushNow (s : State) (cause loc : Nat) : surround (ercFlushNow s cause loc) = surround s := by simp [ercFlushNow]

@[simp] theorem surround_ercFlush (s : State) (cause loc : Nat) : surround (ercFlush s cause loc) = surround s := by simp [ercFlush]

@[simp] theorem surround_faultEnter (s : State) (f : FaultRec) : surround (faultEnter s f) = surround s := by simp [faultEnter]

@[simp] theorem surround_raiseFault (s : State) (cause loc : Nat) : surround (raiseFault s cause loc) = surround s := by simp [raiseFault]

/-! SRAM (R542 to R557) -/

@[simp] theorem surround_storeRaw (s : State) (b i : Nat) (w : List Nat) : surround (storeRaw s b i w) = surround s := by simp [storeRaw]

@[simp] theorem surround_writeWordA (s : State) (b i : Nat) (w : List Nat) : surround (writeWordA s b i w) = surround s := by simp [writeWordA]

@[simp] theorem surround_writeWordB (s : State) (b i : Nat) (w : List Nat) : surround (writeWordB s b i w) = surround s := by simp [writeWordB]

@[simp] theorem surround_noteUe (s : State) (b : Nat) : surround (noteUe s b) = surround s := by
  unfold noteUe
  exact (surround_raiseFault _ _ _).trans (surround_mk s _ _ _ _ _ _ _ _ _ _ _ _)

@[simp] theorem surround_noteFix (s : State) (b i : Nat) (f : Nat × Nat) : surround (noteFix s b i f) = surround s := by simp [noteFix]

@[simp] theorem surround_readWord (s : State) (b i : Nat) (keep : Bool) : surround (readWord s b i keep).1 = surround s := by
  unfold readWord
  dsimp only
  repeat' split
  all_goals simp

@[simp] theorem surround_dropEnt (s : State) (b i : Nat) : surround (dropEnt s b i) = surround s := by simp [dropEnt]

@[simp] theorem surround_drainEnt (s : State) (b : Nat) (e : MergeEnt) : surround (drainEnt s b e) = surround s := by simp [drainEnt]

@[simp] theorem surround_writeIn (s0 : State) (portB : Bool) (b i o : Nat) (d : Bytes) : surround (writeIn s0 portB b i o d) = surround s0 := by
  unfold writeIn
  repeat' split
  all_goals simp

@[simp] theorem surround_writeSpan (portB : Bool) (f : Nat) (s : State) (a : Nat) (d : Bytes) : surround (writeSpan portB f s a d) = surround s := by
  induction f generalizing s a d with
  | zero => rfl
  | succ f ih =>
    unfold writeSpan
    split
    · rfl
    · simp [ih]

@[simp] theorem surround_sramWrite (s : State) (portB : Bool) (a : Nat) (d : Bytes) : surround (sramWrite s portB a d) = surround s :=
  (surround_writeSpan portB _ _ a d).trans rfl

@[simp] theorem surround_drainWord (s : State) (b i : Nat) : surround (drainWord s b i) = surround s := by
  unfold drainWord
  split <;> simp

@[simp] theorem surround_readIn (s : State) (portB : Bool) (b i : Nat) : surround (readIn s portB b i).1 = surround s := by
  unfold readIn
  dsimp only
  repeat' split
  all_goals simp

@[simp] theorem surround_readSpan (portB : Bool) (f : Nat) (s : State) (a n : Nat) : surround (readSpan portB f s a n).1 = surround s := by
  induction f generalizing s a n with
  | zero => rfl
  | succ f ih =>
    unfold readSpan
    split
    · rfl
    · dsimp only
      rw [ih]
      split <;> simp

@[simp] theorem surround_sramRead (s : State) (portB : Bool) (a n : Nat) : surround (sramRead s portB a n).1 = surround s :=
  (surround_readSpan portB _ _ a n).trans rfl

@[simp] theorem surround_readPlace (s : State) (p : Place) (n : Nat) : surround (readPlace s p n).1 = surround s := by
  unfold readPlace
  split
  · rfl
  · simp
  · simp
  · refine surround_foldl_fst (p := (s, [], true)) (fun t x => ?_) _
    exact surround_sramRead t.1 true x.1 x.2

@[simp] theorem surround_aliasWord (s : State) (setBits : Bool) (a v : Nat) : surround (aliasWord s setBits a v).1 = surround s := by
  unfold aliasWord
  dsimp only
  repeat' split
  all_goals simp

@[simp] theorem surround_aliasSpan (setBits : Bool) (f : Nat) (s : State) (a : Nat) (d : Bytes) :
    surround (aliasSpan setBits f s a d).1 = surround s := by
  induction f generalizing s a d with
  | zero => rfl
  | succ f ih =>
    unfold aliasSpan
    dsimp only
    repeat' split
    all_goals simp [ih]

@[simp] theorem surround_writePlace (s : State) (p : Place) (d : Bytes) : surround (writePlace s p d).1 = surround s := by
  unfold writePlace
  split
  · rfl
  · simp
  · exact (surround_aliasSpan _ _ _ _ _).trans rfl
  · exact surround_foldl_fst (p := (s, d)) (fun t x => surround_sramWrite t.1 true x.1 _) _

/-! DMA and what waits for it (R623 to R627) -/

@[simp] theorem surround_writeDone (s : State) (m : Nat) (r : DmaRun) : surround (writeDone s m r) = surround s := by simp [writeDone]

@[simp] theorem surround_haltDma (s : State) (m : Nat) (r : DmaRun) : surround (haltDma s m r) = surround s := by simp [haltDma]

@[simp] theorem surround_putData (s : State) (m : Nat) (r : DmaRun) (d : DmaDesc) (data : Bytes) : surround (putData s m r d data) = surround s := by
  unfold putData
  dsimp only
  repeat' split
  all_goals simp

@[simp] theorem surround_startDesc (s : State) (m : Nat) (r : DmaRun) : surround (startDesc s m r) = surround s := by
  unfold startDesc
  dsimp only
  repeat' split
  all_goals simp

@[simp] theorem surround_tryDma (s : State) (m : Nat) (ds : List DmaDesc) : surround (tryDma s m ds) = surround s := by
  unfold tryDma
  repeat' split
  all_goals simp

@[simp] theorem surround_waitStep (s : State) (m : Nat) : surround (waitStep s m) = surround s := by
  unfold waitStep
  split <;> simp

@[simp] theorem surround_waitPass (n : Nat) (s : State) : surround (waitPass n s) = surround s := by
  induction n generalizing s with
  | zero => rfl
  | succ n ih => simp [waitPass, ih]

@[simp] theorem surround_mbxSettle (s : State) : surround (mbxSettle s) = surround s := by simp [mbxSettle]

/-! LEAP_RUN (R628 to R630) -/

@[simp] theorem surround_writeResult (s : State) (m : Nat) (r : LeapRun) (i st : Nat) (b : Bytes) : surround (writeResult s m r i st b) = surround s := by
  simp [writeResult]

@[simp] theorem surround_bufMark (s : State) : surround (bufMark s) = surround s := by simp [bufMark]

@[simp] theorem surround_startDemand (s : State) (bundle : Nat) (byHost : Bool) : surround (startDemand s bundle byHost) = surround s := by
  unfold startDemand
  dsimp only
  repeat' split
  all_goals simp

@[simp] theorem surround_vtJoin (s : State) (v : Nat) : surround (vtJoin s v) = surround s := by
  unfold vtJoin
  split <;> simp

@[simp] theorem surround_addJob (s : State) (j : Job) : surround (addJob s j) = surround s := by simp [addJob]

@[simp] theorem surround_hostJob (s : State) (view bundle tag : Nat) (v : Vec) : surround (hostJob s view bundle tag v) = surround s := by
  unfold hostJob
  dsimp only
  repeat' split
  all_goals simp

@[simp] theorem surround_createJob (s : State) (m : Nat) (r : LeapRun) (d : RunDesc) (b : Bytes) : surround (createJob s m r d b) = surround s := by
  simp [createJob]

@[simp] theorem surround_pumpRun (f : Nat) (s : State) (m : Nat) : surround (pumpRun f s m) = surround s := by
  induction f generalizing s with
  | zero => rfl
  | succ f ih =>
    unfold pumpRun
    dsimp only
    repeat' split
    all_goals simp [ih]

@[simp] theorem surround_pumpRuns (s : State) : surround (pumpRuns s) = surround s := by simp [pumpRuns]

@[simp] theorem surround_settled (old s : State) : surround (settled old s) = surround s := by simp [settled]

/-! A Newt's fields, and what follows a record that is ready -/

@[simp] theorem surround_readScore (s : State) (model out x : Nat) : surround (readScore s model out x).1 = surround s := by simp [readScore]

@[simp] theorem surround_leafSource (s : State) (im : Image) (smp : Sample) (sels : List (Option (Nat × Nat))) (vec : Option Vec) (d : FieldDesc) :
    surround (leafSource s im smp sels vec d).1 = surround s := by
  unfold leafSource
  dsimp only
  repeat' split
  all_goals simp

@[simp] theorem surround_newtField (s : State) (im : Image) (smp : Sample) (sels : List (Option (Nat × Nat))) (vec : Option Vec) (poisoned : List Nat)
    (i : Nat) (d : FieldDesc) : surround (newtField s im smp sels vec poisoned i d).1 = surround s := by
  unfold newtField
  dsimp only
  repeat' split
  all_goals simp

@[simp] theorem surround_newtFields (im : Image) (smp : Sample) (sels : List (Option (Nat × Nat))) (vec : Option Vec) (poisoned : List Nat)
    (l : List FieldDesc) (i : Nat) (s : State) : surround (newtFields im smp sels vec poisoned l i s).1 = surround s := by
  induction l generalizing i s with
  | nil => rfl
  | cons d r ih => simp [newtFields, ih]

@[simp] theorem surround_dlvStart (s : State) (v : Nat) : surround (dlvStart s v) = surround s := by simp [dlvStart]

@[simp] theorem surround_dlvOne (epoch gen : Nat) (owned : List (Nat × Nat × Field)) (s : State) (v : Nat) :
    surround (dlvOne epoch gen owned s v) = surround s := by simp [dlvOne]

@[simp] theorem surround_deliverAll (s : State) (sch : SchemaSec) (r : Record) : surround (deliverAll s sch r) = surround s := by simp [deliverAll]

@[simp] theorem surround_readerRed (s : State) (x : Nat) : surround (readerRed s x) = surround s := by simp [readerRed]

@[simp] theorem surround_ercReady (s : State) (x cflags nmiss loss : Nat) (head : Bytes) :
    surround (ercReady s x cflags nmiss loss head) = surround s := by simp [ercReady]

@[simp] theorem surround_recordNoted (s : State) (r : Record) : surround (recordNoted s r) = surround s := surround_ercReady _ _ _ _ _ _

end Sys2Proof.Machine
end

section
/-!
NEWT_RECORD_READY (R28, R29, R271 to R275): what the own-baseline detectors leave of the state before a Newt's record is formed, and the record itself.
-/
namespace Sys2Proof.Machine

variable {s t : State}

/-! What a detector on the own baseline leaves -/

/-- A record but for its SELF section. -/
def withoutSelf (r : Record) : Record := { r with self := none }

/-- The surroundings but for what a detector's pass may change: the verdicts, the links, the SELF sections of the records (R438), and whether the
detector states have been taken over from the image before (R430). -/
def unjudged (s : State) : Surround :=
  { surround s with
    vrd := State.reset.vrd
    ilk := State.reset.ilk
    red := { s.red with own := s.red.own.map withoutSelf, unsent := s.red.unsent.map withoutSelf }
    img := { s.img with detDue := false } }

theorem unjudged_of_surround (h : surround t = surround s) : unjudged t = unjudged s :=
  congrArg (fun v : Surround => { v with
    vrd := State.reset.vrd
    ilk := State.reset.ilk
    red := { v.red with own := v.red.own.map withoutSelf, unsent := v.red.unsent.map withoutSelf }
    img := { v.img with detDue := false } }) h

@[simp] theorem unjudged_ite (c : Prop) [Decidable c] (s t : State) : unjudged (if c then s else t) = if c then unjudged s else unjudged t :=
  apply_ite unjudged c s t

theorem unjudged_foldl {α : Type} {f : State → α → State} {l : List α} (h : ∀ t, ∀ x ∈ l, unjudged (f t x) = unjudged t) (s : State) :
    unjudged (l.foldl f s) = unjudged s := by
  induction l generalizing s with
  | nil => rfl
  | cons x r ih =>
    rw [List.foldl_cons, ih fun t y hy => h t y (List.mem_cons_of_mem _ hy), h s x List.mem_cons_self]

@[simp] theorem unjudged_rcInc (s : State) (r : RcReg) : unjudged (rcInc s r) = unjudged s := unjudged_of_surround (surround_rcInc s r)
@[simp] theorem unjudged_touch (s : State) (u : Nat) : unjudged (touch s u) = unjudged s := rfl
@[simp] theorem unjudged_modVrd (s : State) (f : VrdU → VrdU) : unjudged (modVrd s f) = unjudged s := by cases s; rfl
@[simp] theorem unjudged_modDet (s : State) (i : Nat) (f : Det → Det) : unjudged (modDet s i f) = unjudged s := rfl
@[simp] theorem unjudged_settleBudgets (s : State) : unjudged (settleBudgets s) = unjudged s := rfl
@[simp] theorem unjudged_queueFrame (s : State) (p row order ty : Nat) (b : Bytes) : unjudged (queueFrame s p row order ty b) = unjudged s := rfl
@[simp] theorem unjudged_toOverflow (s : State) (v : Verdict) : unjudged (toOverflow s v) = unjudged s := rfl

@[simp] theorem unjudged_queueAll (s : State) (ps : List Nat) (row order ty : Nat) (b : Bytes) :
    unjudged (queueAll s ps row order ty b) = unjudged s := unjudged_foldl (fun t p _ => unjudged_queueFrame t p row order ty b) s

@[simp] theorem unjudged_holdWith (s : State) (v : Verdict) (reason : Nat) : unjudged (holdWith s v reason).1 = unjudged s := by
  simp [holdWith]

@[simp] theorem unjudged_spend (s : State) (v : Verdict) : unjudged (spend s v).1 = unjudged s := by
  unfold spend
  dsimp only
  repeat' split
  all_goals simp

@[simp] theorem unjudged_openVote (s : State) (v : Verdict) : unjudged (openVote s v).1 = unjudged s := by
  unfold openVote
  dsimp only
  split <;> simp

@[simp] theorem unjudged_placeVerdict (s : State) (e : VEntry) : unjudged (placeVerdict s e) = unjudged s := by
  unfold placeVerdict
  dsimp only
  repeat' split
  all_goals simp

@[simp] theorem unjudged_joinQueue (s : State) (e : VEntry) : unjudged (joinQueue s e) = unjudged s := by
  simp [joinQueue]

@[simp] theorem unjudged_enterVerdict (s : State) (v : Verdict) (port : Option Nat) : unjudged (enterVerdict s v port) = unjudged s := by
  unfold enterVerdict
  dsimp only
  repeat' split
  all_goals simp

theorem map_withoutSelf {f : Record → Record} (h : ∀ r, withoutSelf (f r) = withoutSelf r) (l : List Record) :
    (l.map f).map withoutSelf = l.map withoutSelf := by
  rw [List.map_map]
  exact List.map_congr_left fun r _ => h r

/-- A class bit in VMASK is a mark in SELF sections. -/
@[simp] theorem unjudged_noteHealth (s : State) (e bit : Nat) : unjudged (noteHealth s e bit) = unjudged s := by
  simp only [unjudged, noteHealth, modRed, modVrd]
  rw [map_withoutSelf fun r => by split <;> rfl, map_withoutSelf fun r => by split <;> rfl]
  rfl

@[simp] theorem unjudged_produce (s : State) (im : Image) (e det dkind cls : Nat) (health : Bool) (r : Raise) :
    unjudged (produce s im e det dkind cls health r) = unjudged s := by
  simp [produce]

@[simp] theorem unjudged_raiseVerdict (im : Image) (e i : Nat) (d : DetEnt) (s : State) (r : Raise) :
    unjudged (raiseVerdict im e i d s r) = unjudged s := by
  simp [raiseVerdict]

/-- The pass of a detector on the own baseline (R429). -/
theorem unjudged_detPass (im : Image) (e : Nat) (dn : Option DownRec) (s : State) (p : Nat × DetEnt) (h : ownBaseline p.2 = true) :
    unjudged (detPass im e dn s p) = unjudged s := by
  have hk : p.2.kind ≤ 2 := by simpa [ownBaseline] using h
  unfold detPass
  dsimp only
  rw [if_pos hk]
  split
  · rfl
  · rw [unjudged_foldl fun t _ _ => unjudged_raiseVerdict im e p.1 p.2 t _, unjudged_modDet]

@[simp] theorem unjudged_carryDetsFor (s : State) (e : Nat) : unjudged (carryDetsFor s e) = unjudged s := by
  unfold carryDetsFor
  split
  · split <;> rfl
  · rfl

@[simp] theorem unjudged_runBaselines (s : State) (x : Nat) : unjudged (runBaselines s x) = unjudged s := by
  unfold runBaselines
  rw [unjudged_modVrd]
  refine unjudged_foldl (fun t d _ => ?_) s
  dsimp only
  split
  · rw [unjudged_foldl fun t p hp => unjudged_detPass _ _ _ t p (List.mem_filter.mp hp).2, unjudged_carryDetsFor]
  · exact unjudged_carryDetsFor t d.epoch

/-- With no detector pass due the baselines change nothing. -/
theorem runBaselines_of_none (h : s.vrd.due = []) (x : Nat) : runBaselines s x = s := by
  unfold runBaselines modVrd
  simp only [h, List.filter_nil, List.foldl_nil, List.map_nil]
  rw [← h]

/-! What the record is formed from -/

theorem genAt_of_unjudged (h : (unjudged t).img = (unjudged s).img) (x : Nat) : genAt t x = genAt s x :=
  have himg := congrArg (fun img : ImgU => genAt { State.reset with img := img } x) h
  himg

theorem formsSummary_of_unjudged (hrw : t.rw = s.rw) (hadj : t.adj = s.adj) (hred : (unjudged t).red = (unjudged s).red) :
    formsSummary t = formsSummary s := by
  have hunmarked (u : State) : formsSummary u = formsSummary { State.reset with rw := u.rw, adj := u.adj, red := (unjudged u).red } := by
    simp only [formsSummary, unjudged, rwEff, rwGet, List.length_map, List.getLast?_map]
    cases u.red.unsent.getLast? <;> rfl
  rw [hunmarked t, hunmarked s, hrw, hadj, hred]

theorem ownEpochs_of_unjudged (h : (unjudged t).red = (unjudged s).red) : t.red.own.map (·.epoch) = s.red.own.map (·.epoch) := by
  have hown : t.red.own.map withoutSelf = s.red.own.map withoutSelf := congrArg RedU.own h
  have hepochs := congrArg (List.map (·.epoch)) hown
  rwa [List.map_map, List.map_map] at hepochs

/-! The record -/

theorem newtFields_length (im : Image) (smp : Sample) (sels : List (Option (Nat × Nat))) (vec : Option Vec) (poisoned : List Nat) (l : List FieldDesc)
    (i : Nat) (s : State) : (newtFields im smp sels vec poisoned l i s).2.length = l.length := by
  induction l generalizing i s with
  | nil => rfl
  | cons d r ih => simp [newtFields, ih]

/-- The form in which a node's record becomes ready (R275). -/
def readyForm (s : State) (im : Image) (full : Record) : Record := if im.role ≠ 3 && formsSummary s then summarise full else full

/-- SUMMARY form changes the fields, but not their number, and the coverage's DEGRADED. -/
theorem summarise_frame (r : Record) : ∃ fields cov, summarise r = { r with summary := true, fields := fields, cov := cov } ∧
    fields.length = r.fields.length ∧ cov.leaves = r.cov.leaves ∧ cov.expect = r.cov.expect := by
  unfold summarise
  split
  next h => exact ⟨r.fields, r.cov, by rw [← h], rfl, rfl, rfl⟩
  next => exact ⟨_, _, rfl, by simp, rfl, rfl⟩

/-- The record as it becomes ready below the Dome: SUMMARY form only where R275 asks for it. -/
theorem readyForm_frame {im : Image} {full : Record} (hrole : im.role ≠ 3) (hfull : full.summary = false) : ∃ fields cov,
    readyForm s im full = { full with summary := formsSummary s, fields := fields, cov := cov } ∧
    fields.length = full.fields.length ∧ cov.leaves = full.cov.leaves ∧ cov.expect = full.cov.expect := by
  unfold readyForm
  cases hform : formsSummary s with
  | false => exact ⟨full.fields, full.cov, by rw [Bool.and_false, if_neg Bool.false_ne_true, ← hfull], rfl, rfl, rfl⟩
  | true =>
    obtain ⟨fields, cov, hsum, hrest⟩ := summarise_frame full
    exact ⟨fields, cov, by simp [hrole, hsum], hrest⟩

theorem surround_modRed (s : State) (f : RedU → RedU) : surround (modRed s f) = { surround s with red := f s.red } := rfl

theorem surround_enqueueOwn (s : State) (r : Record) : ∃ unsent,
    surround (enqueueOwn s r) = { surround s with red := { s.red with unsent := unsent } } := by
  unfold enqueueOwn
  dsimp only
  generalize (if rwEff s .redCfg % 16 ≤ s.red.unsent.length then s.red.unsent.map summarise else s.red.unsent) = old
  split
  · exact ⟨_, surround_rcInc _ _⟩
  · exact ⟨_, rfl⟩

/-- A ready record below the Dome joins the node's own, and those that wait for the uplink. -/
theorem surround_ownReady {im : Image} (hrole : im.role ≠ 3) (s : State) (full : Record) : ∃ unsent,
    surround (ownReady s im full).1 = { surround s with red := { s.red with own := (readyForm s im full :: s.red.own).take 9, unsent := unsent } } := by
  obtain ⟨unsent, hqueue⟩ := surround_enqueueOwn s (applyStop im.reduce (readyForm s im full))
  have hred : (enqueueOwn s (applyStop im.reduce (readyForm s im full))).red = { s.red with unsent := unsent } := congrArg Surround.red hqueue
  refine ⟨unsent, ?_⟩
  unfold ownReady
  dsimp only
  rw [if_neg hrole, surround_readerRed, surround_deliverAll, surround_recordNoted, surround_modRed]
  unfold readyForm at hqueue hred
  rw [hqueue, hred]
  rfl

/-! NEWT_RECORD_READY -/

/-- VRD is asked for where baselines are due up to `x`. -/
def newtWoken (s : State) (x : Nat) : State := if baselinesDue s x then touch s 6 else s

theorem newtWoken_cases (s : State) (x : Nat) : newtWoken s x = s ∨ newtWoken s x = touch s 6 := by
  unfold newtWoken
  split
  · exact .inr rfl
  · exact .inl rfl

/-- Where a Newt's record begins: jobs still in flight are waited for (log entry 130). -/
def newtStart (s : State) (x : Nat) : State :=
  if jobsPending s x then advanceTick (newtWoken s x) (edgeTick s.time.grid (x + 1) + 4000 * 1024) else newtWoken s x

theorem surround_newtStart (s : State) (x : Nat) : ∃ c, surround (newtStart s x) = { surround s with time := { s.time with c := c } } ∧
    (jobsPending s x = false → c = s.time.c) := by
  have hu : surround (newtWoken s x) = surround s := by rcases newtWoken_cases s x with h | h <;> rw [h]; rfl
  have htime : (newtWoken s x).time = s.time := congrArg Surround.time hu
  unfold newtStart
  cases jobsPending s x with
  | false => exact ⟨s.time.c, hu, fun _ => rfl⟩
  | true =>
    obtain ⟨c, hc⟩ : ∃ c, surround (advanceTick (newtWoken s x) (edgeTick s.time.grid (x + 1) + 4000 * 1024)) =
        { surround (newtWoken s x) with time := { (newtWoken s x).time with c := c } } := ⟨_, rfl⟩
    exact ⟨c, by rw [if_pos rfl, hc, hu, htime], fun h => nomatch h⟩

/-- The fields of a Newt's record, with the state that forming them leaves. -/
def newtFormed (s : State) (im : Image) (smp : Sample) (poisoned : List Nat) : State × List Field :=
  newtFields im smp (selsAt s smp.epoch) (epochVec s smp.epoch) poisoned im.schema.fields 0 (touch s 4)

theorem newtFormed_length (s : State) (im : Image) (smp : Sample) (poisoned : List Nat) :
    (newtFormed s im smp poisoned).2.length = im.schema.fields.length := newtFields_length _ _ _ _ _ _ _ _

@[simp] theorem surround_newtFormed (s : State) (im : Image) (smp : Sample) (poisoned : List Nat) :
    surround (newtFormed s im smp poisoned).1 = surround s := by
  simp [newtFormed]

theorem newtReady_eq {poisoned : List Nat} {smp : Sample} {im : Image} (h6 : asleep s 6 = false) (hdue : newtDue s = some smp)
    (him : imageAt s smp.epoch = some im) (hrole : im.role = 1) (hq : quiet s = false) (hv : vectorPending s smp.epoch = false) :
    newtReady s poisoned =
      let r := newtFormed (runBaselines (newtStart s smp.epoch) smp.epoch) im smp poisoned
      (ownReady r.1 im (newtRecord r.1 im smp r.2)).1 := by
  have hwoken : ∀ u, u = s ∨ u = touch s 6 → asleep u 6 = false ∧ quiet u = false ∧ vectorPending u smp.epoch = false ∧
      jobsPending u smp.epoch = jobsPending s smp.epoch ∧ u.time = s.time := by
    rintro u (rfl | rfl)
    · exact ⟨h6, hq, hv, rfl, rfl⟩
    · exact ⟨(asleep_touch s 6 6).trans h6, hq, hv, rfl, rfl⟩
  obtain ⟨h6', hq', hv', hj', ht'⟩ := hwoken _ (newtWoken_cases s smp.epoch)
  unfold newtReady
  simp only [hdue, him]
  unfold newtStart
  unfold newtWoken at *
  rw [if_neg (by simp [hrole, hq', hv', h6']), hj', ht']
  rfl

/-- How a Newt forms the record of `smp` on its way from `s` to `t`: `f` holds the state in which the fields have been formed, and them. -/
structure FormsRecord (s : State) (im : Image) (smp : Sample) (f : State × List Field) (t : State) : Prop where
  fields   : f.2.length = im.schema.fields.length
  judged   : unjudged f.1 = { unjudged s with time := { s.time with c := f.1.time.c } }
  unwaited : jobsPending s smp.epoch = false → f.1.time.c = s.time.c
  nonedue  : s.vrd.due = [] → surround f.1 = { surround s with time := { s.time with c := f.1.time.c } }
  kept     : ∃ unsent, surround t = { surround f.1 with red := { f.1.red with
    own := (readyForm f.1 im (newtRecord f.1 im smp f.2) :: f.1.red.own).take 9
    unsent := unsent } }

theorem newtReady_formsRecord (poisoned : List Nat) {smp : Sample} {im : Image} (h6 : asleep s 6 = false) (hdue : newtDue s = some smp)
    (him : imageAt s smp.epoch = some im) (hrole : im.role = 1) (hq : quiet s = false) (hv : vectorPending s smp.epoch = false) :
    ∃ f, FormsRecord s im smp f (newtReady s poisoned) := by
  obtain ⟨c, hstart, hc⟩ := surround_newtStart s smp.epoch
  generalize hu : newtStart s smp.epoch = u at hstart
  obtain ⟨f, hf⟩ : ∃ f, newtFormed (runBaselines u smp.epoch) im smp poisoned = f := ⟨_, rfl⟩
  have hsame : surround f.1 = surround (runBaselines u smp.epoch) := hf ▸ surround_newtFormed _ _ _ _
  have hjudged : unjudged f.1 = { unjudged s with time := { s.time with c := c } } :=
    calc unjudged f.1 = unjudged (runBaselines u smp.epoch) := unjudged_of_surround hsame
      _ = unjudged u := unjudged_runBaselines u smp.epoch
      _ = unjudged { s with time := { s.time with c := c } } := unjudged_of_surround hstart
  obtain rfl : f.1.time.c = c := congrArg (fun v : Surround => v.time.c) hjudged
  refine ⟨f, hf ▸ newtFormed_length _ _ _ _, hjudged, hc, fun hnone => ?_, ?_⟩
  · have hvrd : u.vrd = s.vrd := congrArg Surround.vrd hstart
    rw [hsame, runBaselines_of_none (hvrd ▸ hnone), hstart]
  · have hrole3 : im.role ≠ 3 := by omega
    obtain ⟨unsent, hown⟩ := surround_ownReady hrole3 f.1 (newtRecord f.1 im smp f.2)
    have hready : newtReady s poisoned = (ownReady f.1 im (newtRecord f.1 im smp f.2)).1 := by rw [newtReady_eq h6 hdue him hrole hq hv, hu, hf]
    exact ⟨unsent, hready ▸ hown⟩

theorem exec_newtRecordReady (h : asleep s 4 = false) (poisoned : List Nat) :
    exec (.newtRecordReady poisoned) s = .next (settled (touch s 4) (newtReady (touch s 4) poisoned)) :=
  congrArg Host.Outcome.next (whenOn_of_awake h _)

/-- The command on a node with RED and VRD awake forms the record: `settled` touches nothing around LEAP and the mailboxes. -/
theorem exec_newtRecordReady_formsRecord (poisoned : List Nat) {smp : Sample} {im : Image} (h4 : asleep s 4 = false) (h6 : asleep s 6 = false)
    (hdue : newtDue s = some smp) (him : imageAt s smp.epoch = some im) (hrole : im.role = 1) (hq : quiet s = false)
    (hv : vectorPending s smp.epoch = false) : ∃ t f, exec (.newtRecordReady poisoned) s = .next t ∧ FormsRecord s im smp f t := by
  have h6' : asleep (touch s 4) 6 = false := (asleep_touch s 6 4).trans h6
  obtain ⟨f, hfields, hjudged, hunwaited, hnonedue, unsent, hkept⟩ :=
    newtReady_formsRecord (s := touch s 4) poisoned h6' hdue him hrole hq hv
  have hsettled := surround_settled (touch s 4) (newtReady (touch s 4) poisoned)
  exact ⟨_, f, exec_newtRecordReady h4 poisoned, hfields, hjudged, hunwaited, hnonedue, unsent, hsettled.trans hkept⟩

/-- Settles O32: the command forms the record (`exec_newtRecordReady_formsRecord`), whose values come from a state like the one before it but for what
a detector's pass may change. -/
theorem newtRecordsAreFormedInOrder : Obligations.NewtRecordsAreFormedInOrder := by
  refine ⟨fun s p smp im h4 h6 hdue him hrole hq hv => ?_, fun s p h4 hnone => ?_⟩
  · obtain ⟨t, f, hexec, hlen, hf, hc, hnonedue, unsent, ht⟩ := exec_newtRecordReady_formsRecord p h4 h6 hdue him hrole hq hv
    obtain ⟨fields, cov, hr, hfields, hleaves, hexpect⟩ := readyForm_frame (s := f.1) (full := newtRecord f.1 im smp f.2) (im := im) (by omega) rfl
    have hrw : f.1.rw = s.rw := congrArg Surround.rw hf
    have hadj : f.1.adj = s.adj := congrArg Surround.adj hf
    have himg : (unjudged f.1).img = (unjudged s).img := by rw [hf]
    have hred : (unjudged f.1).red = (unjudged s).red := by rw [hf]
    have hgen : genAt f.1 smp.epoch = genAt s smp.epoch := genAt_of_unjudged himg smp.epoch
    have hform : formsSummary f.1 = formsSummary s := formsSummary_of_unjudged hrw hadj hred
    have hown : t.red.own = (readyForm f.1 im (newtRecord f.1 im smp f.2) :: f.1.red.own).take 9 := congrArg (fun v : Surround => v.red.own) ht
    have htime : t.time = { s.time with c := f.1.time.c } := (congrArg Surround.time ht).trans (congrArg Surround.time hf)
    rw [hr] at hown
    refine ⟨t, _, hexec, by rw [hown, List.take_succ_cons, List.head?_cons], ?_, rfl, rfl, rfl, hgen, rfl, rfl, hleaves, hexpect, hform,
      hfields.trans hlen, (congrArg Surround.cap ht).trans (congrArg Surround.cap hf),
      (congrArg Surround.sealing ht).trans (congrArg Surround.sealing hf), (congrArg Surround.bus ht).trans (congrArg Surround.bus hf),
      (congrArg Surround.rw ht).trans hrw, by rw [htime], fun hj => by rw [htime, hc hj], fun hdue0 => ?_⟩
    · rw [hown, List.map_take, List.map_cons, ownEpochs_of_unjudged hred]
      rfl
    · have hsame := hnonedue hdue0
      have hred' : f.1.red = s.red := congrArg Surround.red hsame
      exact ⟨by rw [hown, hred'], (congrArg Surround.img ht).trans (congrArg Surround.img hsame),
        (congrArg Surround.vrd ht).trans (congrArg Surround.vrd hsame), (congrArg Surround.ilk ht).trans (congrArg Surround.ilk hsame)⟩
  · have hdue : newtDue (touch s 4) = none := hnone
    have hready : newtReady (touch s 4) p = touch s 4 := by rw [newtReady, hdue]
    rw [exec_newtRecordReady h4, hready]

end Sys2Proof.Machine
end

section
/-!
Step marks (R208 to R212): the cases of a committed mark, what each leaves of the slots, the table and the counters, and what a mark never touches.
-/
namespace Sys2Proof.Machine

variable {s t u : State} {a : Access} {isEnd : Bool} {job gen num i n : Nat} {j : JobSlot} {b : Stamp} {v : EvSample} {c : CaptureSec}

theorem findIdx_eq_none {α : Type} {p : α → Bool} {l : List α} (h : ∀ x ∈ l, p x = false) : findIdx p l = none := by
  have hlen : l.findIdx p = l.length := List.findIdx_eq_length.mpr h
  simp [findIdx, hlen]

/-! A drop and an event sample change nothing of CAP but the loss counts -/

theorem capDrop_cap (s : State) (r : RcReg) (k n : Nat) : (capDrop s r k n).cap = { s.cap with loss := (capDrop s r k n).cap.loss } := by
  unfold capDrop
  split
  · rfl
  · simp [modCap]

@[simp] theorem capDrop_slots (s : State) (r : RcReg) (k n : Nat) : (capDrop s r k n).cap.slots = s.cap.slots := by rw [capDrop_cap]

theorem featEvent_cap (s : State) (v : EvSample) : (featEvent s v).cap = { s.cap with loss := (featEvent s v).cap.loss } := by
  unfold featEvent
  split
  · rfl
  · split
    · exact capDrop_cap _ _ _ _
    · rfl

@[simp] theorem featEvent_slots (s : State) (v : EvSample) : (featEvent s v).cap.slots = s.cap.slots := by rw [featEvent_cap]

@[simp] theorem featEvent_table (s : State) (v : EvSample) : (featEvent s v).cap.table = s.cap.table := by rw [featEvent_cap]

/-- One dropped event counts one (R18). -/
theorem rcGet_capDrop_one (s : State) (r : RcReg) (k : Nat) : rcGet (capDrop s r k 1) r = add32 (rcGet s r) 1 :=
  (rcGet_rcInc (s := s) r r).trans (if_pos rfl)

/-! What a mark may change -/

/-- What a mark may change: the slots, the order of marks, the tables of completions, FEAT's queue, the loss counts, the counters and the recorder's
tally. -/
def MarkFrame (s t : State) : Prop :=
  ∃ rc tally queue evSeq slots marks table rawStep loss, t = { s with
    rc := rc
    erc := { s.erc with tally := tally }
    feat := { s.feat with queue := queue, evSeq := evSeq }
    cap := { s.cap with slots := slots, marks := marks, table := table, rawStep := rawStep, loss := loss } }

theorem markFrame_refl : MarkFrame s s := ⟨_, _, _, _, _, _, _, _, _, rfl⟩

theorem markFrame_trans (h : MarkFrame s t) (k : MarkFrame t u) : MarkFrame s u := by
  obtain ⟨_, _, _, _, _, _, _, _, _, rfl⟩ := h
  obtain ⟨_, _, _, _, _, _, _, _, _, rfl⟩ := k
  exact ⟨_, _, _, _, _, _, _, _, _, rfl⟩

theorem markFrame_eq (h : MarkFrame s t) : t = { s with
    rc := t.rc
    erc := { s.erc with tally := t.erc.tally }
    feat := { s.feat with queue := t.feat.queue, evSeq := t.feat.evSeq }
    cap := { s.cap with slots := t.cap.slots, marks := t.cap.marks, table := t.cap.table, rawStep := t.cap.rawStep, loss := t.cap.loss } } := by
  obtain ⟨_, _, _, _, _, _, _, _, _, rfl⟩ := h
  rfl

theorem markFrame_capDrop (r : RcReg) (k n : Nat) : MarkFrame s (capDrop s r k n) := by
  unfold capDrop rcAdd
  split
  · exact markFrame_refl
  · exact ⟨_, _, _, _, _, _, _, _, _, rfl⟩

theorem markFrame_featEvent : MarkFrame s (featEvent s v) := by
  unfold featEvent
  split
  · exact markFrame_refl
  · split
    · exact markFrame_capDrop _ _ _
    · exact ⟨_, _, _, _, _, _, _, _, _, rfl⟩

theorem markFrame_setSlot : MarkFrame s (setSlot s i j) := ⟨_, _, _, _, _, _, _, _, _, rfl⟩

theorem markFrame_orphan : MarkFrame s (capDrop (setSlot s i j) .capStepOrphan 6 1) := markFrame_trans markFrame_setSlot (markFrame_capDrop _ _ _)

theorem markFrame_markStep : MarkFrame s (markStep s isEnd job gen num) := by
  unfold markStep
  dsimp only
  split
  · -- a job without a slot
    split
    · exact markFrame_trans ⟨_, _, _, _, _, _, _, _, _, rfl⟩ (markFrame_capDrop _ _ _)
    · exact markFrame_setSlot
  · split
    · -- a mark of an older generation
      exact markFrame_capDrop _ _ _
    · split
      · -- a BEGIN
        split
        · exact markFrame_orphan
        · exact markFrame_setSlot
      · -- an END: of the open step, of another step, or without one
        split
        · split
          · split
            · exact markFrame_trans ⟨_, _, _, _, _, _, _, _, _, rfl⟩ markFrame_featEvent
            · exact markFrame_setSlot
          · exact markFrame_orphan
        · exact markFrame_orphan

/-! The cases of a mark (R210) -/

theorem markStep_begin_of_noSlot (h : findIdx (fun j => j.used && j.job == job) s.cap.slots = none) :
    markStep s false job gen num = setSlot s (freeSlot s.cap.slots) ⟨true, job, gen, some (num, tb0Stamp s), 0⟩ := by
  unfold markStep
  rw [h]
  rfl

theorem markStep_end_of_noSlot (h : findIdx (fun j => j.used && j.job == job) s.cap.slots = none) :
    markStep s true job gen num = capDrop (modCap s (fun c => { c with marks := c.marks + 1 })) .capStepOrphan 6 1 := by
  unfold markStep
  rw [h]
  rfl

theorem markStep_of_older (h : findIdx (fun j => j.used && j.job == job) s.cap.slots = some i) (hj : s.cap.slots[i]? = some j)
    (hne : gen ≠ j.gen) (hold : newer 8 gen j.gen = false) : markStep s isEnd job gen num = capDrop s .capStepGenDrop 6 1 := by
  simp [markStep, h, List.getD, hj, hne.symm, hold]

/-- A completion in the table, the latest of its slot (R211). -/
def enterDone (s : State) (d : StepDone) : State :=
  modCap s (fun c => { c with table := c.table.filter (fun x => x.slot != d.slot) ++ [d], rawStep := c.rawStep ++ [d] })

/-- An END of the slot's open step in an epoch in progress. -/
theorem markStep_end_of_open (h : findIdx (fun j => j.used && j.job == job) s.cap.slots = some i) (hj : s.cap.slots[i]? = some j)
    (hg : gen = j.gen) (ho : j.openStep = some (num, b)) (he : inEpoch s = true) :
    let d : StepDone := ⟨i, job, gen, num, b, tb0Stamp s, stepDuration b (tb0Stamp s)⟩
    markStep s true job gen num = featEvent (enterDone (setSlot s i { j with openStep := none }) d) (.step d) := by
  have he' : inEpoch (setSlot s i { j with openStep := none }) = true := he
  simp [markStep, enterDone, h, List.getD, hj, hg, ho, he']

/-! The command -/

theorem exec_stepMark (h : reaches s a 1) (d : Word) : exec (.stepMark a d) s = .next (answered a (stepMarkOp (touch s 1) d.toNat)) :=
  congrArg Host.Outcome.next (putAt_reaches h (r := .cap .stepNum) (x := .cap .stepNum) rfl rfl)

/-- Without an image that captures steps a mark is discarded (R212). -/
theorem stepMarkOp_of_stepEn_false (h : ∀ c, capSec s = some c → c.stepEn = false) : stepMarkOp s num = s := by
  unfold stepMarkOp
  split
  next c hc => simp [h c hc]
  next => rfl

theorem stepMarkOp_of_stepEn (h : tapsOn s = true) (hc : capSec s = some c) (hs : c.stepEn = true) : stepMarkOp s num =
    markStep s ((rwGet s .capStepId).testBit 31) (rwGet s .capStepId % 65536) (rwGet s .capStepId / 65536 % 256) num := by
  simp [stepMarkOp, h, hc, hs]

theorem tapsOn_of_reaches (h : reaches s a n) : tapsOn s = true := by
  obtain ⟨-, h6, hflt, -⟩ := h
  simp [tapsOn, h6, hflt]

theorem exec_stepMark_of_stepEn (h : reaches s a 1) (d : Word) (hc : capSec s = some c) (hs : c.stepEn = true) :
    exec (.stepMark a d) s = .next (answered a (markStep (touch s 1) ((rwGet s .capStepId).testBit 31) (rwGet s .capStepId % 65536)
      (rwGet s .capStepId / 65536 % 256) d.toNat)) := by
  have htaps : tapsOn s = true := tapsOn_of_reaches h
  rw [exec_stepMark h, stepMarkOp_of_stepEn (s := touch s 1) htaps hc hs]
  rfl

/-- Settles O18: a mark that reaches CAP is a `markStep`, whose cases are those of R210; a drop and an event sample leave the slots and the table. -/
theorem stepMarksOpenAndCloseSteps : Obligations.StepMarksOpenAndCloseSteps := by
  refine ⟨fun s a d h hoff => ?_, fun s a d c h hc hs => ?_⟩
  · rw [exec_stepMark h, stepMarkOp_of_stepEn_false (s := touch s 1) hoff]
  · refine ⟨_, exec_stepMark_of_stepEn h d hc hs, fun i _ hbegin hnone hfree => ?_, fun hend hnone => ?_, fun i j hslot hj hne hold => ?_,
      fun i j b hslot hj hend hg ho he => ?_, markFrame_eq markFrame_markStep⟩
    · subst hfree
      rw [hbegin, markStep_begin_of_noSlot (s := touch s 1) (findIdx_eq_none hnone)]
      exact ⟨rfl, rfl⟩
    · rw [hend, markStep_end_of_noSlot (s := touch s 1) (findIdx_eq_none hnone)]
      exact ⟨capDrop_slots _ _ _ _, rcGet_capDrop_one _ _ _⟩
    · rw [markStep_of_older (s := touch s 1) hslot hj hne hold]
      exact ⟨capDrop_slots _ _ _ _, rcGet_capDrop_one _ _ _⟩
    · rw [hend, markStep_end_of_open (s := touch s 1) hslot hj hg ho he]
      exact ⟨featEvent_table _ _, featEvent_slots _ _⟩

end Sys2Proof.Machine
end

section
/-!
Profile buffers (R229 to R234): what the memory port leaves of the jobs it issues bursts for, and the copy of the oldest closed buffer.
-/
namespace Sys2Proof.Machine

variable {s : State} {a : Access} {b : ProfBuf} {rest : List ProfBuf} {d : Bytes} {hold : Bool} {m k : Mm} {j : MmJob}

/-! A job's request stands while its bursts go -/

/-- A job as its owner asked for it, before any burst. -/
def jobRequest (j : MmJob) : MmJob := { j with issued := 0, left := 0 }

theorem jobRequest_issueOne (h : issueOne hold m = some k) : k.jobs.map jobRequest = m.jobs.map jobRequest := by
  unfold issueOne at h
  split at h
  · dsimp only at h
    split at h
    · cases h
    · cases h
      rw [List.map_map]
      refine List.map_congr_left fun x _ => ?_
      simp only [Function.comp_apply]
      split <;> rfl
  · cases h

theorem jobRequest_issueAll (hold : Bool) (n : Nat) (m : Mm) : (issueAll hold n m).jobs.map jobRequest = m.jobs.map jobRequest := by
  induction n generalizing m with
  | zero => rfl
  | succ n ih =>
    unfold issueAll
    split
    next k h => rw [ih, jobRequest_issueOne h]
    next => rfl

theorem jobRequest_mmPump (s : State) : (mmPump s).mm.jobs.map jobRequest = s.mm.jobs.map jobRequest := by
  unfold mmPump
  split
  · rfl
  · dsimp only
    generalize ht : (if s.mm.jobs.isEmpty then s else touch s 13) = t
    have hmm : t.mm = s.mm := by
      rw [← ht]
      split <;> rfl
    split
    · rw [hmm]
    · rw [jobRequest_issueAll, hmm]
      rfl

theorem exists_job_mmPump (h : j ∈ s.mm.jobs) : ∃ k ∈ (mmPump s).mm.jobs, jobRequest k = jobRequest j := by
  rw [← List.mem_map, jobRequest_mmPump]
  exact List.mem_map_of_mem h

/-! The port's power -/

/-- A second request leaves a unit as the first one did. -/
theorem touchPow_touchPow (c : Nat) (p : UnitPow) : touchPow c (touchPow c p) = touchPow c p := by
  cases hst : p.st with
  | ret => rw [touchPow_of_ret c hst, touchPow_of_ret c (by rw [raiseReq_st, hst]), raiseReq, if_pos (raiseReq_req c p)]
  | on | gated | off => simp [touchPow, hst]

theorem touch_touch (s : State) (u : Nat) : touch (touch s u) u = touch s u := by
  have hpow : (touch s u).pow.modify (u - 1) (touchPow s.time.c) = (touch s u).pow := by
    simp only [touch, modPow, List.modify_modify_eq]
    congr 1
    exact funext (touchPow_touchPow _)
  exact congrArg (fun pow => { touch s u with pow := pow }) hpow

/-- Where DMA has been asked already, the port's work changes the port alone. -/
theorem mmPump_of_touched (h : touch s 13 = s) : mmPump s = { s with mm := (mmPump s).mm } := by
  have ht : (if s.mm.jobs.isEmpty then s else touch s 13) = s := by rw [h, ite_self]
  unfold mmPump
  split
  · rfl
  · dsimp only
    rw [ht]
    split <;> rfl

/-! The copy (R232) -/

/-- The oldest closed buffer `b` is marked in flight and the write of its bytes `d` begins, before any burst of it. -/
def profAsked (s : State) (b : ProfBuf) (d : Bytes) : State :=
  mmWriteJob (modCap (touch s 13) (fun c => { c with prof := { c.prof with flying := true } })) .profBody 0 0
    (pairBase s .capProfBase + 65536 * s.cap.prof.wr) (profBytes s b d)

theorem touch_profAsked : touch (profAsked s b d) 13 = profAsked s b d :=
  congrArg (fun t => { profAsked s b d with pow := t.pow }) (touch_touch s 13)

theorem profCopy_of_ready (hb : s.cap.prof.bufs = b :: rest) (hd : b.stored = some d) (hf : s.cap.prof.flying = false) (hh : s.cap.prof.halt = false)
    (hr : profFull s = false) (hq : mmQuiet s = false) : profCopy s = mmPump (profAsked s b d) := by
  simp [profCopy, profAsked, hb, hd, hf, hh, hr, hq]

theorem profCopy_of_empty (h : s.cap.prof.bufs = []) : profCopy s = s := by
  simp [profCopy, h]

theorem profCopy_of_held (h : s.cap.prof.flying = true ∨ s.cap.prof.halt = true ∨ profFull s = true ∨ mmQuiet s = true) : profCopy s = s := by
  have hwait : (s.cap.prof.flying || s.cap.prof.halt || profFull s || mmQuiet s) = true := by simpa [or_assoc] using h
  unfold profCopy
  dsimp only
  split
  · rfl
  · split
    · rfl
    · rw [if_pos hwait]

theorem profHaltClear_of_empty (h : s.cap.prof.bufs = []) : profHaltClear s = { s with
    mm := { s.mm with halted := dropKey s.mm.halted 0 }, cap := { s.cap with prof := { s.cap.prof with halt := false } } } :=
  profCopy_of_empty h

theorem exec_profileHaltClear (h : reaches s a 1) : exec (.profileHaltClear a) s = .next (answered a (profHaltClear (touch s 1))) :=
  congrArg Host.Outcome.next (putAt_reaches h (r := .cap .profStat) (x := .cap .profStat) rfl rfl)

/-- Settles O19: the copy asks for the write (`profAsked`) and lets the port issue, which keeps each job's request; a channel without a closed buffer has
nothing to copy. -/
theorem profileBuffersGoToTheirSlots : Obligations.ProfileBuffersGoToTheirSlots := by
  refine ⟨fun s b rest d hb hd hf hh hr hq => ?_, fun s h => ?_, fun s a h hb => ?_⟩
  · have hcopy : profCopy s = mmPump (profAsked s b d) := profCopy_of_ready hb hd hf hh hr hq
    obtain ⟨k, hk, hreq⟩ := exists_job_mmPump (s := profAsked s b d) (List.mem_append_right _ (List.mem_singleton_self _))
    refine ⟨mmPump (profAsked s b d), congrArg Host.Outcome.next hcopy, mmPump_of_touched touch_profAsked, k, hk, ?_⟩
    exact ⟨congrArg MmJob.owner hreq, congrArg MmJob.write hreq, congrArg MmJob.qos hreq, congrArg MmJob.addr hreq, congrArg MmJob.data hreq⟩
  · refine congrArg Host.Outcome.next ?_
    rcases h with hnone | hheld
    · exact profCopy_of_empty hnone
    · exact profCopy_of_held hheld
  · rw [exec_profileHaltClear h, profHaltClear_of_empty (s := touch s 1) hb]
    rfl

end Sys2Proof.Machine
end

section
/-!
What the reception of records and DOWN records leaves (R246, R279, R295, R466): one port's change, a record dropped under a counter, and the frame that asks
for a resend.
-/
namespace Sys2Proof.Machine

variable {s t u : State} {p q x what n : Nat} {c d : RcReg}

/-! One port -/

@[simp] theorem portAt_modPort_self (s : State) (p : Nat) (f : IPort → IPort) : portAt (modPort s p f) p = f (portAt s p) :=
  lookupD_modKey_self _ _ _ _

theorem portAt_modPort_ne (h : p ≠ q) (f : IPort → IPort) : portAt (modPort s p f) q = portAt s q := lookupD_modKey_ne _ _ _ h

@[simp] theorem portAt_touch (s : State) (u q : Nat) : portAt (touch s u) q = portAt s q := rfl

@[simp] theorem portAt_rcAdd (s : State) (c : RcReg) (n q : Nat) : portAt (rcAdd s c n) q = portAt s q := by
  unfold portAt
  rw [rcAdd_ilk]

@[simp] theorem portAt_rcInc (s : State) (c : RcReg) (q : Nat) : portAt (rcInc s c) q = portAt s q := portAt_rcAdd s c 1 q

/-! What counting and queueing may change -/

/-- The counters, the recorder's tally and the ports may differ. -/
def LinkFrame (s t : State) : Prop :=
  ∃ rc tally ports, t = { s with
    rc := rc
    erc := { s.erc with tally := tally }
    ilk := { s.ilk with ports := ports } }

theorem linkFrame_refl : LinkFrame s s := ⟨_, _, _, rfl⟩

theorem linkFrame_trans (h : LinkFrame s t) (k : LinkFrame t u) : LinkFrame s u := by
  obtain ⟨_, _, _, rfl⟩ := h
  obtain ⟨_, _, _, rfl⟩ := k
  exact ⟨_, _, _, rfl⟩

theorem linkFrame_rcAdd (c : RcReg) (n : Nat) : LinkFrame s (rcAdd s c n) := by
  unfold rcAdd
  split <;> exact ⟨_, _, _, rfl⟩

theorem linkFrame_rcInc (c : RcReg) : LinkFrame s (rcInc s c) := linkFrame_rcAdd c 1

theorem rcGet_rcAdd_ne (h : c ≠ d) (n : Nat) : rcGet (rcAdd s c n) d = rcGet s d := by
  by_cases hn : n = 0
  · subst hn; rfl
  · rw [rcGet_rcAdd s c n hn, if_neg h]

/-! A request for a resend (R466) -/

/-- One more request for epoch `x` waits on port `p` and is counted; `asked` notes it. -/
def resendAsked (s : State) (p x what : Nat) (asked : IPort → List ((Nat × Nat) × Nat)) : State :=
  rcInc (queueCtrl (modPort s p (fun k => { k with asked := asked k })) p tyResend (toBe 8 x ++ toBe 1 what ++ zeros 7)) (.ilk p .resendReq)

theorem askResend_cases (s : State) (p x what : Nat) : askResend s p x what = s ∨ ∃ asked, askResend s p x what = resendAsked s p x what asked := by
  unfold askResend
  dsimp only
  split
  · exact .inl rfl
  · exact .inr ⟨_, rfl⟩

/-- Fewer than two requests have gone for an epoch in the window: one more goes. -/
theorem askResend_of_open (hx : inWindow s x = true) (hn : (aget (portAt s p).asked (x, what)).getD 0 < 2) (he : (entOfPort s p).isSome = true) :
    ∃ asked, askResend s p x what = resendAsked s p x what asked := by
  have hstop : (!inWindow s x || decide (2 ≤ (aget (portAt s p).asked (x, what)).getD 0) || (entOfPort s p).isNone) = false := by
    simp [hx, he, hn]
  exact ⟨_, by rw [askResend, if_neg (by simp [hstop])]; rfl⟩

theorem linkFrame_resendAsked (asked : IPort → List ((Nat × Nat) × Nat)) : LinkFrame s (resendAsked s p x what asked) :=
  linkFrame_trans ⟨_, _, _, rfl⟩ (linkFrame_rcInc _)

theorem rcGet_resendAsked (asked : IPort → List ((Nat × Nat) × Nat)) (c : RcReg) : rcGet (resendAsked s p x what asked) c =
    if .ilk p .resendReq = c then add32 (rcGet s (.ilk p .resendReq)) 1 else rcGet s c := rcGet_rcInc _ _ _

theorem portAt_resendAsked_self (asked : IPort → List ((Nat × Nat) × Nat)) : portAt (resendAsked s p x what asked) p =
    { portAt s p with
      asked := asked (portAt s p)
      queue := (portAt s p).queue ++ [⟨2, 2, tyResend, none, 0, toBe 8 x ++ toBe 1 what ++ zeros 7, none⟩] } := by
  simp [resendAsked, queueCtrl, queueFrame]

theorem portAt_resendAsked_ne (asked : IPort → List ((Nat × Nat) × Nat)) (h : p ≠ q) : portAt (resendAsked s p x what asked) q = portAt s q := by
  simp [resendAsked, queueCtrl, queueFrame, portAt_modPort_ne h]

theorem linkFrame_askResend : LinkFrame s (askResend s p x what) := by
  rcases askResend_cases s p x what with h | ⟨asked, h⟩
  · rw [h]; exact linkFrame_refl
  · rw [h]; exact linkFrame_resendAsked asked

theorem rcGet_askResend_ne (hc : .ilk p .resendReq ≠ c) : rcGet (askResend s p x what) c = rcGet s c := by
  rcases askResend_cases s p x what with h | ⟨asked, h⟩
  · rw [h]
  · rw [h, rcGet_resendAsked, if_neg hc]

/-- What has been received on a port stands, whatever is asked for. -/
theorem received_askResend (q : Nat) : (portAt (askResend s p x what) q).rxUp = (portAt s q).rxUp ∧
    (portAt (askResend s p x what) q).rxDown = (portAt s q).rxDown := by
  rcases askResend_cases s p x what with h | ⟨asked, h⟩
  · rw [h]; exact ⟨rfl, rfl⟩
  · by_cases hq : p = q
    · subst hq; rw [h, portAt_resendAsked_self]; exact ⟨rfl, rfl⟩
    · rw [h, portAt_resendAsked_ne asked hq]; exact ⟨rfl, rfl⟩

/-! A record that is dropped -/

/-- A received record is dropped under the counter `c`: of the ports only what waits to be sent may differ. -/
structure Drops (c : RcReg) (s t : State) : Prop where
  frame    : LinkFrame s t
  counted  : rcGet t c = add32 (rcGet s c) 1
  received : ∀ q, (portAt t q).rxUp = (portAt s q).rxUp ∧ (portAt t q).rxDown = (portAt s q).rxDown

theorem drops_rcInc (s : State) (c : RcReg) : Drops c s (rcInc s c) where
  frame := linkFrame_rcInc c
  counted := by rw [rcGet_rcInc, if_pos rfl]
  received q := by rw [portAt_rcInc]; exact ⟨rfl, rfl⟩

/-- A record dropped, and asked for again. -/
theorem drops_askResend (h : Drops c s t) (hc : .ilk p .resendReq ≠ c) : Drops c s (askResend t p x what) where
  frame := linkFrame_trans h.frame linkFrame_askResend
  counted := (rcGet_askResend_ne hc).trans h.counted
  received q := ⟨(received_askResend q).1.trans (h.received q).1, (received_askResend q).2.trans (h.received q).2⟩

end Sys2Proof.Machine
end

section
/-!
RECORD_RECEIVE (R246, R270, R272, R295): the checks of a reassembled record in their order, and what a child's accepted record leaves.
-/
namespace Sys2Proof.Machine

variable {s t u : State} {p q x n : Nat} {c d : RcReg} {r : RxRec} {rest : List RxRec} {b : Bytes}

/-! The work on an epoch -/

theorem workAt_x (s : State) (x : Nat) : (workAt s x).x = x := by
  unfold workAt
  cases h : workOf s x with
  | none => rfl
  | some w => simpa using List.find?_some h

/-- A first match that is inserted among others is found. -/
theorem find?_insertBy {α : Type} {P : α → Bool} {key : α → Nat} {a : α} {l : List α} (ha : P a = true) (hl : ∀ b ∈ l, P b = false) :
    (insertBy key a l).find? P = some a := by
  induction l with
  | nil => simp [insertBy, ha]
  | cons y ys ih =>
    simp only [insertBy]
    split
    · simp [ha]
    · rw [List.find?_cons, hl y List.mem_cons_self]
      exact ih fun b hb => hl b (List.mem_cons_of_mem _ hb)

theorem workAt_modWork_self {f : EpochWork → EpochWork} (h : (f (workAt s x)).x = x) : workAt (modWork s x f) x = f (workAt s x) := by
  have hothers : ∀ w ∈ s.sealing.works.filter (fun v => v.x != x), (w.x == x) = false := fun w hw => by simpa using (List.mem_filter.mp hw).2
  have hfind : workOf (modWork s x f) x = some (f (workAt s x)) := find?_insertBy (by simpa using h) hothers
  rw [workAt, hfind, Option.getD_some]

/-! The checks in the order of R295 -/

theorem drops_checkRecord_crc (h : rcrcOk b = false) (tag : Nat) : Drops .redCrcBad s (checkRecord s p tag b) := by
  unfold checkRecord
  rw [h]
  cases tagEpoch s tag with
  | none => exact drops_rcInc s _
  | some x => exact drops_askResend (drops_rcInc s _) (by simp)

theorem drops_checkRecord_stale {tag : Nat} (h : rcrcOk b = true) (ht : tagEpoch s tag = none) : Drops .sealStaleDrop s (checkRecord s p tag b) := by
  simp only [checkRecord, h, ht]
  exact drops_rcInc s _

theorem drops_checkRecord_tag {tag : Nat} (h : rcrcOk b = true) (ht : tagEpoch s tag = some x) (he : recEpoch b ≠ x) :
    Drops .sealTagBad s (checkRecord s p tag b) := by
  simp only [checkRecord, h, ht, if_pos he]
  exact drops_rcInc s _

theorem drops_checkRecord_gen {tag : Nat} (h : rcrcOk b = true) (ht : tagEpoch s tag = some x) (he : recEpoch b = x) (hg : recGen b ≠ genAt s x) :
    Drops .sealGenDrop s (checkRecord s p tag b) := by
  simp only [checkRecord, h, ht, if_neg (not_not_intro he), if_pos hg]
  exact drops_rcInc s _

/-- The reassembled bytes `b` are a record `rec` of epoch `x` that passes the checks of R246, R270 and R272 on image `im`. -/
structure PassesChecks (s : State) (tag : Nat) (b : Bytes) (x : Nat) (im : Image) (rec : Record) : Prop where
  crc     : rcrcOk b = true
  tag     : tagEpoch s tag = some x
  epoch   : recEpoch b = x
  gen     : recGen b = genAt s x
  image   : imageAt s x = some im
  schema  : recSchema b = im.schema.schema
  record  : recordAt (b.take (recLength b)) = some rec
  kind    : byteAt b 4 = 1
  fits    : recordFits im rec = true
  residue : recordResOk rec = true

theorem checkRecord_of_passes {tag : Nat} {im : Image} {rec : Record} (h : PassesChecks s tag b x im rec) :
    checkRecord s p tag b = decideRecord s im p rec (b.take (recLength b)) := by
  obtain ⟨hcrc, htag, hepoch, hgen, him, hschema, hrec, hkind, hfits, hres⟩ := h
  simp [checkRecord, hcrc, htag, hepoch, hgen, him, hschema, hrec, hkind, hfits, hres]

/-! A child's accepted record -/

/-- Of the state the work on the epochs, the counters and the recorder's tally may differ. -/
def SealFrame (s t : State) : Prop :=
  ∃ rc tally sealing, t = { s with
    rc := rc
    erc := { s.erc with tally := tally }
    sealing := sealing }

theorem sealFrame_trans (h : SealFrame s t) (k : SealFrame t u) : SealFrame s u := by
  obtain ⟨_, _, _, rfl⟩ := h
  obtain ⟨_, _, _, rfl⟩ := k
  exact ⟨_, _, _, rfl⟩

theorem sealFrame_rcAdd (c : RcReg) (n : Nat) : SealFrame s (rcAdd s c n) := by
  unfold rcAdd
  split <;> exact ⟨_, _, _, rfl⟩

theorem sealFrame_joinInput (im : Image) (x : Nat) (a : Arrival) : SealFrame s (joinInput s im x a) :=
  sealFrame_trans ⟨_, _, _, rfl⟩ (sealFrame_rcAdd _ _)

@[simp] theorem workAt_rcAdd (s : State) (c : RcReg) (n x : Nat) : workAt (rcAdd s c n) x = workAt s x := by
  simp only [workAt, workOf, rcAdd_sealing]

theorem workAt_modSeal_of_works {f : SealU → SealU} (h : (f s.sealing).works = s.sealing.works) : workAt (modSeal s f) x = workAt s x := by
  simp only [workAt, workOf, modSeal_sealing, h]

/-- A contribution stands last among the inputs of its epoch. -/
theorem workAt_joinInput (im : Image) (x : Nat) (a : Arrival) : workAt (joinInput s im x a) x =
    { workAt s x with inputs := (workAt s x).inputs ++ [{ a with ord := nextOrd (workAt s x) }] } := by
  unfold joinInput
  rw [workAt_rcAdd, workAt_modWork_self (workAt_x s x)]

theorem rcGet_joinInput_ne (h : .redPairOvf ≠ c) (im : Image) (x : Nat) (a : Arrival) : rcGet (joinInput s im x a) c = rcGet s c := by
  unfold joinInput
  rw [rcGet_rcAdd_ne h]
  rfl

@[simp] theorem joinInput_expects (s : State) (im : Image) (x : Nat) (a : Arrival) : (joinInput s im x a).sealing.expects = s.sealing.expects := by
  simp [joinInput, modWork]

/-- A child's record noted as it arrives: H_ARRIVAL, its sender and coverage in the epoch's work, and its EXPECT (R295, R305). -/
def childNoted (s : State) (rec : Record) : State :=
  modSeal (modWork (modTally s (fun t => { t with arrival := histoAdd t.arrival (sinceEnd s rec.epoch) })) rec.epoch
    (fun w => { w with senders := w.senders ++ [rec.node], covs := w.covs ++ [(rec.node, rec.cov)] }))
    (fun u => { u with expects := setKey u.expects rec.node rec.cov.expect })

theorem sealFrame_childNoted (rec : Record) : SealFrame s (childNoted s rec) := ⟨_, _, _, rfl⟩

@[simp] theorem rcGet_childNoted (rec : Record) (c : RcReg) : rcGet (childNoted s rec) c = rcGet s c := rfl

theorem workAt_childNoted (rec : Record) : workAt (childNoted s rec) rec.epoch = { workAt s rec.epoch with
    senders := (workAt s rec.epoch).senders ++ [rec.node]
    covs := (workAt s rec.epoch).covs ++ [(rec.node, rec.cov)] } := by
  rw [childNoted, workAt_modSeal_of_works rfl, workAt_modWork_self (workAt_x _ _)]
  rfl

/-- The first record of a child for an epoch that is not sealed joins it; without late groups that is all. -/
theorem decideRecord_of_child {im : Image} {rec : Record} {e : ChildEnt} (hresent : rec.resent = false) (hchild : childNode im.topo rec.node = some e)
    (hstandby : e.standby = false) (hlate : rec.late = []) (hfirst : (workAt s rec.epoch).senders.contains rec.node = false)
    (hopen : sealedAt s rec.epoch = false) (data : Bytes) :
    decideRecord s im p rec data = joinInput (childNoted s rec) im rec.epoch ⟨0, p, rec.node, false, false, rec⟩ := by
  simp only [decideRecord, hresent, hchild, hfirst, hopen, hstandby, Bool.false_and, Bool.false_eq_true, if_false]
  simp [acceptRecord, childNoted, hlate, hopen]

/-! RECORD_RECEIVE -/

/-- With no open epoch at its deadline none is sealed first (R292). -/
theorem sealDue_of_undue (h : ∀ w, lowestOpen s = some w → w.x < s.time.grid.epoch → (tb0Tick s : Int) < sealDeadline s w.x) (n : Nat) :
    sealDue n s = s := by
  cases n with
  | zero => rfl
  | succ n =>
    unfold sealDue
    split
    next w hw =>
      refine if_neg fun hdue => ?_
      simp only [Bool.and_eq_true, decide_eq_true_eq] at hdue
      have := h w hw hdue.1
      omega
    next => rfl

/-- SEAL and RED are awake, and the oldest record of the port has left its cells. -/
def recordTaken (s : State) (p : Nat) (r : RxRec) (rest : List RxRec) : State :=
  touch (freeCells (modPort (touch (touch s 4) 5) p (fun k => { k with rxUp := rest })) p r.cells) 4

theorem recordTaken_frame : ∃ pow ports, recordTaken s p r rest = { s with pow := pow, ilk := { s.ilk with ports := ports } } := ⟨_, _, rfl⟩

@[simp] theorem rcGet_recordTaken (c : RcReg) : rcGet (recordTaken s p r rest) c = rcGet s c := rfl

theorem portAt_recordTaken : (portAt (recordTaken s p r rest) p).rxUp = rest ∧
    (portAt (recordTaken s p r rest) p).used = (portAt s p).used - r.cells := by
  have h : portAt (recordTaken s p r rest) p =
      { portAt s p with rxUp := rest, used := (portAt s p).used - r.cells, freed := ((portAt s p).freed + r.cells) % 2 ^ 32 } := by
    simp [recordTaken, freeCells]
  rw [h]
  exact ⟨rfl, rfl⟩

theorem exec_recordReceive (h4 : asleep s 4 = false) (h5 : asleep s 5 = false) :
    exec (.recordReceive p) s = .next (safeCheck (recordReceive (touch (touch s 4) 5) p)) := by
  have h5' : asleep (touch s 4) 5 = false := (asleep_touch s 5 4).trans h5
  exact congrArg Host.Outcome.next ((whenOn_of_awake h4 _).trans (whenOn_of_awake h5' _))

/-- RECORD_RECEIVE checks the oldest record of a port. -/
theorem exec_recordReceive_checks (hr : (portAt s p).rxUp = r :: rest) (hq : quiet s = false) (hk : kindOfPort s p ≠ 4) (h4 : asleep s 4 = false)
    (h5 : asleep s 5 = false) (hdue : ∀ w, lowestOpen s = some w → w.x < s.time.grid.epoch → (tb0Tick s : Int) < sealDeadline s w.x) :
    exec (.recordReceive p) s = .next (safeCheck (sealEarly 16 (checkRecord (recordTaken s p r rest) p r.tag r.data))) := by
  have hr' : (portAt (touch (touch s 4) 5) p).rxUp = r :: rest := hr
  have hk' : (quiet (touch (touch s 4) 5) || kindOfPort (touch (touch s 4) 5) p == 4) = false := Bool.or_eq_false_iff.mpr ⟨hq, beq_false_of_ne hk⟩
  have hdue' := sealDue_of_undue (s := freeCells (modPort (touch (touch s 4) 5) p (fun k => { k with rxUp := rest })) p r.cells) hdue 16
  rw [exec_recordReceive h4 h5, recordReceive, hr']
  dsimp only
  rw [if_neg (Bool.eq_false_iff.mp hk'), hdue']
  rfl

theorem exec_recordReceive_of_nothing (h4 : asleep s 4 = false) (h5 : asleep s 5 = false) (h : (portAt s p).rxUp = [] ∨ quiet s = true ∨ kindOfPort s p = 4) :
    exec (.recordReceive p) s = .next (safeCheck (touch (touch s 4) 5)) := by
  have hnone : recordReceive (touch (touch s 4) 5) p = touch (touch s 4) 5 := by
    unfold recordReceive
    split
    next r rest hr =>
      have hr' : (portAt s p).rxUp = r :: rest := hr
      refine if_pos ?_
      rcases h with h | h | h
      · rw [hr'] at h; cases h
      · exact Bool.or_eq_true_iff.mpr (.inl h)
      · exact Bool.or_eq_true_iff.mpr (.inr (beq_iff_eq.mpr h))
    next => rfl
  rw [exec_recordReceive h4 h5, hnone]

/-- What a record that is dropped leaves: counted, with its port's cells free. -/
theorem dropped_of_drops (h : Drops c (recordTaken s p r rest) u) : rcGet u c = add32 (rcGet s c) 1 ∧ (portAt u p).rxUp = rest ∧
    u = { s with pow := u.pow, rc := u.rc, ilk := u.ilk, erc := u.erc } := by
  refine ⟨h.counted, (h.received p).1.trans portAt_recordTaken.1, ?_⟩
  obtain ⟨_, _, _, hu⟩ := h.frame
  obtain ⟨_, _, htaken⟩ := recordTaken_frame (s := s) (p := p) (r := r) (rest := rest)
  rw [hu, htaken]

/-- Settles O41: the record is checked on the state with its cells free (`exec_recordReceive_checks`); a failed check drops it, and a child's first record of
an open epoch joins the epoch's inputs. -/
theorem recordsAreCheckedThenMergedOrDropped : Obligations.RecordsAreCheckedThenMergedOrDropped := by
  refine ⟨fun s p r rest hr hq hk h4 h5 hdue => ?_, fun s p h4 h5 h => exec_recordReceive_of_nothing h4 h5 h⟩
  have hexec := exec_recordReceive_checks hr hq hk h4 h5 hdue
  refine ⟨fun hcrc => ⟨_, hexec, ?_⟩, fun hcrc htag => ⟨_, hexec, ?_⟩, fun x hcrc htag he => ⟨_, hexec, ?_⟩, fun x hcrc htag he hg => ⟨_, hexec, ?_⟩,
    fun x im rec e hcrc htag he hg him hsc hrec hkind hfits hres hresent hchild hstandby hx hlate hfirst hopen => ⟨_, hexec, ?_⟩⟩
  · exact dropped_of_drops (drops_checkRecord_crc hcrc _)
  · exact dropped_of_drops (drops_checkRecord_stale hcrc htag)
  · exact dropped_of_drops (drops_checkRecord_tag hcrc htag he)
  · exact dropped_of_drops (drops_checkRecord_gen hcrc htag he hg)
  · subst hx
    have hpass : PassesChecks (recordTaken s p r rest) r.tag r.data rec.epoch im rec := ⟨hcrc, htag, he, hg, him, hsc, hrec, hkind, hfits, hres⟩
    rw [checkRecord_of_passes hpass, decideRecord_of_child (s := recordTaken s p r rest) hresent hchild hstandby hlate hfirst hopen]
    have hwork := workAt_joinInput (s := childNoted (recordTaken s p r rest) rec) im rec.epoch ⟨0, p, rec.node, false, false, rec⟩
    rw [workAt_childNoted] at hwork
    obtain ⟨rc, tally, sealing, hu⟩ := sealFrame_trans (sealFrame_childNoted (s := recordTaken s p r rest) rec)
      (sealFrame_joinInput im rec.epoch ⟨0, p, rec.node, false, false, rec⟩)
    refine ⟨by rw [hwork]; rfl, by rw [hwork]; rfl, by rw [hwork]; rfl, ?_, ?_, ?_, fun q hq => ?_, ?_⟩
    · rw [joinInput_expects]
      exact lookup_setKey_self _ _ _
    · rw [hu]; exact portAt_recordTaken.1
    · rw [hu]; exact portAt_recordTaken.2
    · rw [rcGet_joinInput_ne hq.symm, rcGet_childNoted, rcGet_recordTaken]
    · obtain ⟨_, _, htaken⟩ := recordTaken_frame (s := s) (p := p) (r := r) (rest := rest)
      rw [hu, htaken]

end Sys2Proof.Machine
end

section
/-!
DOWN records (R276 to R280, R466, R467, R469): reception, forwarding, the request for a missing one, the copies sent again, and what expires.
-/
namespace Sys2Proof.Machine

variable {s t u : State} {p q x gen row : Nat} {c : RcReg} {r : RxRec} {rest : List RxRec} {b data : Bytes} {f : Frame} {ty : Nat}

/-! What waits to be sent -/

theorem mem_insertBy {α : Type} {key : α → Nat} {a d : α} {l : List α} : d ∈ insertBy key a l ↔ d = a ∨ d ∈ l := by
  induction l with
  | nil => simp [insertBy]
  | cons y ys ih =>
    simp only [insertBy]
    split
    · simp
    · rw [List.mem_cons, ih, List.mem_cons]
      exact or_left_comm

/-- Records wait that did not wait before: of the ports nothing else differs, and of the state nothing but the ports. -/
structure Queues (s t : State) : Prop where
  frame : ∃ ports, t = { s with ilk := { s.ilk with ports := ports } }
  recs  : ∀ q, portAt t q = { portAt s q with recs := (portAt t q).recs }
  kept  : ∀ q, (portAt s q).recs ⊆ (portAt t q).recs

theorem queues_refl : Queues s s := ⟨⟨_, rfl⟩, fun _ => rfl, fun _ _ h => h⟩

theorem queues_trans (h : Queues s t) (k : Queues t u) : Queues s u := by
  refine ⟨?_, fun q => ?_, fun q => List.Subset.trans (h.kept q) (k.kept q)⟩
  · obtain ⟨_, rfl⟩ := h.frame
    obtain ⟨_, rfl⟩ := k.frame
    exact ⟨_, rfl⟩
  · rw [k.recs q, h.recs q]

theorem portAt_queueRec_self (s : State) (p row x gen : Nat) (first : Bool) (data : Bytes) : portAt (queueRec s p row x gen first data) p =
    { portAt s p with recs := insertBy (fun r => r.epoch) ⟨row, x, gen, first, data, 0, none⟩ (portAt s p).recs } := portAt_modPort_self _ _ _

theorem portAt_queueRec_ne (h : p ≠ q) (row x gen : Nat) (first : Bool) (data : Bytes) : portAt (queueRec s p row x gen first data) q = portAt s q :=
  portAt_modPort_ne h _

theorem queues_queueRec (s : State) (p row x gen : Nat) (first : Bool) (data : Bytes) : Queues s (queueRec s p row x gen first data) := by
  refine ⟨⟨_, rfl⟩, fun q => ?_, fun q d hd => ?_⟩
  · by_cases hq : p = q
    · subst hq; rw [portAt_queueRec_self]
    · rw [portAt_queueRec_ne hq]
  · by_cases hq : p = q
    · subst hq; rw [portAt_queueRec_self]; exact mem_insertBy.mpr (.inr hd)
    · rwa [portAt_queueRec_ne hq]

theorem queues_foldl {α : Type} {g : State → α → State} (h : ∀ t a, Queues t (g t a)) (l : List α) (s : State) : Queues s (l.foldl g s) := by
  induction l generalizing s with
  | nil => exact queues_refl
  | cons a l ih => exact queues_trans (h s a) (ih _)

/-- A DOWN record waits on every downlink. -/
theorem queues_sendDown (s : State) (x gen : Nat) (data : Bytes) : Queues s (sendDown s x gen data) :=
  queues_foldl (fun t p => queues_queueRec t p 5 x gen true data) _ s

theorem mem_foldl_queueRec {l : List Nat} (hq : q ∈ l) (s : State) (row x gen : Nat) (first : Bool) (data : Bytes) :
    ⟨row, x, gen, first, data, 0, none⟩ ∈ (portAt (l.foldl (fun t p => queueRec t p row x gen first data) s) q).recs := by
  induction l generalizing s with
  | nil => cases hq
  | cons p l ih =>
    rw [List.foldl_cons]
    rcases List.mem_cons.mp hq with rfl | hq
    · refine (queues_foldl (fun t p => queues_queueRec t p row x gen first data) l _).kept q ?_
      rw [portAt_queueRec_self]
      exact mem_insertBy.mpr (.inl rfl)
    · exact ih hq _

theorem mem_sendDown (hq : q ∈ downlinks (topoOf s)) (x gen : Nat) (data : Bytes) :
    ⟨5, x, gen, true, data, 0, none⟩ ∈ (portAt (sendDown s x gen data) q).recs := mem_foldl_queueRec hq s 5 x gen true data

/-! DOWN_RECEIVE (R279) -/

/-- The oldest DOWN record of the port has left its cells. -/
def downTaken (s : State) (p : Nat) (r : RxRec) (rest : List RxRec) : State := freeCells (modPort s p (fun k => { k with rxDown := rest })) p r.cells

theorem downTaken_frame : ∃ ports, downTaken s p r rest = { s with ilk := { s.ilk with ports := ports } } := ⟨_, rfl⟩

theorem rxDown_downTaken : (portAt (downTaken s p r rest) p).rxDown = rest := by
  simp [downTaken, freeCells]

/-- The reassembled record is a DOWN record of epoch `x` in which no check fails. -/
structure GoodDown (s : State) (r : RxRec) (x : Nat) : Prop where
  crc    : rcrcOk r.data = true
  tag    : tagEpoch s r.tag = some x
  epoch  : recEpoch r.data = x
  gen    : recGen r.data = genAt s x
  kind   : byteAt r.data 4 = 2
  length : 128 + 64 * beAt r.data 0x14 2 ≤ recLength r.data

/-- The bytes of a DOWN record without what follows it. -/
def downBody (r : RxRec) : Bytes := r.data.take (recLength r.data)

/-- A good DOWN record is kept and sent on, but where its epoch has one. -/
theorem downReceiveOp_of_good (hr : (portAt s p).rxDown = r :: rest) (hq : quiet s = false) (h : GoodDown s r x) : downReceiveOp s p =
    if s.red.downs.any (fun d => d.epoch == x) then downTaken s p r rest
    else if roleOf s = 1 then keepDown (downTaken s p r rest) (downAt (downBody r))
    else sendDown (keepDown (downTaken s p r rest) (downAt (downBody r))) x (recGen r.data) (downBody r) := by
  obtain ⟨hcrc, htag, hepoch, hgen, hkind, hlength⟩ := h
  have htag' : tagEpoch (downTaken s p r rest) r.tag = some x := htag
  have hgen' : ¬ recGen r.data ≠ genAt (downTaken s p r rest) x := not_not_intro hgen
  have hform : ¬ (byteAt r.data 4 ≠ 2 ∨ recLength r.data < 128 + 64 * beAt r.data 0x14 2) := by omega
  unfold downReceiveOp
  rw [hr]
  dsimp only
  rw [hq, if_neg Bool.false_ne_true, ← downTaken, htag']
  dsimp only
  rw [hcrc, if_neg (by simp), if_neg (not_not_intro hepoch), if_neg hgen', if_neg hform]
  rfl

/-- The DOWN record of an epoch that has one changes nothing. -/
theorem downReceiveOp_of_known (hr : (portAt s p).rxDown = r :: rest) (hq : quiet s = false) (h : GoodDown s r x)
    (hknown : s.red.downs.any (fun d => d.epoch == x) = true) : downReceiveOp s p = downTaken s p r rest := by
  rw [downReceiveOp_of_good hr hq h, if_pos hknown]

/-- The first DOWN record of an epoch is kept, and waits on every downlink of a node that is no Newt. -/
theorem downReceiveOp_of_new (hr : (portAt s p).rxDown = r :: rest) (hq : quiet s = false) (h : GoodDown s r x)
    (hnew : s.red.downs.any (fun d => d.epoch == x) = false) :
    Queues (keepDown (downTaken s p r rest) (downAt (downBody r))) (downReceiveOp s p) ∧
    (roleOf s ≠ 1 → ∀ q ∈ downlinks (topoOf s), ⟨5, x, recGen r.data, true, downBody r, 0, none⟩ ∈ (portAt (downReceiveOp s p) q).recs) := by
  rw [downReceiveOp_of_good hr hq h, if_neg (Bool.eq_false_iff.mp hnew)]
  split
  next hrole => exact ⟨queues_refl, fun hn => absurd hrole hn⟩
  next => exact ⟨queues_sendDown _ _ _ _, fun _ q hlink => mem_sendDown (s := keepDown (downTaken s p r rest) _) hlink _ _ _⟩

/-- A DOWN record whose RCRC fails is dropped, and asked for where its tag names an epoch. -/
theorem drops_downReceiveOp (hr : (portAt s p).rxDown = r :: rest) (hq : quiet s = false) (h : rcrcOk r.data = false) :
    Drops .redCrcBad (downTaken s p r rest) (downReceiveOp s p) := by
  unfold downReceiveOp
  rw [hr]
  dsimp only
  rw [hq, if_neg Bool.false_ne_true, h, ← downTaken]
  cases tagEpoch (downTaken s p r rest) r.tag with
  | none => exact drops_rcInc _ _
  | some x => exact drops_askResend (drops_rcInc _ _) (by simp)

theorem exec_downReceive (h4 : asleep s 4 = false) : exec (.downReceive p) s = .next (downReceiveOp (touch s 4) p) :=
  congrArg Host.Outcome.next (whenOn_of_awake h4 _)

theorem downReceiveOp_of_nothing (h : (portAt s p).rxDown = [] ∨ quiet s = true) : downReceiveOp s p = s := by
  unfold downReceiveOp
  split
  next => rfl
  next hr =>
    rcases h with h | h
    · rw [hr] at h; cases h
    · exact if_pos h

/-! DOWN_MISSING_TIMEOUT (R280, R466) -/

/-- The last eight epochs that have ended, oldest first, as far as they have no DOWN record. -/
def epochsWithoutDown (s : State) : List Nat :=
  ((List.range (min 8 s.time.grid.epoch)).map (fun i => s.time.grid.epoch - min 8 s.time.grid.epoch + i)).filter
    (fun x => s.red.downs.all (fun d => d.epoch != x))

/-- The epoch in question: the oldest without a DOWN record whose instant is not past, else the latest. -/
def missingEpoch (s : State) : Nat := ((epochsWithoutDown s).find? (fun x => decide ((tb0Tick s : Int) ≤ downWait s x))).getD (s.time.grid.epoch - 1)

/-- The latest epoch is in question where every earlier one has its DOWN record or has waited for it. -/
theorem missingEpoch_of_latest (hx : x + 1 = s.time.grid.epoch)
    (h : ∀ y, y < x → s.red.downs.any (fun d => d.epoch == y) = true ∨ downWait s y < tb0Tick s) : missingEpoch s = x := by
  unfold missingEpoch
  generalize hfound : (epochsWithoutDown s).find? _ = found
  cases found with
  | none => rw [Option.getD_none]; omega
  | some y =>
    have hwait := List.find?_some hfound
    obtain ⟨hpast, hmissing⟩ := List.mem_filter.mp (List.mem_of_find?_eq_some hfound)
    obtain ⟨i, hi, rfl⟩ := List.mem_map.mp hpast
    have hi' : i < min 8 s.time.grid.epoch := List.mem_range.mp hi
    rw [Option.getD_some]
    refine Nat.le_antisymm (by omega) (Nat.le_of_not_lt fun hlt => ?_)
    rcases h _ hlt with hdown | hpassed
    · obtain ⟨d, hd, he⟩ := List.any_eq_true.mp hdown
      have hne := List.all_eq_true.mp hmissing d hd
      simp only [bne, he] at hne
      cases hne
    · have := of_decide_eq_true hwait
      omega

/-- Where no DOWN record is needed, or the port says nothing, nothing is asked for. -/
theorem downMissing_of_idle (h : gridRuns s = false ∨ mmQuiet s = true ∨ s.time.grid.epoch = 0 ∨ roleOf s = 3 ∨ s.img.active.any needsDown = false) :
    downMissing s = s := by
  refine if_pos ?_
  rcases h with h | h | h | h | h <;> simp [h]

/-- Else time moves to the epoch's instant, and its DOWN record is asked for where it is missing. -/
theorem downMissing_of_asks (hrun : gridRuns s = true) (hquiet : mmQuiet s = false) (hepoch : s.time.grid.epoch ≠ 0) (hrole : roleOf s ≠ 3)
    (hneeds : s.img.active.any needsDown = true) (hmissing : s.red.downs.any (fun d => d.epoch == missingEpoch s) = false)
    (hup : activeUplink s = some q) : downMissing s = askResend (advanceTick s (downWait s (missingEpoch s))) q (missingEpoch s) 2 := by
  have hgo : (!gridRuns s || mmQuiet s || s.time.grid.epoch == 0 || roleOf s == 3 || !s.img.active.any needsDown) = false := by
    simp [hrun, hquiet, hepoch, hrole, hneeds]
  have hup' : activeUplink (advanceTick s (downWait s (missingEpoch s))) = some q := hup
  have hmissing' : (advanceTick s (downWait s (missingEpoch s))).red.downs.any (fun d => d.epoch == missingEpoch s) = false := hmissing
  unfold downMissing
  rw [if_neg (Bool.eq_false_iff.mp hgo)]
  dsimp only
  rw [← epochsWithoutDown, ← missingEpoch, if_neg (Bool.eq_false_iff.mp hmissing'), hup']

/-- The DOWN record of the epoch that ended last is asked for where every earlier one has come or has been waited for. -/
theorem downMissing_of_latest (hrun : gridRuns s = true) (hquiet : mmQuiet s = false) (hx : x + 1 = s.time.grid.epoch) (hrole : roleOf s ≠ 3)
    (hneeds : s.img.active.any needsDown = true) (hpast : ∀ y, y < x → s.red.downs.any (fun d => d.epoch == y) = true ∨ downWait s y < tb0Tick s)
    (hnone : s.red.downs.any (fun d => d.epoch == x) = false) (hup : activeUplink s = some q) (hent : (entOfPort s q).isSome = true)
    (hfew : (aget (portAt s q).asked (x, 2)).getD 0 < 2) : ∃ asked, downMissing s = resendAsked (advanceTick s (downWait s x)) q x 2 asked := by
  have hlatest : missingEpoch s = x := missingEpoch_of_latest hx hpast
  have hasks := downMissing_of_asks hrun hquiet (by omega) hrole hneeds (hlatest.symm ▸ hnone) hup
  have hwindow : inWindow (advanceTick s (downWait s x)) x = true := by
    have hrun' : gridRuns (advanceTick s (downWait s x)) = true := hrun
    have hepoch : (advanceTick s (downWait s x)).time.grid.epoch = x + 1 := hx.symm
    simp only [inWindow, hrun', hepoch, Bool.true_and, Bool.and_eq_true, decide_eq_true_eq]
    omega
  obtain ⟨asked, hopen⟩ := askResend_of_open (s := advanceTick s (downWait s x)) (what := 2) hwindow hfew hent
  rw [hlatest] at hasks
  exact ⟨asked, hasks.trans hopen⟩

/-! RESEND_REQ_RECEIVE (R467) -/

/-- A frame that passes R460 and is no heartbeat and no segment leaves its cells. -/
theorem rxFrame_of_passes (hc : rxClosed s p = false) (hq : mmQuiet s = false) (hf : frameFails s p false b = none) (ht : (frameAt b).ty = ty)
    (hty : ty ≠ tyHeart ∧ ty ≠ tyRecord ∧ ty ≠ tyDown) : rxFrame s p b ty =
      (modPort s p (fun k => { k with freed := (k.freed + cellsOf (4 * (frameAt b).len)) % 2 ^ 32 }), some (frameAt b)) := by
  obtain ⟨hheart, hrecord, hdown⟩ := hty
  simp [rxFrame, hc, hq, hf, ht, hheart, hrecord, hdown]

/-- Copies of one record wait on one port. -/
theorem foldl_queueRec_held (hs : List Held) (s : State) (p row x : Nat) :
    portAt (hs.foldl (fun t h => queueRec t p row x h.gen false h.data) s) p = { portAt s p with
      recs := hs.foldl (fun l h => insertBy (fun r => r.epoch) ⟨row, x, h.gen, false, h.data, 0, none⟩ l) (portAt s p).recs } ∧
    ∀ q, q ≠ p → portAt (hs.foldl (fun t h => queueRec t p row x h.gen false h.data) s) q = portAt s q := by
  induction hs generalizing s with
  | nil => exact ⟨rfl, fun _ _ => rfl⟩
  | cons h hs ih =>
    simp only [List.foldl_cons]
    obtain ⟨hself, hothers⟩ := ih (queueRec s p row x h.gen false h.data)
    refine ⟨?_, fun q hq => ?_⟩
    · rw [hself, portAt_queueRec_self]
    · rw [hothers q hq, portAt_queueRec_ne hq.symm]

/-- The copies that a request of epoch `x` asks for. -/
def askedCopies (s : State) (x : Nat) (down : Bool) : List Held :=
  s.ilk.held.filter (fun h => decide (s.time.grid.epoch ≤ h.epoch + 8) && (h.down == down && h.epoch == x))

theorem heldNow_filter (x : Nat) (down : Bool) : (heldNow s).filter (fun h => h.down == down && h.epoch == x) = askedCopies s x down := by
  unfold heldNow askedCopies
  rw [List.filter_filter]
  exact List.filter_congr fun h _ => Bool.and_comm _ _

/-- The request has left its cells. -/
def requestTaken (s : State) (p : Nat) (b : Bytes) : State :=
  modPort s p (fun k => { k with freed := (k.freed + cellsOf (4 * (frameAt b).len)) % 2 ^ 32 })

/-- A request is answered with the copies held of its epoch, or counted where there is none. -/
theorem resendReqOp_eq (hc : rxClosed s p = false) (hq : mmQuiet s = false) (hf : frameFails s p false b = none) (ht : (frameAt b).ty = tyResend)
    {down : Bool} (hx : beAt (frameAt b).payload 0 8 % 2 ^ 48 = x) (hdown : (byteAt (frameAt b).payload 8 == 2) = down) : resendReqOp s p b =
      if askedCopies s x down = [] then rcInc (requestTaken s p b) (.ilk p .resendMiss)
      else (askedCopies s x down).foldl (fun t h => queueRec t p (if down then 5 else 6) x h.gen false h.data) (requestTaken s p b) := by
  have hheld : (heldNow (requestTaken s p b)).filter (fun h => h.down == down && h.epoch == x) = askedCopies s x down := heldNow_filter x down
  unfold resendReqOp
  rw [rxFrame_of_passes hc hq hf ht (by decide), ← requestTaken]
  dsimp only
  rw [hx, hdown, hheld]
  cases askedCopies s x down with
  | nil => rfl
  | cons h hs => rfl

/-! DOWN_EXPIRED (R469) -/

/-- The record is a DOWN record that has not started by the edge that ends e + L_PEER. -/
def downIsLate (s : State) (r : TxRec) : Bool :=
  r.row == 5 && r.next == 0 && gridRuns s && decide (r.epoch + (s.img.active.map (·.node.lPeer)).getD 0 < s.time.grid.epoch)

theorem expireDown_eq (s : State) (p : Nat) : expireDown s p =
    rcAdd (modPort s p (fun k => { k with recs := k.recs.filter (fun r => !downIsLate s r) })) (.ilk p .downExpired)
      ((portAt s p).recs.filter (downIsLate s)).length := rfl

/-- Settles O43, clause by clause: a DOWN record by `downReceiveOp_of_new`, `downReceiveOp_of_known` and `drops_downReceiveOp`, the missing one by
`downMissing_of_latest`, a request by `resendReqOp_eq`. -/
theorem downRecordsAreKeptOnceAndResent : Obligations.DownRecordsAreKeptOnceAndResent := by
  refine ⟨fun s p r rest hr hq h4 => ⟨fun x hcrc htag he hg hkind hlen hnew => ?_, fun x hcrc htag he hg hkind hlen hknown => ?_, fun hcrc => ?_⟩,
    fun s p h4 h => ?_, fun s im x q hrun hquiet him hrole hneeds hx hpast hnone hup hent hasked => ?_, fun s h => congrArg _ (downMissing_of_idle h),
    fun s p b hc hq hf ht => ?_, fun s p => ?_, fun s => rfl⟩
  · have hgood : GoodDown (touch s 4) r x := ⟨hcrc, htag, he, hg, hkind, hlen⟩
    obtain ⟨⟨⟨ports, hu⟩, hrecs, -⟩, hlinks⟩ := downReceiveOp_of_new (s := touch s 4) hr hq hgood hnew
    refine ⟨_, exec_downReceive h4, by rw [hu]; rfl, ?_, fun hrole q hlink => ?_, by rw [hu]; rfl⟩
    · rw [hrecs]
      exact rxDown_downTaken (s := touch s 4)
    · refine List.any_eq_true.mpr ⟨_, hlinks hrole q hlink, ?_⟩
      simp [downBody]
  · have hgood : GoodDown (touch s 4) r x := ⟨hcrc, htag, he, hg, hkind, hlen⟩
    have hsame := downReceiveOp_of_known (s := touch s 4) hr hq hgood hknown
    exact ⟨_, (exec_downReceive h4).trans (by rw [hsame]), rxDown_downTaken, rfl⟩
  · have hdrop : Drops .redCrcBad (downTaken (touch s 4) p r rest) (downReceiveOp (touch s 4) p) := drops_downReceiveOp hr hq hcrc
    refine ⟨_, exec_downReceive h4, hdrop.counted, (hdrop.received p).2.trans rxDown_downTaken, ?_⟩
    obtain ⟨_, _, _, hu⟩ := hdrop.frame
    obtain ⟨_, htaken⟩ := downTaken_frame (s := touch s 4) (p := p) (r := r) (rest := rest)
    rw [hu, htaken]
    rfl
  · rw [exec_downReceive h4, downReceiveOp_of_nothing (s := touch s 4) h]
  · have hroleOf : roleOf s ≠ 3 := by simpa [roleOf, him] using hrole
    have hneedsOf : s.img.active.any needsDown = true := by simpa [him] using hneeds
    obtain ⟨asked, hasks⟩ := downMissing_of_latest hrun hquiet hx hroleOf hneedsOf hpast hnone hup hent hasked
    obtain ⟨_, _, _, hu⟩ := linkFrame_resendAsked (s := advanceTick s (downWait s x)) (p := q) (x := x) (what := 2) asked
    refine ⟨_, congrArg Host.Outcome.next hasks, by rw [hu], ?_, ?_, by rw [hu]; rfl⟩
    · rw [portAt_resendAsked_self]
      rfl
    · rw [rcGet_resendAsked, if_pos rfl]
      rfl
  · intro x down hs
    have hop := resendReqOp_eq hc hq hf ht (x := x) (down := down) rfl rfl
    refine ⟨fun hheld => ?_, fun hheld => ?_⟩
    · have hasked : askedCopies s x down ≠ [] := hheld
      rw [if_neg hasked] at hop
      obtain ⟨hself, hothers⟩ := foldl_queueRec_held (askedCopies s x down) (requestTaken s p b) p (if down then 5 else 6) x
      obtain ⟨_, hu⟩ := (queues_foldl (fun t h => queues_queueRec t p (if down then 5 else 6) x h.gen false h.data) (askedCopies s x down)
        (requestTaken s p b)).frame
      refine ⟨_, congrArg Host.Outcome.next hop, by rw [hself, requestTaken, portAt_modPort_self]; rfl, by rw [hself, requestTaken, portAt_modPort_self],
        fun q hq => ?_, by rw [hu]; rfl⟩
      rw [hothers q hq, requestTaken, portAt_modPort_ne hq.symm]
    · have hasked : askedCopies s x down = [] := hheld
      rw [if_pos hasked] at hop
      refine ⟨_, congrArg Host.Outcome.next hop, by rw [rcGet_rcInc, if_pos rfl]; rfl, by rw [portAt_rcInc, requestTaken, portAt_modPort_self], ?_⟩
      obtain ⟨_, _, _, hu⟩ := linkFrame_rcInc (s := requestTaken s p b) (.ilk p .resendMiss)
      rw [hu]
      rfl
  · intro l gone
    refine ⟨_, rfl, ?_, fun r hr hg => ?_, fun q hq => ?_, ?_⟩
    · rw [expireDown_eq, portAt_rcAdd, portAt_modPort_self]
      rfl
    · have hsome : ((portAt s p).recs.filter (downIsLate s)).length ≠ 0 := by
        have hmem : r ∈ (portAt s p).recs.filter (downIsLate s) := List.mem_filter.mpr ⟨hr, hg⟩
        exact Nat.ne_of_gt (List.length_pos_of_mem hmem)
      rw [expireDown_eq, rcGet_rcAdd _ _ _ hsome, if_pos rfl]
      rfl
    · rw [expireDown_eq, portAt_rcAdd, portAt_modPort_ne hq.symm]
    · obtain ⟨_, _, _, hu⟩ := linkFrame_rcAdd (s := modPort s p (fun k => { k with recs := k.recs.filter (fun r => !downIsLate s r) }))
        (.ilk p .downExpired) ((portAt s p).recs.filter (downIsLate s)).length
      rw [expireDown_eq, hu]
      rfl

end Sys2Proof.Machine
end

section
/-!
MERGED_RECORD_READY (R271, R275) at a Spire whose uplink is behind: the own record is kept in SUMMARY form, with DEGRADED set (R274).
-/
namespace Sys2Proof.Machine

variable {s : State} {r full : Record} {fs : List Field} {rest : List (Record × List Field)} {im : Image}

@[simp] theorem surround_queueSample (s : State) (x : Nat) : surround (queueSample s x) = surround s := by
  unfold queueSample
  split <;> rfl

/-- The record of a node below the Dome leads its own records in the form in which it became ready, with its SELF section. -/
theorem own_mergedReady (hready : s.sealing.ready = (r, fs) :: rest) (hq : quiet s = false) (him : imageAt s r.epoch = some im) (hrole : im.role ≠ 3) :
    (mergedReady s).red.own = (readyForm s im { r with self := selfOf s im r.epoch } :: s.red.own).take 9 := by
  obtain ⟨t, ht⟩ : ∃ t, t = modSeal s (fun u => { u with ready := rest, merged := ((r.epoch, fs) :: u.merged).take 9 }) := ⟨_, rfl⟩
  obtain ⟨_, hown⟩ := surround_ownReady hrole t { r with self := selfOf t im r.epoch }
  have him' : imageAt t r.epoch = some im := by rw [ht]; exact him
  unfold mergedReady
  rw [hready]
  dsimp only
  rw [hq, if_neg Bool.false_ne_true, ← ht, him']
  dsimp only
  rw [if_pos hrole]
  subst ht
  exact congrArg (fun v : Surround => v.red.own) ((surround_queueSample _ _).trans hown)

/-- SUMMARY form sets DEGRADED (R274). -/
theorem degraded_readyForm (hrole : im.role ≠ 3) (hform : formsSummary s = true) (hfull : full.summary = false) :
    (readyForm s im full).cov.degraded = true := by
  simp [readyForm, hrole, hform, summarise, hfull]

theorem exec_mergedRecordReady (h4 : asleep s 4 = false) : exec .mergedRecordReady s = .next (settled (touch s 4) (mergedReady (touch s 4))) :=
  congrArg Host.Outcome.next (whenOn_of_awake h4 _)

/-- Whatever is settled as the state after MERGED_RECORD_READY has its own records. -/
theorem own_of_exec_mergedRecordReady {u : State} (h4 : asleep s 4 = false) (h : exec .mergedRecordReady s = .next (settled (touch s 4) u)) :
    u.red.own = (mergedReady (touch s 4)).red.own := by
  have hnext := Host.Outcome.next.inj (h.symm.trans (exec_mergedRecordReady h4))
  have hsame : surround u = surround (mergedReady (touch s 4)) := by
    rw [← surround_settled (touch s 4) u, hnext, surround_settled]
  exact congrArg (fun v : Surround => v.red.own) hsame

/-! A Spire behind on its uplink -/

/-- A smallest image of a Spire, node 42 at height 1. -/
def bareSpireImage : Image where
  role := 2
  gen := 7
  schemaNo := 1
  len := 4096
  build := 1
  nodeId := 42
  node := { nodeId := 42, h := 1, hmax := 3, e := 0, lPeer := 10, wH := 10, parentPri := 7, parentAlt := 0, portPri := 0, portAlt := 0 }
  capture := none
  feature := ⟨[], []⟩
  schema := { schema := 1, prev := 0, srcGroup := 0, summaryAt := 2, prevFields := 0, fields := [], map := [], downs := [], pairs := [] }
  reduce := []
  topo := ⟨[], [], 0, 0⟩
  gates := []
  detect := { vcap := 16, quorum := false, warmup := 8, peerGap := 1, spCap := 4, spRefill := 10, domeRate := 10, domeCap := 4, fleetLeaves := 64,
              voteWait := 1000, dets := [] }
  epochtab := none
  views := none
  panel := none
  timebase := none

/-- A merged record of epoch `x` without fields, in FULL form and not DEGRADED. -/
def bareRecord (x : Nat) : Record where
  schema := 1
  gen := 7
  summary := false
  join := false
  timeStep := false
  restart := false
  resent := false
  epoch := x
  node := 42
  h := 1
  beginAt := ⟨0, 0⟩
  endAt := ⟨0, 0⟩
  cov := { partialCov := false, degraded := false, poisoned := false, rebuilding := false, adopt := false, early := false, nchild := 0, nmiss := 0,
           leaves := 0, expect := 0, adopted := 0, parent := 0, missNodes := 0, rebuildNodes := 0, lostNode := 0xFFFFFFFF, depart := 0, miss := [] }
  loss := []
  self := none
  infra := none
  fields := []
  late := []

/-- A Spire with RED on whose records of epochs 2 and 3 still wait for the uplink, and whose merged record of epoch 4 is ready. -/
def spireBehind : State :=
  let s := State.initial Config.spireDefault ⟨0, 0, 0⟩ []
  { s with
    rst := { s.rst with step := 6 }
    pow := s.pow.map (fun p => { p with st := .on, req := true })
    img := { s.img with active := some bareSpireImage, hasAct := true, gen := 7 }
    time := { s.time with grid := { s.time.grid with st := .running, epoch := 5, forming := true } }
    red := { s.red with unsent := [bareRecord 2, bareRecord 3] }
    sealing := { s.sealing with ready := [(bareRecord 4, [])] } }

/-- Refutes O42: at a Spire two of whose records wait already, as many as SUMMARY_AT, the merged record of epoch 4 becomes ready in SUMMARY form (R275),
which sets DEGRADED (R274): the own record's coverage is not that of the record that SEAL formed. -/
theorem not_theSealFormsTheMergedRecord : ¬ Obligations.TheSealFormsTheMergedRecord := by
  rintro ⟨-, -, hready, -, -⟩
  have h4 : asleep spireBehind 4 = false := by decide
  have hform : formsSummary (touch spireBehind 4) = true := by decide
  obtain ⟨u, hexec, -, -, ⟨o, hown, -, -, -, hcov, -⟩, -⟩ := hready spireBehind (bareRecord 4) [] [] bareSpireImage rfl (by decide) h4 rfl
  rw [own_of_exec_mergedRecordReady h4 hexec, own_mergedReady (s := touch spireBehind 4) rfl (by decide) (im := bareSpireImage) rfl (by decide)] at hown
  have hlead : readyForm (touch spireBehind 4) bareSpireImage { bareRecord 4 with self := selfOf (touch spireBehind 4) bareSpireImage 4 } = o :=
    (List.cons.inj hown).1
  have hdegraded : o.cov.degraded = true := hlead ▸ degraded_readyForm (by decide) hform rfl
  rw [hcov] at hdegraded
  exact absurd hdegraded (by decide)

end Sys2Proof.Machine
end

section
/-!
What the memory port, the recorder, faults, the SRAM, DMA and the mailboxes never touch: FEAT. What jobs, the hot set and LEAP_RUN leave of it:
everything but the buffer's slots (`offSlots`, R346, R347).
-/
namespace Sys2Proof.Machine

@[simp] theorem feat_ite (c : Prop) [Decidable c] (s t : State) : (if c then s else t).feat = if c then s.feat else t.feat :=
  apply_ite State.feat c s t

theorem foldl_feat {α : Type} {f : State → α → State} (h : ∀ t x, (f t x).feat = t.feat) (l : List α) (s : State) : (l.foldl f s).feat = s.feat := by
  induction l generalizing s with
  | nil => rfl
  | cons x r ih => rw [List.foldl_cons, ih, h]

/-- A fold that carries a state and what it has gathered. -/
theorem foldl_fst_feat {α β : Type} {f : State × β → α → State × β} {p : State × β} (h : ∀ p x, (f p x).1.feat = p.1.feat) (l : List α) :
    (l.foldl f p).1.feat = p.1.feat := by
  induction l generalizing p with
  | nil => rfl
  | cons x r ih => rw [List.foldl_cons, ih, h]

/-! The memory port, the recorder and faults -/

@[simp] theorem mmPump_feat (s : State) : (mmPump s).feat = s.feat := by simp [mmPump]

@[simp] theorem ercAppend_feat (s : State) (kind epoch gen epochs : Nat) (restart tstep : Bool) (body : Bytes) :
    (ercAppend s kind epoch gen epochs restart tstep body).feat = s.feat := by simp [ercAppend, ercPut, ercWait]

@[simp] theorem ercForm_feat (s : State) (q : List Nat) (power : Bool) : (ercForm s q power).feat = s.feat := by simp [ercForm]

@[simp] theorem ercNext_feat (s : State) : (ercNext s).feat = s.feat := by simp [ercNext, ercFlushEnd]

@[simp] theorem ercEnd_feat (s : State) (b : Bool) (qos : Nat) : (ercEnd s b qos).feat = s.feat := by simp [ercEnd, mmWriteJob]

@[simp] theorem ercPlace_feat (s : State) (c : Chunk) (d : Bytes) : (ercPlace s c d).feat = s.feat := by simp [ercPlace, mmWriteJob]

@[simp] theorem ercSend_feat (s : State) : (ercSend s).feat = s.feat := by
  unfold ercSend
  repeat' split
  all_goals simp

@[simp] theorem bbFault_feat (s : State) : (bbFault s).feat = s.feat := by simp [bbFault]

@[simp] theorem bbPower_feat (s : State) : (bbPower s).feat = s.feat := by
  unfold bbPower
  dsimp only
  repeat' split
  all_goals rfl

@[simp] theorem ercUnfreeze_feat (s : State) : (ercUnfreeze s).feat = s.feat := by simp [ercUnfreeze]

@[simp] theorem ercFlush_feat (s : State) (cause loc : Nat) : (ercFlush s cause loc).feat = s.feat := by
  simp [ercFlush, ercFlushNow, ercWait, ercDropFrozen, ercPump]

@[simp] theorem raiseFault_feat (s : State) (cause loc : Nat) : (raiseFault s cause loc).feat = s.feat := by simp [raiseFault, faultEnter]

/-! SRAM -/

@[simp] theorem writeWordA_feat (s : State) (b i : Nat) (w : List Nat) : (writeWordA s b i w).feat = s.feat := by simp [writeWordA, storeRaw]

@[simp] theorem writeWordB_feat (s : State) (b i : Nat) (w : List Nat) : (writeWordB s b i w).feat = s.feat := rfl

@[simp] theorem noteUe_feat (s : State) (b : Nat) : (noteUe s b).feat = s.feat := raiseFault_feat _ _ _

@[simp] theorem noteFix_feat (s : State) (b i : Nat) (f : Nat × Nat) : (noteFix s b i f).feat = s.feat := by simp [noteFix]

@[simp] theorem readWord_feat (s : State) (b i : Nat) (keep : Bool) : (readWord s b i keep).1.feat = s.feat := by
  have hfixed : ((rsDecode (rawWord s b i) (bankAt s b).erased).fixes.foldl (fun a f => noteFix a b i f) s).feat = s.feat :=
    foldl_feat (fun t f => noteFix_feat t b i f) _ s
  unfold readWord
  dsimp only
  repeat' split
  all_goals simp [hfixed]

@[simp] theorem drainEnt_feat (s : State) (b : Nat) (e : MergeEnt) : (drainEnt s b e).feat = s.feat := by
  unfold drainEnt
  dsimp only
  repeat' split
  all_goals simp [dropEnt]

@[simp] theorem writeIn_feat (s0 : State) (portB : Bool) (b i o : Nat) (d : Bytes) : (writeIn s0 portB b i o d).feat = s0.feat := by
  unfold writeIn
  repeat' split
  all_goals simp

@[simp] theorem writeSpan_feat (portB : Bool) (f : Nat) (s : State) (a : Nat) (d : Bytes) : (writeSpan portB f s a d).feat = s.feat := by
  induction f generalizing s a d with
  | zero => rfl
  | succ f ih => simp [writeSpan, ih]

@[simp] theorem sramWrite_feat (s : State) (portB : Bool) (a : Nat) (d : Bytes) : (sramWrite s portB a d).feat = s.feat :=
  writeSpan_feat portB _ _ a d

@[simp] theorem drainWord_feat (s : State) (b i : Nat) : (drainWord s b i).feat = s.feat := by
  unfold drainWord
  split <;> simp

@[simp] theorem readIn_feat (s : State) (portB : Bool) (b i : Nat) : (readIn s portB b i).1.feat = s.feat := by
  unfold readIn
  dsimp only
  repeat' split
  all_goals simp

@[simp] theorem readSpan_feat (portB : Bool) (f : Nat) (s : State) (a n : Nat) : (readSpan portB f s a n).1.feat = s.feat := by
  induction f generalizing s a n with
  | zero => rfl
  | succ f ih =>
    unfold readSpan
    split
    · rfl
    · dsimp only
      rw [ih]
      split <;> simp

theorem sramRead_feat (s : State) (portB : Bool) (a n : Nat) : (sramRead s portB a n).1.feat = s.feat := readSpan_feat portB _ _ a n

@[simp] theorem readPlace_feat (s : State) (p : Place) (n : Nat) : (readPlace s p n).1.feat = s.feat := by
  cases p with
  | host a => rfl
  | sram a => exact sramRead_feat s true a n
  | atomic b a => exact sramRead_feat s true a n
  | view us o =>
    refine foldl_fst_feat (p := (s, [], true)) (fun t x => ?_) _
    exact sramRead_feat t.1 true x.1 x.2

@[simp] theorem aliasWord_feat (s : State) (setBits : Bool) (a v : Nat) : (aliasWord s setBits a v).1.feat = s.feat := by
  unfold aliasWord
  dsimp only
  repeat' split
  all_goals simp

@[simp] theorem aliasSpan_feat (setBits : Bool) (f : Nat) (s : State) (a : Nat) (d : Bytes) : (aliasSpan setBits f s a d).1.feat = s.feat := by
  induction f generalizing s a d with
  | zero => rfl
  | succ f ih =>
    unfold aliasSpan
    dsimp only
    repeat' split
    all_goals simp [ih]

@[simp] theorem writePlace_feat (s : State) (p : Place) (d : Bytes) : (writePlace s p d).1.feat = s.feat := by
  cases p with
  | host a => rfl
  | sram a => exact sramWrite_feat s true a d
  | atomic b a => exact aliasSpan_feat b _ _ _ _
  | view us o => exact foldl_fst_feat (p := (s, d)) (fun t x => sramWrite_feat t.1 true x.1 _) _

/-! Mailboxes and DMA -/

@[simp] theorem tenantIrq_feat (s : State) (v : Nat) : (tenantIrq s v).feat = s.feat := by simp [tenantIrq, irqStart, mmWriteJob]

@[simp] theorem finishMbx_feat (s : State) (m code : Nat) (trunc : Bool) : (finishMbx s m code trunc).feat = s.feat := by simp [finishMbx]

@[simp] theorem drainUnits_feat (s : State) : (drainUnits s).feat = s.feat := 
  foldl_feat (f := zeroUnit) (fun _ _ => rfl) _ s

@[simp] theorem putData_feat (s : State) (m : Nat) (r : DmaRun) (d : DmaDesc) (data : Bytes) : (putData s m r d data).feat = s.feat := by
  unfold putData
  dsimp only
  repeat' split
  all_goals simp [mmWriteJob, writeDone, haltDma]

@[simp] theorem startDesc_feat (s : State) (m : Nat) (r : DmaRun) : (startDesc s m r).feat = s.feat := by
  unfold startDesc
  dsimp only
  repeat' split
  all_goals simp [mmReadJob, haltDma, setCmd]

@[simp] theorem tryDma_feat (s : State) (m : Nat) (ds : List DmaDesc) : (tryDma s m ds).feat = s.feat := by
  unfold tryDma
  repeat' split
  all_goals simp [setCmd]

@[simp] theorem waitStep_feat (s : State) (m : Nat) : (waitStep s m).feat = s.feat := by
  unfold waitStep
  split <;> simp

@[simp] theorem waitPass_feat (n : Nat) (s : State) : (waitPass n s).feat = s.feat := by
  induction n generalizing s with
  | zero => rfl
  | succ n ih => rw [waitPass, ih, foldl_feat waitStep_feat, drainUnits_feat]

@[simp] theorem mbxSettle_feat (s : State) : (mbxSettle s).feat = s.feat := by simp [mbxSettle]

/-! Everything but the slots -/

/-- FEAT but for the buffer's slots. -/
def offSlots (f : FeatU) : FeatU := { f with slots := [] }

@[simp] theorem offSlots_mk (f : FeatU) (l : List FSlot) : offSlots { f with slots := l } = offSlots f := rfl

theorem queue_of_offSlots {f g : FeatU} (h : offSlots f = offSlots g) : f.queue = g.queue := (congrArg FeatU.queue h :)
theorem cur_of_offSlots {f g : FeatU} (h : offSlots f = offSlots g) : f.cur = g.cur := (congrArg FeatU.cur h :)
theorem lastEp_of_offSlots {f g : FeatU} (h : offSlots f = offSlots g) : f.lastEp = g.lastEp := (congrArg FeatU.lastEp h :)

@[simp] theorem offSlots_ite (c : Prop) [Decidable c] (f g : FeatU) : offSlots (if c then f else g) = if c then offSlots f else offSlots g :=
  apply_ite offSlots c f g

theorem offSlots_foldl {α : Type} {f : State → α → State} (h : ∀ t x, offSlots (f t x).feat = offSlots t.feat) (l : List α) (s : State) :
    offSlots (l.foldl f s).feat = offSlots s.feat := by
  induction l generalizing s with
  | nil => rfl
  | cons x r ih => rw [List.foldl_cons, ih, h]

/-! Jobs -/

@[simp] theorem sweepModels_feat (s : State) : (sweepModels s).feat = s.feat := rfl
@[simp] theorem modModel_feat (s : State) (n : Nat) (f : Model → Model) : (modModel s n f).feat = s.feat := rfl
@[simp] theorem modJob_feat (s : State) (jid : Nat) (f : Job → Job) : (modJob s jid f).feat = s.feat := rfl
@[simp] theorem keepScore_feat (s : State) (r : Score) : (keepScore s r).feat = s.feat := rfl
@[simp] theorem modLoad_feat (s : State) (lid : Nat) (f : Load → Load) : (modLoad s lid f).feat = s.feat := rfl

@[simp] theorem closeStrand_feat (s : State) (j : Job) (k : Nat) (t : Strand) : (closeStrand s j k t).feat = s.feat := by
  simp [closeStrand, chargeBack, acctAdd]

@[simp] theorem offSlots_readerJob (s : State) (jid : Nat) : offSlots (readerJob s jid).feat = offSlots s.feat := rfl

@[simp] theorem offSlots_endJob (s : State) (jid status : Nat) (y : List Nat) : offSlots (endJob s jid status y).feat = offSlots s.feat := by
  have hclosed (j : Job) : (j.strands.zipIdx.foldl (fun a p => closeStrand a j p.2 p.1) s).feat = s.feat :=
    foldl_feat (fun t (p : Strand × Nat) => closeStrand_feat t j p.2 p.1) _ s
  unfold endJob
  split
  · rfl
  · simp [hclosed]

@[simp] theorem offSlots_discardJobs (s : State) (status : Nat) (p : Job → Bool) : offSlots (discardJobs s status p).feat = offSlots s.feat :=
  offSlots_foldl (fun t (j : Job) => offSlots_endJob t j.jid status []) _ s

/-! The hot set -/

@[simp] theorem offSlots_evictModel (s : State) (n : Nat) (squash : Bool) : offSlots (evictModel s n squash).feat = offSlots s.feat := by
  unfold evictModel
  dsimp only
  repeat' split
  all_goals simp [dropLoads]

theorem offSlots_of_makeSpace {s t : State} {meets : List Nat → Bool} (h : makeSpace s meets = some t) : offSlots t.feat = offSlots s.feat := by
  unfold makeSpace at h
  split at h
  · cases h
    rfl
  · dsimp only at h
    split at h
    · cases h
      exact offSlots_foldl (fun t n => offSlots_evictModel t n true) _ s
    · cases h

@[simp] theorem fallbackSwitch_feat (s : State) (n : Nat) (staged : Bool) : (fallbackSwitch s n staged).feat = s.feat := by
  unfold fallbackSwitch
  repeat' split
  all_goals rfl

@[simp] theorem offSlots_refuseLoad (s : State) (x : Load) (code : Nat) : offSlots (refuseLoad s x code).feat = offSlots s.feat := by
  unfold refuseLoad
  dsimp only
  repeat' split
  all_goals simp

@[simp] theorem offSlots_trySpace (s : State) (x : Load) : offSlots (trySpace s x).feat = offSlots s.feat := by
  unfold trySpace
  repeat' split
  case h_1 h => exact offSlots_of_makeSpace h
  all_goals simp [mmReadJob]

@[simp] theorem giveNumber_feat (s : State) (x : Load) (n : Nat) : (giveNumber s x n).feat = s.feat := by simp [giveNumber, useModel]

@[simp] theorem offSlots_readHeader (s : State) (x : Load) : offSlots (readHeader s x).feat = offSlots s.feat := by
  unfold readHeader
  dsimp only
  repeat' split
  all_goals simp [mmReadJob]

@[simp] theorem offSlots_found (s : State) (x : Load) (addr len : Nat) (flash : Bool) : offSlots (found s x addr len flash).feat = offSlots s.feat := by
  unfold found
  dsimp only
  repeat' split
  all_goals simp

@[simp] theorem offSlots_fetchTable (s0 : State) (x : Load) : offSlots (fetchTable s0 x).feat = offSlots s0.feat := by
  unfold fetchTable fetchPack
  dsimp only
  repeat' split
  all_goals simp [mmReadJob]

@[simp] theorem offSlots_tryInstall (s : State) (x : Load) : offSlots (tryInstall s x).feat = offSlots s.feat := by
  unfold tryInstall
  dsimp only
  split
  · rfl
  · split
    · simp
    · split
      next h => exact offSlots_of_makeSpace h
      next => split <;> simp

@[simp] theorem offSlots_stepLoad (s : State) (lid : Nat) : offSlots (stepLoad s lid).feat = offSlots s.feat := by
  unfold stepLoad
  dsimp only
  repeat' split
  all_goals simp

@[simp] theorem offSlots_loadPump (s : State) : offSlots (loadPump s).feat = offSlots s.feat := by
  rw [loadPump, mmPump_feat, offSlots_foldl offSlots_stepLoad, sweepModels_feat]

@[simp] theorem offSlots_startRepair (s : State) (n : Nat) : offSlots (startRepair s n).feat = offSlots s.feat := by
  unfold startRepair
  dsimp only
  repeat' split
  all_goals simp [shadowLoad]

theorem offSlots_dueRepairs (s : State) : offSlots (dueRepairs s).feat = offSlots s.feat :=
  offSlots_foldl (fun t (p : Nat × Model) => offSlots_startRepair t p.1) _ s

@[simp] theorem offSlots_autoRepair (old s : State) : offSlots (autoRepair old s).feat = offSlots s.feat := by
  unfold autoRepair
  split
  · exact offSlots_dueRepairs s
  · rw [offSlots_dueRepairs, offSlots_foldl offSlots_startRepair]

/-! LEAP_RUN, and the jobs of a vector -/

@[simp] theorem bufMark_feat (s : State) : (bufMark s).feat = s.feat := rcMax_feat s _ _

@[simp] theorem offSlots_startDemand (s : State) (bundle : Nat) (byHost : Bool) : offSlots (startDemand s bundle byHost).feat = offSlots s.feat := by
  unfold startDemand
  dsimp only
  split <;> simp

@[simp] theorem vtJoin_feat (s : State) (v : Nat) : (vtJoin s v).feat = s.feat := by
  unfold vtJoin
  split <;> rfl

@[simp] theorem offSlots_addJob (s : State) (j : Job) : offSlots (addJob s j).feat = offSlots s.feat := by
  unfold addJob
  dsimp only
  repeat' split
  all_goals simp

@[simp] theorem offSlots_hostJob (s : State) (view bundle tag : Nat) (v : Vec) : offSlots (hostJob s view bundle tag v).feat = offSlots s.feat := by
  unfold hostJob
  dsimp only
  repeat' split
  all_goals simp

@[simp] theorem offSlots_createJob (s : State) (m : Nat) (r : LeapRun) (d : RunDesc) (b : Bytes) :
    offSlots (createJob s m r d b).feat = offSlots s.feat := by
  simp [createJob, setCmd]

theorem offSlots_pumpRun (f : Nat) (s : State) (m : Nat) : offSlots (pumpRun f s m).feat = offSlots s.feat := by
  induction f generalizing s with
  | zero => rfl
  | succ f ih =>
    unfold pumpRun
    dsimp only
    repeat' split
    all_goals simp [ih, writeResult, mmWriteJob, mmReadJob, setCmd]

theorem offSlots_settled (old s : State) : offSlots (settled old s).feat = offSlots s.feat := by
  unfold settled pumpRuns leapSettle
  rw [mbxSettle_feat, offSlots_foldl (offSlots_pumpRun 600), offSlots_loadPump, offSlots_autoRepair]

end Sys2Proof.Machine
end

section
/-!
FEAT's commands (R325, R345 to R349, R356): the take-up of a sample, the formation of its vector and the vector's completion.
-/
namespace Sys2Proof.Machine

variable {s t u : State} {im : Image} {e : Nat} {v : Vec} {queue : List FeatIn} {lastEp : Option (Nat × Bool)}

@[simp] theorem surround_modFeat (s : State) (f : FeatU → FeatU) : surround (modFeat s f) = surround s := rfl

/-- What the formation of a vector leaves alone: the surroundings, the samples that wait, and which epoch sample was the last. -/
structure Intake where
  around : Surround
  queue  : List FeatIn
  lastEp : Option (Nat × Bool)

/-- Of the surroundings, the classes that have still to take over from the old image are others (R335). -/
def Intake.withDue (k : Intake) (due : List Nat) : Intake := { k with around := { k.around with img := { k.around.img with featDue := due } } }

/-- `Intake` of a state. -/
def intake (s : State) : Intake := ⟨surround s, s.feat.queue, s.feat.lastEp⟩

theorem intake_of_surround (h : surround t = surround s) (hfeat : offSlots t.feat = offSlots s.feat) : intake t = intake s := by
  rw [intake, h, queue_of_offSlots hfeat, lastEp_of_offSlots hfeat, ← intake]

@[simp] theorem intake_ite (c : Prop) [Decidable c] (s t : State) : intake (if c then s else t) = if c then intake s else intake t :=
  apply_ite intake c s t

theorem intake_foldl {α : Type} {f : State → α → State} (h : ∀ t x, intake (f t x) = intake t) (l : List α) (s : State) :
    intake (l.foldl f s) = intake s := by
  induction l generalizing s with
  | nil => rfl
  | cons x r ih => rw [List.foldl_cons, ih, h]

/-- An update of FEAT that leaves the queue and the last epoch sample. -/
@[simp] theorem intake_modFeat {f : FeatU → FeatU} (hqueue : (f s.feat).queue = s.feat.queue) (hlast : (f s.feat).lastEp = s.feat.lastEp) :
    intake (modFeat s f) = intake s := by
  rw [intake, modFeat_feat, hqueue, hlast, surround_modFeat, ← intake]

@[simp] theorem intake_touch (s : State) (u : Nat) : intake (touch s u) = intake s := rfl

@[simp] theorem intake_rcAdd (s : State) (r : RcReg) (n : Nat) : intake (rcAdd s r n) = intake s := by simp [intake]

@[simp] theorem intake_rcInc (s : State) (r : RcReg) : intake (rcInc s r) = intake s := intake_rcAdd s r 1

@[simp] theorem intake_bufMark (s : State) : intake (bufMark s) = intake s := by simp [intake]

@[simp] theorem intake_raiseFault (s : State) (cause loc : Nat) : intake (raiseFault s cause loc) = intake s := by simp [intake]

@[simp] theorem intake_discardJobs (s : State) (status : Nat) (p : Job → Bool) : intake (discardJobs s status p) = intake s :=
  intake_of_surround (surround_discardJobs s status p) (offSlots_discardJobs s status p)

/-! The formation of a vector -/

@[simp] theorem intake_noteDamage (fs : FeatureSec) (s : State) (n : Nat) : intake (noteDamage fs s n) = intake s := by simp [noteDamage]

@[simp] theorem intake_swapFeats (s : State) : intake (swapFeats s) = intake s := rfl

/-- The features in order each add one code. -/
theorem length_featFold (fs : FeatureSec) (x : FeatCtx) (l : List FeatDesc) (i : Nat) (a : State × List Nat × List Nat) :
    (featFold fs x l i a).2.1.length = a.2.1.length + l.length := by
  induction l generalizing i a with
  | nil => rfl
  | cons f r ih =>
    obtain ⟨s, codes, pois⟩ := a
    rw [featFold, ih]
    simp only [List.length_append, List.length_cons, List.length_nil]
    omega

@[simp] theorem intake_featFold (fs : FeatureSec) (x : FeatCtx) (l : List FeatDesc) (i : Nat) (a : State × List Nat × List Nat) :
    intake (featFold fs x l i a).1 = intake a.1 := by
  induction l generalizing i a with
  | nil => rfl
  | cons f r ih =>
    rw [featFold, ih]
    split <;> simp

/-- On its way from `s` to `t`, FEAT forms the vector `v`, one code for each feature of `im`, and leaves `queue` and `lastEp`; around FEAT, at most
classes take over from the old image (R133, R335). -/
structure TakesUp (s t : State) (im : Image) (v : Vec) (queue : List FeatIn) (lastEp : Option (Nat × Bool)) : Prop where
  intake : ∃ due, intake t = Intake.withDue ⟨surround s, queue, lastEp⟩ due
  formed : ∃ codes poison, t.feat.cur = some { v with codes := codes, poison := poison } ∧ codes.length = im.feature.feats.length

/-- From a state in which the sample has left the queue, the features of `im` form its vector. -/
theorem takesUp_formVec (h : ∃ due, intake u = Intake.withDue ⟨surround s, queue, lastEp⟩ due) (im : Image) (x : FeatCtx)
    (damaged : List Nat) (v : Vec) : TakesUp s (formVec u im x damaged v) im v queue lastEp := by
  have hsame : intake (formVec u im x damaged v) = intake u := by simp [formVec, intake_foldl (intake_noteDamage im.feature)]
  refine ⟨hsame ▸ h, ?_⟩
  simp only [formVec, bufMark_feat, modFeat_feat]
  exact ⟨_, _, rfl, (length_featFold _ _ _ _ _).trans (Nat.zero_add _)⟩

theorem takesUp_settled (old : State) (h : TakesUp s t im v queue lastEp) : TakesUp s (settled old t) im v queue lastEp := by
  have hfeat := offSlots_settled old t
  have hintake : intake (settled old t) = intake t := intake_of_surround (surround_settled old t) hfeat
  exact ⟨by rw [hintake]; exact h.intake, by rw [cur_of_offSlots hfeat]; exact h.formed⟩

/-- What a take-up never touches. -/
theorem TakesUp.rest (h : TakesUp s t im v queue lastEp) : t.cap = s.cap ∧ t.time = s.time ∧ t.red = s.red ∧ t.sealing = s.sealing ∧ t.vrd = s.vrd ∧
    t.ilk = s.ilk ∧ t.bus = s.bus ∧ t.rw = s.rw := by
  obtain ⟨due, hintake⟩ := h.intake
  have haround := congrArg Intake.around hintake
  exact ⟨congrArg Surround.cap haround, congrArg Surround.time haround, congrArg Surround.red haround, congrArg Surround.sealing haround,
    congrArg Surround.vrd haround, congrArg Surround.ilk haround, congrArg Surround.bus haround, congrArg Surround.rw haround⟩

theorem TakesUp.queue_eq (h : TakesUp s t im v queue lastEp) : t.feat.queue = queue :=
  let ⟨_, hintake⟩ := h.intake
  congrArg Intake.queue hintake

theorem TakesUp.lastEp_eq (h : TakesUp s t im v queue lastEp) : t.feat.lastEp = lastEp :=
  let ⟨_, hintake⟩ := h.intake
  congrArg Intake.lastEp hintake

/-! What a sample is taken up from -/

@[simp] theorem intake_reclaimSlot (s : State) : intake (reclaimSlot s) = intake s := by
  unfold reclaimSlot
  split <;> simp

@[simp] theorem intake_carryClass (old new : FeatureSec) (s : State) (cls : Nat) : intake (carryClass old new s cls) = intake s := by simp [carryClass]

theorem intake_setDue (s : State) (due : List Nat) : intake { s with img := { s.img with featDue := due } } = (intake s).withDue due := rfl

/-- A class that takes over is no longer due. -/
theorem intake_carryFeats (s : State) (cls e : Nat) : ∃ due, intake (carryFeats s cls e) = (intake s).withDue due := by
  unfold carryFeats
  split
  next old new _ _ =>
    split
    · exact ⟨_, (intake_setDue _ _).trans (congrArg (Intake.withDue · _) (intake_carryClass old.feature new.feature s cls))⟩
    · exact ⟨s.img.featDue, rfl⟩
  next => exact ⟨s.img.featDue, rfl⟩

/-- The class has taken over where that was due, and the samples that stay wait. -/
def queueLeft (s : State) (cls e : Nat) (queue : List FeatIn) : State := modFeat (carryFeats s cls e) (fun u => { u with queue := queue })

theorem intake_queueLeft (s : State) (cls e : Nat) (queue : List FeatIn) :
    ∃ due, intake (queueLeft s cls e queue) = Intake.withDue ⟨surround s, queue, s.feat.lastEp⟩ due := by
  obtain ⟨due, h⟩ := intake_carryFeats s cls e
  exact ⟨due, congrArg (fun k : Intake => { k with queue := queue }) h⟩

/-- With 8 slots held by epoch samples the oldest is reclaimed (R349). -/
def slotFreed (s : State) : State := if 8 ≤ epochSlotsHeld s then reclaimSlot s else s

theorem intake_slotFreed (s : State) : intake (slotFreed s) = intake s := by simp [slotFreed]

/-- The epoch sample of `e` has left the queue, there is room for its vector, and it is the last one taken up. -/
def epochTaken (s : State) (e : Nat) (restart : Bool) : State :=
  modFeat (slotFreed (queueLeft s 1 e (s.feat.queue.filter (fun q => q != FeatIn.epoch e)))) (fun u => { u with lastEp := some (e, restart) })

theorem intake_epochTaken (s : State) (e : Nat) (restart : Bool) : ∃ due, intake (epochTaken s e restart) =
    Intake.withDue ⟨surround s, s.feat.queue.filter (fun q => q != FeatIn.epoch e), some (e, restart)⟩ due := by
  obtain ⟨due, h⟩ := intake_queueLeft s 1 e (s.feat.queue.filter (fun q => q != FeatIn.epoch e))
  exact ⟨due, congrArg (fun k : Intake => { k with lastEp := some (e, restart) }) ((intake_slotFreed _).trans h)⟩

/-- The epoch of the oldest epoch sample that waits. -/
def oldestEpoch (queue : List FeatIn) : Option Nat := queue.findSome? (fun q => match q with
  | .epoch e => some e
  | .event _ _ _ => none)

/-- The oldest epoch sample is taken up (R325). -/
theorem takesUp_takeEpoch {smp : Sample} (hcur : s.feat.cur = none) (hq : quiet s = false) (hnext : oldestEpoch s.feat.queue = some e)
    (him : imageAt s e = some im) (hsmp : sampleOf s e = some smp) (poisoned : List Nat) : TakesUp s (takeEpoch s poisoned) im ⟨1, 0, e, tb0Ns s, [], []⟩
      (s.feat.queue.filter (fun q => q != FeatIn.epoch e)) (some (e, smp.restart)) := by
  have hfree : ¬ (s.feat.cur.isSome || quiet s) = true := by simp [hcur, hq]
  unfold takeEpoch
  dsimp only
  rw [if_neg hfree]
  split
  next hnone => cases hnone.symm.trans hnext
  next oldest hsome =>
    obtain rfl : oldest = e := Option.some.inj (hsome.symm.trans hnext)
    rw [him, hsmp]
    exact takesUp_formVec (intake_epochTaken s oldest smp.restart) im _ _ _

/-- The class of an event sample's vector. -/
def eventCls (x : EvSample) : Nat := match x with
  | .step _ => 2
  | .ue _ _ _ => 3

/-- With no epoch sample waiting and an event slot free, the event sample at the head of the queue is taken up (R325, R348). -/
theorem takesUp_takeEvent {k : Nat} {x : EvSample} {rest : List FeatIn} (hcur : s.feat.cur = none) (hq : quiet s = false)
    (hqueue : s.feat.queue = .event e k x :: rest) (hnone : ∀ y, FeatIn.epoch y ∉ s.feat.queue) (hroom : eventSlotsHeld s < eventSlots s)
    (him : imageAt s e = some im) (poisoned : List Nat) :
    TakesUp s (takeEvent s poisoned) im ⟨eventCls x, k, e, tb0Ns s, [], []⟩ rest s.feat.lastEp := by
  have hwaits : ∀ q ∈ s.feat.queue, ∃ e k x, q = .event e k x := fun q hmem => match q with
    | .epoch y => absurd hmem (hnone y)
    | .event e k x => ⟨e, k, x, rfl⟩
  unfold takeEvent
  dsimp only
  split
  next h =>
    simp only [Bool.or_eq_true, List.any_eq_true, decide_eq_true_eq] at h
    rcases h with ((h | ⟨q, hmem, hepoch⟩) | h) | h
    · rw [hcur] at h; cases h
    · obtain ⟨_, _, _, rfl⟩ := hwaits q hmem
      cases hepoch
    · omega
    · rw [hq] at h; cases h
  next =>
    rw [hqueue]
    dsimp only
    rw [him]
    exact takesUp_formVec (intake_queueLeft s (eventCls x) e rest) im _ _ _

/-! A vector that is complete -/

@[simp] theorem surround_slotJobs (s : State) (v : Vec) : surround (slotJobs s v) = surround s := by
  refine surround_foldl (fun a t => ?_) _ s
  dsimp only
  split <;> simp

@[simp] theorem offSlots_slotJobs (s : State) (v : Vec) : offSlots (slotJobs s v).feat = offSlots s.feat := by
  refine offSlots_foldl (fun a t => ?_) _ s
  dsimp only
  split <;> simp

/-- On its way from `s` to `t`, FEAT ends the formation of `v`, and FEAT_CODE reads it where it is an epoch sample's (R345, R356). -/
structure Completes (s t : State) (v : Vec) : Prop where
  around : surround t = surround s
  feat   : offSlots t.feat = { offSlots s.feat with cur := none, latest := if v.cls = 1 then some v else s.feat.latest }

/-- FEATURE_VECTOR_COMPLETE gives the vector its slot and creates its jobs, which take nothing of FEAT but slots. -/
theorem completes_vectorDone (hcur : s.feat.cur = some v) : Completes s (vectorDone s) v := by
  unfold vectorDone
  rw [hcur]
  dsimp only
  refine ⟨by simp, ?_⟩
  rw [sweepSlots, offSlots_mk, bufMark_feat, offSlots_slotJobs]
  rfl

theorem completes_settled (old : State) (h : Completes s t v) : Completes s (settled old t) v :=
  ⟨(surround_settled old t).trans h.around, (offSlots_settled old t).trans h.feat⟩

theorem Completes.formed (h : Completes s t v) : t.feat.cur = none ∧ t.feat.latest = (if v.cls = 1 then some v else s.feat.latest) ∧
    t.feat.queue = s.feat.queue :=
  ⟨(congrArg FeatU.cur h.feat :), (congrArg FeatU.latest h.feat :), (congrArg FeatU.queue h.feat :)⟩

/-- What the completion never touches. -/
theorem Completes.rest (h : Completes s t v) : t.cap = s.cap ∧ t.time = s.time ∧ t.img = s.img ∧ t.red = s.red ∧ t.sealing = s.sealing ∧
    t.vrd = s.vrd ∧ t.ilk = s.ilk ∧ t.bus = s.bus ∧ t.rw = s.rw :=
  ⟨congrArg Surround.cap h.around, congrArg Surround.time h.around, congrArg Surround.img h.around, congrArg Surround.red h.around,
    congrArg Surround.sealing h.around, congrArg Surround.vrd h.around, congrArg Surround.ilk h.around, congrArg Surround.bus h.around,
    congrArg Surround.rw h.around⟩

/-! The commands -/

theorem exec_epochSampleTakeUp (h : asleep s 2 = false) (poisoned : List Nat) :
    exec (.epochSampleTakeUp poisoned) s = .next (settled (touch s 2) (takeEpoch (touch s 2) poisoned)) := congrArg Host.Outcome.next (whenOn_of_awake h _)

theorem exec_eventSampleTakeUp (h : asleep s 2 = false) (poisoned : List Nat) :
    exec (.eventSampleTakeUp poisoned) s = .next (settled (touch s 2) (takeEvent (touch s 2) poisoned)) := congrArg Host.Outcome.next (whenOn_of_awake h _)

theorem exec_featureVectorComplete (h : asleep s 2 = false) :
    exec .featureVectorComplete s = .next (settled (touch s 2) (vectorDone (touch s 2))) := congrArg Host.Outcome.next (whenOn_of_awake h _)

/-- With a vector in formation or the block quiet no sample is taken up. -/
theorem takeEpoch_of_busy (h : s.feat.cur ≠ none ∨ quiet s = true) (poisoned : List Nat) : takeEpoch s poisoned = s := by
  have hbusy : (s.feat.cur.isSome || quiet s) = true := by simpa [Option.isSome_iff_ne_none] using h
  exact if_pos hbusy

theorem takeEvent_of_busy (h : s.feat.cur ≠ none ∨ quiet s = true) (poisoned : List Nat) : takeEvent s poisoned = s := by
  refine if_pos ?_
  rcases h with h | h
  · simp [Option.isSome_iff_ne_none.mpr h]
  · simp [h]

/-- Settles O31: a take-up forms the vector (`takesUp_takeEpoch`, `takesUp_takeEvent`), `featureVectorComplete` ends it (`completes_vectorDone`), and the
LEAP work that then goes on touches of FEAT the buffer's slots only (`offSlots_settled`). -/
theorem samplesBecomeCodeVectors : Obligations.SamplesBecomeCodeVectors := by
  refine ⟨fun s p e im smp h2 hcur hq hnext him hsmp => ?_, fun s p e k x rest im h2 hcur hq hqueue hnone hroom him => ?_, fun s v h2 hcur => ?_,
    fun s p h2 h => ?_⟩
  · have htaken := takesUp_settled (touch s 2) (takesUp_takeEpoch (s := touch s 2) hcur hq hnext him hsmp p)
    obtain ⟨codes, poison, hformed, hlen⟩ := htaken.formed
    exact ⟨_, exec_epochSampleTakeUp h2 p, ⟨_, hformed, rfl, rfl, hlen⟩, htaken.queue_eq, htaken.lastEp_eq, htaken.rest⟩
  · have htaken := takesUp_settled (touch s 2) (takesUp_takeEvent (s := touch s 2) hcur hq hqueue hnone hroom him p)
    obtain ⟨codes, poison, hformed, hlen⟩ := htaken.formed
    exact ⟨_, exec_eventSampleTakeUp h2 p, ⟨_, hformed, rfl, rfl, rfl, hlen⟩, htaken.queue_eq, htaken.rest⟩
  · have hdone := completes_settled (touch s 2) (completes_vectorDone (s := touch s 2) hcur)
    obtain ⟨hnone, hlatest, hqueue⟩ := hdone.formed
    exact ⟨_, exec_featureVectorComplete h2, hnone, hlatest, hqueue, hdone.rest⟩
  · have h' : (touch s 2).feat.cur ≠ none ∨ quiet (touch s 2) = true := h
    rw [exec_epochSampleTakeUp h2, exec_eventSampleTakeUp h2, takeEpoch_of_busy h', takeEvent_of_busy h']
    exact ⟨rfl, rfl⟩

end Sys2Proof.Machine
end

section
/-!
LEAP's state: a job under its number, what the accounts of leaps change (R422, R423), what a job's end leaves (R388 to R391), and the skipping of retired
trees (R378, R382).
-/
namespace Sys2Proof.Machine

variable {s t u : State} {j : Job} {c : Copy} {st : Strand} {f : Job → Job} {n m status : Nat} {y : List Nat}

/-! A job under its number -/

theorem jid_of_jobAt (h : jobAt s n = some j) : j.jid = n := by simpa using List.find?_some h

theorem mem_of_jobAt (h : jobAt s n = some j) : j ∈ s.leap.jobs := List.mem_of_find?_eq_some h

theorem jobAt_congr (h : t.leap.jobs = s.leap.jobs) (n : Nat) : jobAt t n = jobAt s n := by rw [jobAt, h, ← jobAt]

/-- A change that keeps the numbers changes the job of number `m` alone. -/
theorem jobAt_modJob (hf : ∀ x, (f x).jid = x.jid) (s : State) (n m : Nat) :
    jobAt (modJob s m f) n = (jobAt s n).map (fun x => if x.jid == m then f x else x) := by
  have hjid : ((fun x : Job => x.jid == n) ∘ fun x => if x.jid == m then f x else x) = fun x => x.jid == n := by
    funext x
    by_cases h : x.jid = m <;> simp [h, hf]
  simp only [jobAt, modJob, modLeap_leap, List.find?_map, hjid]

theorem jobAt_modJob_self (hf : ∀ x, (f x).jid = x.jid) (h : jobAt s n = some j) : jobAt (modJob s n f) n = some (f j) := by
  simp [jobAt_modJob hf, h, jid_of_jobAt h]

theorem jobAt_modJob_ne (hf : ∀ x, (f x).jid = x.jid) (h : n ≠ m) : jobAt (modJob s m f) n = jobAt s n := by
  rw [jobAt_modJob hf]
  cases hj : jobAt s n with
  | none => rfl
  | some j => simp [jid_of_jobAt hj, h]

/-! Accounts -/

/-- What the accounting of leaps changes: the accounts of tiers and views, and the views' virtual times. -/
def Accounts (s t : State) : Prop :=
  ∃ acct vt views, t = { s with leap := { s.leap with acct := acct, vt := vt }, host := { s.host with views := views } }

theorem accounts_refl : Accounts s s := ⟨_, _, _, rfl⟩

theorem accounts_trans (h : Accounts s t) (k : Accounts t u) : Accounts s u := by
  obtain ⟨_, _, _, rfl⟩ := h
  obtain ⟨_, _, _, rfl⟩ := k
  exact ⟨_, _, _, rfl⟩

theorem accounts_acctAdd (sel n : Nat) : Accounts s (acctAdd s sel n) := ⟨_, _, _, rfl⟩

theorem accounts_chargeBack (j : Job) (w a : Nat) : Accounts s (chargeBack s j w a) := by
  unfold chargeBack
  split
  · exact ⟨_, _, _, rfl⟩
  · exact accounts_refl

theorem accounts_closeStrand (j : Job) (k : Nat) (st : Strand) : Accounts s (closeStrand s j k st) := by
  have hadd : Accounts s (if st.st = 1 then acctAdd s (jobAcct j) st.leaps else s) := by
    split
    · exact accounts_acctAdd _ _
    · exact accounts_refl
  unfold closeStrand
  dsimp only
  split
  · exact accounts_trans hadd (accounts_chargeBack _ _ _)
  · exact hadd

theorem accounts_settleStrand (j : Job) (k : Nat) : Accounts s (settleStrand s j k) := by
  unfold settleStrand
  split
  · exact accounts_refl
  · exact accounts_trans (accounts_acctAdd _ _) (accounts_chargeBack _ _ _)

theorem Accounts.jobs (h : Accounts s t) : t.leap.jobs = s.leap.jobs := by
  obtain ⟨_, _, _, rfl⟩ := h
  rfl

/-- The strands of a job that ends leave their accounts (R423). -/
def closeStrands (s : State) (j : Job) : State := j.strands.zipIdx.foldl (fun a p => closeStrand a j p.2 p.1) s

theorem accounts_foldl_closeStrand (j : Job) (l : List (Strand × Nat)) (s : State) : Accounts s (l.foldl (fun a p => closeStrand a j p.2 p.1) s) := by
  induction l generalizing s with
  | nil => exact accounts_refl
  | cons p r ih => exact accounts_trans (accounts_closeStrand j p.2 p.1) (ih _)

theorem accounts_closeStrands (j : Job) : Accounts s (closeStrands s j) := accounts_foldl_closeStrand j _ s

/-- A complete strand has been accounted already. -/
theorem closeStrand_of_complete (h : st.st = 2) (s : State) (j : Job) (k : Nat) : closeStrand s j k st = s := by
  simp [closeStrand, h]

theorem closeStrands_of_complete (h : ∀ st ∈ j.strands, st.st = 2) (s : State) : closeStrands s j = s := by
  suffices hl : ∀ l : List (Strand × Nat), (∀ p ∈ l, p.1.st = 2) → l.foldl (fun a p => closeStrand a j p.2 p.1) s = s from
    hl _ fun p hp => h p.1 (List.fst_mem_of_mem_zipIdx hp)
  intro l hl
  induction l with
  | nil => rfl
  | cons p r ih =>
    rw [List.foldl_cons, closeStrand_of_complete (hl p List.mem_cons_self)]
    exact ih fun q hq => hl q (List.mem_cons_of_mem _ hq)

/-! A job's end -/

/-- A job's end counts where the job failed or was discarded (R389). -/
def countEnd (s : State) (status : Nat) : State := if status = 1 then rcInc s .leapFailed else if status = 0 then s else rcInc s .leapDiscard

@[simp] theorem countEnd_leap (s : State) (status : Nat) : (countEnd s status).leap = s.leap := by
  unfold countEnd
  repeat' split
  all_goals simp

/-- A host-issued job stays with its result; a job of the epoch table leaves the list, an epoch sample's outputs are kept (R388, R390), and the recorder
notes its time (R519). -/
def giveResult (s : State) (j : Job) (time status : Nat) (y : List Nat) : State :=
  if j.host then modJob s j.jid (fun x => { x with status := some status, y := y })
  else
    let t := modLeap s (fun l => { l with jobs := l.jobs.filter (fun x => x.jid != j.jid) })
    modTally (if j.vec.cls = 1 then keepScore t ⟨j.model, j.vec.epoch, status, y⟩ else t) (fun a => { a with leap := histoAdd a.leap time })

theorem endJob_of_none (h : jobAt s n = none) : endJob s n status y = s := by
  unfold endJob
  rw [h]

theorem endJob_of_ended (h : jobAt s n = some j) (hlive : jobLive j = false) : endJob s n status y = s := by
  unfold endJob
  rw [h]
  exact if_pos (by rw [hlive]; rfl)

theorem endJob_of_live (h : jobAt s n = some j) (hlive : jobLive j = true) :
    endJob s n status y = readerJob (giveResult (countEnd (closeStrands s j) status) j (leapTime s j) status y) n := by
  have hgoes : ¬ (!jobLive j) = true := by simp [hlive]
  obtain rfl := jid_of_jobAt h
  unfold endJob
  rw [h]
  exact if_neg hgoes

@[simp] theorem readerJob_leap (s : State) (n : Nat) : (readerJob s n).leap = s.leap := rfl

/-- The list of jobs after a live job's end. -/
def jobsAfter (l : List Job) (j : Job) (status : Nat) (y : List Nat) : List Job :=
  if j.host then l.map (fun x => if x.jid == j.jid then { x with status := some status, y := y } else x) else l.filter (fun x => x.jid != j.jid)

theorem jobs_giveResult (s : State) (j : Job) (time status : Nat) (y : List Nat) :
    (giveResult s j time status y).leap.jobs = jobsAfter s.leap.jobs j status y := by
  unfold giveResult jobsAfter
  split
  · rfl
  · dsimp only
    split <;> rfl

theorem jobs_endJob (h : jobAt s n = some j) (hlive : jobLive j = true) :
    (endJob s n status y).leap.jobs = jobsAfter s.leap.jobs j status y := by
  rw [endJob_of_live h hlive, readerJob_leap, jobs_giveResult, countEnd_leap, (accounts_closeStrands j).jobs]

/-! Retired trees -/

/-- A tree that is in service, or a pad already under way, is not skipped. -/
theorem skipRetired_of_stays {r : Tree} (htree : c.trees[st.tree]? = some r) (h : r.retired = false ∨ st.pad.isSome) (k : Nat) :
    skipRetired c (k + 1) st = st := by
  have hstay : ¬ (r.retired && st.pad.isNone) = true := by
    rcases h with h | h
    · simp [h]
    · cases hp : st.pad <;> simp [hp] at h ⊢
  simp only [skipRetired, htree]
  exact if_neg hstay

/-- Skipping retired trees leaves the strand in its context and attempt; it may complete the strand. -/
theorem skipRetired_keeps (c : Copy) (k : Nat) (st : Strand) : ((skipRetired c k st).st = st.st ∨ (skipRetired c k st).st = 2) ∧
    (skipRetired c k st).lane = st.lane ∧ (skipRetired c k st).ctx = st.ctx ∧ (skipRetired c k st).attempt = st.attempt := by
  induction k generalizing st with
  | zero => exact ⟨.inl rfl, rfl, rfl, rfl⟩
  | succ k ih =>
    unfold skipRetired
    split
    · exact ⟨.inr rfl, rfl, rfl, rfl⟩
    · split
      · exact ih _
      · exact ⟨.inl rfl, rfl, rfl, rfl⟩

end Sys2Proof.Machine
end

section
/-!
Dispatch (R366, R367, R421, R422): what the entry of a strand into a context leaves, and which strand a free context takes.
-/
namespace Sys2Proof.Machine

variable {s t u : State} {j : Job} {lane ctx k n : Nat} {reload : Bool}

/-- What dispatch changes: LEAP and the views' accounts. -/
def DispatchFrame (s t : State) : Prop := ∃ leap host, t = { s with leap := leap, host := host }

theorem dispatchFrame_refl : DispatchFrame s s := ⟨_, _, rfl⟩

theorem dispatchFrame_trans (h : DispatchFrame s t) (k : DispatchFrame t u) : DispatchFrame s u := by
  obtain ⟨_, _, rfl⟩ := h
  obtain ⟨_, _, rfl⟩ := k
  exact ⟨_, _, rfl⟩

theorem dispatchFrame_modLeap (f : LeapU → LeapU) : DispatchFrame s (modLeap s f) := ⟨_, _, rfl⟩

theorem dispatchFrame_modJob (n : Nat) (f : Job → Job) : DispatchFrame s (modJob s n f) := ⟨_, _, rfl⟩

theorem Accounts.dispatchFrame (h : Accounts s t) : DispatchFrame s t := by
  obtain ⟨_, _, _, rfl⟩ := h
  exact ⟨_, _, rfl⟩

/-! A strand enters a context -/

/-- The job's model counts as used where the job starts. -/
def useNoted (s : State) (j : Job) : State :=
  if j.started then s
  else modModel (modLeap s (fun l => { l with useSeq := l.useSeq + 1 })) j.model (fun m => { m with used := s.leap.useSeq + 1 })

/-- The job has started, and its strand is in the context, whose copy of the sample's codes is there. -/
def strandEntered (s : State) (j : Job) (k lane ctx : Nat) (reload : Bool) : State :=
  modJob (codeCopy (useNoted s j) lane ctx j.vec reload) j.jid
    (fun x => { x with started := true, strands := x.strands.modify k (beginAttempt (copyAt s j.cid) k lane ctx) })

theorem dispatchFrame_useNoted (j : Job) : DispatchFrame s (useNoted s j) := by
  unfold useNoted
  split
  · exact dispatchFrame_refl
  · exact dispatchFrame_trans (dispatchFrame_modLeap _) (dispatchFrame_modLeap _)

theorem dispatchFrame_codeCopy (lane ctx : Nat) (v : Vec) (reload : Bool) : DispatchFrame s (codeCopy s lane ctx v reload) :=
  ⟨_, _, rfl⟩

theorem dispatchFrame_strandEntered : DispatchFrame s (strandEntered s j k lane ctx reload) :=
  dispatchFrame_trans (dispatchFrame_trans (dispatchFrame_useNoted j) (dispatchFrame_codeCopy _ _ _ _)) (dispatchFrame_modJob _ _)

/-- A strand without a tree in service is accounted at once. -/
theorem placeStrand_cases (s : State) (j : Job) (k lane ctx : Nat) (reload : Bool) :
    placeStrand s j k lane ctx reload = strandEntered s j k lane ctx reload ∨
    placeStrand s j k lane ctx reload = settleStrand (strandEntered s j k lane ctx reload) j k := by
  have h : placeStrand s j k lane ctx reload =
      if ((jobAt (strandEntered s j k lane ctx reload) j.jid).bind (fun x => x.strands[k]?)).any (fun t => t.st == 2)
      then settleStrand (strandEntered s j k lane ctx reload) j k else strandEntered s j k lane ctx reload := rfl
  rw [h]
  split
  · exact .inr rfl
  · exact .inl rfl

theorem accounts_placeStrand (s : State) (j : Job) (k lane ctx : Nat) (reload : Bool) :
    Accounts (strandEntered s j k lane ctx reload) (placeStrand s j k lane ctx reload) := by
  rcases placeStrand_cases s j k lane ctx reload with h | h
  · rw [h]
    exact accounts_refl
  · rw [h]
    exact accounts_settleStrand j k

theorem dispatchFrame_placeStrand : DispatchFrame s (placeStrand s j k lane ctx reload) :=
  dispatchFrame_trans dispatchFrame_strandEntered (accounts_placeStrand s j k lane ctx reload).dispatchFrame

theorem jobs_codeCopy_useNoted (v : Vec) : (codeCopy (useNoted s j) lane ctx v reload).leap.jobs = s.leap.jobs := by
  unfold useNoted
  split <;> rfl

theorem jobAt_placeStrand_self (h : jobAt s j.jid = some j) : jobAt (placeStrand s j k lane ctx reload) j.jid =
    some { j with started := true, strands := j.strands.modify k (beginAttempt (copyAt s j.cid) k lane ctx) } := by
  rw [jobAt_congr (accounts_placeStrand s j k lane ctx reload).jobs]
  exact jobAt_modJob_self (fun _ => rfl) ((jobAt_congr (jobs_codeCopy_useNoted j.vec) _).trans h)

theorem jobAt_placeStrand_ne (h : n ≠ j.jid) : jobAt (placeStrand s j k lane ctx reload) n = jobAt s n := by
  rw [jobAt_congr (accounts_placeStrand s j k lane ctx reload).jobs]
  rw [strandEntered, jobAt_modJob_ne ?_ h]
  · exact jobAt_congr (jobs_codeCopy_useNoted j.vec) n
  · exact fun _ => rfl

/-- A new attempt runs in its context, or is complete where all its trees are retired. -/
theorem beginAttempt_places (c : Copy) (k lane ctx : Nat) (st : Strand) :
    ((beginAttempt c k lane ctx st).st = 1 ∨ (beginAttempt c k lane ctx st).st = 2) ∧ (beginAttempt c k lane ctx st).lane = lane ∧
    (beginAttempt c k lane ctx st).ctx = ctx ∧ (beginAttempt c k lane ctx st).attempt = st.attempt :=
  skipRetired_keeps c 513 _

/-! Which strand a context takes -/

/-- Nothing enters: the lane is out of service, the context is past 7 or in use, or the block is quiet. -/
theorem dispatch_of_closed (h : laneIn s lane = false ∨ 8 ≤ ctx ∨ contextBusy s lane ctx = true ∨ quiet s = true) :
    dispatch s lane ctx = touch s 3 := by
  have hclosed : (!laneIn s lane || decide (8 ≤ ctx) || contextBusy s lane ctx || quiet s) = true := by
    rcases h with h | h | h | h <;> simp [h]
  exact if_pos hclosed

/-- With no strand waiting to restart the oldest RADIO job's first undispatched strand enters (R421). -/
theorem dispatch_of_radio (hlane : laneIn s lane = true) (hctx : ctx < 8) (hfree : contextBusy s lane ctx = false) (hq : quiet s = false)
    (hnone : restartOn s lane = none) (hradio : tierJob s 0 = some (j, k)) : dispatch s lane ctx = placeStrand (touch s 3) j k lane ctx false := by
  have hopen : ¬ (!laneIn s lane || decide (8 ≤ ctx) || contextBusy s lane ctx || quiet s) = true := by simp [hlane, hfree, hq, hctx]
  have hnone' : restartOn (touch s 3) lane = none := hnone
  have hradio' : tierJob (touch s 3) 0 = some (j, k) := hradio
  unfold dispatch
  dsimp only
  refine (if_neg hopen).trans ?_
  rw [hnone', hradio']
  rfl

theorem dispatchFrame_dispatch (s : State) (lane ctx : Nat) : DispatchFrame (touch s 3) (dispatch s lane ctx) := by
  unfold dispatch
  dsimp only
  split
  · exact dispatchFrame_refl
  · split
    · -- a restart
      exact dispatchFrame_placeStrand
    · split
      · -- a RADIO or FLEET strand
        exact dispatchFrame_placeStrand
      · -- a tenant strand, where the context is not kept free of them
        split
        · exact dispatchFrame_refl
        · split
          · exact dispatchFrame_refl
          · split
            · exact dispatchFrame_trans (dispatchFrame_modLeap _) dispatchFrame_placeStrand
            · exact dispatchFrame_refl

/-! The command -/

theorem exec_strandDispatch (h : asleep s 3 = false) (lane ctx : Nat) :
    exec (.strandDispatch lane ctx) s = .next (dispatch (touch s 3) lane ctx) := congrArg Host.Outcome.next (whenOn_of_awake h _)

theorem exec_strandDispatch_of_asleep (h : asleep s 3 = true) (lane ctx : Nat) :
    exec (.strandDispatch lane ctx) s = .next (touch s 3) := congrArg Host.Outcome.next (whenOn_of_asleep h _)

theorem exec_strandDispatch_of_closed (h : laneIn s lane = false ∨ 8 ≤ ctx ∨ contextBusy s lane ctx = true ∨ quiet s = true) :
    exec (.strandDispatch lane ctx) s = .next (touch s 3) := by
  cases hsleep : asleep s 3 with
  | true => exact exec_strandDispatch_of_asleep hsleep lane ctx
  | false => rw [exec_strandDispatch hsleep, dispatch_of_closed (s := touch s 3) h, touch_touch]

theorem exec_strandDispatch_frame (s : State) (lane ctx : Nat) :
    ∃ t, exec (.strandDispatch lane ctx) s = .next t ∧ t = { s with pow := t.pow, leap := t.leap, host := t.host } := by
  cases hsleep : asleep s 3 with
  | true => exact ⟨_, exec_strandDispatch_of_asleep hsleep lane ctx, rfl⟩
  | false =>
    refine ⟨_, exec_strandDispatch hsleep lane ctx, ?_⟩
    obtain ⟨leap, host, h⟩ := dispatchFrame_dispatch (touch s 3) lane ctx
    rw [h]
    rfl

/-- Settles O34: the strand that R421 names enters the context (`dispatch_of_radio`), where its attempt begins (`beginAttempt_places`) and only its job
changes (`jobAt_placeStrand_ne`). -/
theorem strandsEnterFreeContexts : Obligations.StrandsEnterFreeContexts := by
  refine ⟨fun s lane ctx k j st hlane hctx hfree hq hawake hnone hradio hjob hst => ?_, fun s lane ctx h => exec_strandDispatch_of_closed h,
    exec_strandDispatch_frame⟩
  have hdone : exec (.strandDispatch lane ctx) s = .next (placeStrand (touch s 3) j k lane ctx false) := by
    rw [exec_strandDispatch hawake, dispatch_of_radio (s := touch s 3) hlane hctx hfree hq hnone hradio, touch_touch]
  obtain ⟨hrun, hat, hin, hattempt⟩ := beginAttempt_places (copyAt (touch s 3) j.cid) k lane ctx st
  refine ⟨_, _, _, hdone, jobAt_placeStrand_self (s := touch s 3) hjob, rfl, ?_, hrun, hat, hin, hattempt, fun n hn => jobAt_placeStrand_ne hn, ?_⟩
  · simp [hst]
  · obtain ⟨t, ht, hframe⟩ := exec_strandDispatch_frame s lane ctx
    obtain rfl : placeStrand (touch s 3) j k lane ctx false = t := Host.Outcome.next.inj (hdone.symm.trans ht)
    exact hframe

end Sys2Proof.Machine
end

section
/-!
The end of a job (R382 to R390): what is left of the list of jobs, the newest score of a model, and what completion changes.
-/
namespace Sys2Proof.Machine

variable {s t u : State} {j : Job} {r : Score} {n m status : Nat} {y : List Nat}

/-! The list of jobs -/

theorem jobAt_endJob_of_host (h : jobAt s n = some j) (hlive : jobLive j = true) (hhost : j.host = true) :
    jobAt (endJob s n status y) n = some { j with status := some status, y := y } := by
  obtain rfl := jid_of_jobAt h
  have hjobs : (endJob s j.jid status y).leap.jobs = (modJob s j.jid (fun x => { x with status := some status, y := y })).leap.jobs :=
    (jobs_endJob h hlive).trans (if_pos hhost)
  rw [jobAt_congr hjobs]
  exact jobAt_modJob_self (fun _ => rfl) h

theorem jobAt_endJob_of_table (h : jobAt s n = some j) (hlive : jobLive j = true) (hhost : j.host = false) :
    jobAt (endJob s n status y) n = none := by
  obtain rfl := jid_of_jobAt h
  have hjobs : (endJob s j.jid status y).leap.jobs = s.leap.jobs.filter (fun x => x.jid != j.jid) :=
    (jobs_endJob h hlive).trans (if_neg (by simp [hhost]))
  rw [jobAt, hjobs, List.find?_eq_none]
  intro x hx
  simpa using (List.mem_filter.mp hx).2

theorem jobAt_endJob_ne (h : jobAt s n = some j) (hlive : jobLive j = true) (hm : m ≠ n) : jobAt (endJob s n status y) m = jobAt s m := by
  obtain rfl := jid_of_jobAt h
  rw [jobAt, jobs_endJob h hlive]
  unfold jobsAfter
  split
  · exact jobAt_modJob_ne (s := s) (f := fun x => { x with status := some status, y := y }) (fun _ => rfl) hm
  · rw [List.find?_filter, jobAt]
    congr 1
    funext x
    by_cases hx : x.jid = m <;> simp [hx, hm]

/-! The newest score -/

theorem mem_foldl_insertBy {α : Type} {key : α → Nat} {d : α} (l acc : List α) :
    d ∈ l.foldl (fun a x => insertBy key x a) acc ↔ d ∈ acc ∨ d ∈ l := by
  induction l generalizing acc with
  | nil => simp
  | cons a r ih =>
    rw [List.foldl_cons, ih, mem_insertBy, List.mem_cons, or_comm (a := d = a), or_assoc]

theorem mem_sortBy {α : Type} {key : α → Nat} {d : α} {l : List α} : d ∈ sortBy key l ↔ d ∈ l := by
  simp [sortBy, mem_foldl_insertBy]

theorem pairwise_insertBy {α : Type} {key : α → Nat} (a : α) {l : List α} (h : l.Pairwise (fun b c => key b ≤ key c)) :
    (insertBy key a l).Pairwise (fun b c => key b ≤ key c) := by
  induction l with
  | nil => simp [insertBy]
  | cons b r ih =>
    obtain ⟨hb, hr⟩ := List.pairwise_cons.mp h
    unfold insertBy
    split
    next hlt =>
      refine List.pairwise_cons.mpr ⟨fun c hc => ?_, h⟩
      rcases List.mem_cons.mp hc with rfl | hc
      · exact Nat.le_of_lt hlt
      · exact Nat.le_trans (Nat.le_of_lt hlt) (hb c hc)
    next hge =>
      refine List.pairwise_cons.mpr ⟨fun c hc => ?_, ih hr⟩
      rcases mem_insertBy.mp hc with rfl | hc
      · exact Nat.le_of_not_lt hge
      · exact hb c hc

theorem pairwise_sortBy {α : Type} (key : α → Nat) (l : List α) : (sortBy key l).Pairwise (fun b c => key b ≤ key c) := by
  suffices h : ∀ acc : List α, acc.Pairwise (fun b c => key b ≤ key c) →
      (l.foldl (fun a x => insertBy key x a) acc).Pairwise (fun b c => key b ≤ key c) from h [] List.Pairwise.nil
  induction l with
  | nil => exact fun acc hacc => hacc
  | cons a r ih => exact fun acc hacc => ih _ (pairwise_insertBy a hacc)

/-- The greatest number is among the last of the sorted list. -/
theorem greatest_mem_take_reverse_sortBy {l : List Nat} (hx : x ∈ l) (hmax : ∀ a ∈ l, a ≤ x) (k : Nat) :
    x ∈ ((sortBy id l).reverse).take (k + 1) := by
  have hmem : x ∈ (sortBy id l).reverse := List.mem_reverse.mpr (mem_sortBy.mpr hx)
  have hdesc : ((sortBy id l).reverse).Pairwise (fun b c => c ≤ b) := List.pairwise_reverse.mpr (pairwise_sortBy id l)
  cases hrev : (sortBy id l).reverse with
  | nil => simp [hrev] at hmem
  | cons a r =>
    rw [hrev] at hmem hdesc
    have hle : a ≤ x := hmax a (mem_sortBy.mp (List.mem_reverse.mp (hrev ▸ List.mem_cons_self)))
    have hax : x = a := (List.mem_cons.mp hmem).elim id fun h => Nat.le_antisymm ((List.pairwise_cons.mp hdesc).1 x h) hle
    rw [hax, List.take_succ_cons]
    exact List.mem_cons_self

/-- A model's newest EPOCH sample is one of its recent ones. -/
theorem mem_recentSamples_of_newest (hr : r ∈ s.leap.scores) (hscores : ∀ q ∈ s.leap.scores, q.model = r.model → q.epoch ≤ r.epoch)
    (hjobs : ∀ i ∈ s.leap.jobs, i.host = false → i.model = r.model → i.vec.epoch ≤ r.epoch) : r.epoch ∈ recentSamples s r.model := by
  refine greatest_mem_take_reverse_sortBy ?_ (fun e he => ?_) 7
  · refine List.mem_eraseDups.mpr (List.mem_append_right _ (List.mem_map.mpr ⟨r, ?_, rfl⟩))
    simpa using hr
  · rcases List.mem_append.mp (List.mem_eraseDups.mp he) with hflying | hdone
    · obtain ⟨i, hi, rfl⟩ := List.mem_map.mp hflying
      simp only [List.mem_filter, Bool.and_eq_true, Bool.not_eq_true', beq_iff_eq] at hi
      obtain ⟨hmem, ⟨⟨_, hhost⟩, hmodel⟩, _⟩ := hi
      exact hjobs i hmem hhost hmodel
    · obtain ⟨q, hq, rfl⟩ := List.mem_map.mp hdone
      simp only [List.mem_filter, beq_iff_eq] at hq
      exact hscores q hq.1 hq.2

/-- A result as new as every other of its model, and as its jobs, is kept first. -/
theorem head?_keepScore (hscores : ∀ q ∈ s.leap.scores, q.model = r.model → q.epoch ≤ r.epoch)
    (hjobs : ∀ i ∈ s.leap.jobs, i.host = false → i.model = r.model → i.vec.epoch ≤ r.epoch) : (keepScore s r).leap.scores.head? = some r := by
  let others := s.leap.scores.filter (fun q => !(q.model == r.model && q.epoch == r.epoch))
  let added := modLeap s (fun l => { l with scores := r :: others })
  have hkept : r.epoch ∈ recentSamples added r.model := by
    refine mem_recentSamples_of_newest List.mem_cons_self (fun q hq hmodel => ?_) hjobs
    rcases List.mem_cons.mp hq with rfl | hq
    · exact Nat.le_refl _
    · exact hscores q (List.mem_filter.mp hq).1 hmodel
  have hscore : (keepScore s r).leap.scores = (r :: others).filter (fun q => q.model != r.model || (recentSamples added r.model).contains q.epoch) := rfl
  rw [hscore, List.filter_cons_of_pos (by simp [hkept])]
  rfl

/-! Completion -/

/-- Complete strands have been accounted already, and DONE counts nothing. -/
theorem endJob_of_complete (h : jobAt s n = some j) (hlive : jobLive j = true) (hdone : ∀ t ∈ j.strands, t.st = 2) :
    endJob s n 0 y = readerJob (giveResult s j (leapTime s j) 0 y) n := by
  rw [endJob_of_live h hlive, closeStrands_of_complete hdone]
  rfl

/-- What the end of a complete job changes: LEAP, the recorder's tally and the job's place at its sample's slot. -/
def ResultFrame (s t : State) : Prop :=
  ∃ leap tally slots, t = { s with leap := leap, erc := { s.erc with tally := tally }, feat := { s.feat with slots := slots } }

theorem resultFrame_trans (h : ResultFrame s t) (k : ResultFrame t u) : ResultFrame s u := by
  obtain ⟨_, _, _, rfl⟩ := h
  obtain ⟨_, _, _, rfl⟩ := k
  exact ⟨_, _, _, rfl⟩

theorem resultFrame_modLeap (f : LeapU → LeapU) : ResultFrame s (modLeap s f) := ⟨_, _, _, rfl⟩

theorem resultFrame_modTally (f : Tally → Tally) : ResultFrame s (modTally s f) := ⟨_, _, _, rfl⟩

theorem resultFrame_keepScore (r : Score) : ResultFrame s (keepScore s r) := by
  unfold keepScore
  exact resultFrame_trans (resultFrame_modLeap _) (resultFrame_modLeap _)

theorem resultFrame_giveResult (j : Job) (time : Nat) (y : List Nat) : ResultFrame s (giveResult s j time status y) := by
  unfold giveResult
  split
  · exact resultFrame_modLeap _
  · dsimp only
    refine resultFrame_trans ?_ (resultFrame_modTally _)
    split
    · exact resultFrame_trans (resultFrame_modLeap _) (resultFrame_keepScore _)
    · exact resultFrame_modLeap _

theorem resultFrame_readerJob (n : Nat) : ResultFrame s (readerJob s n) := ⟨_, _, _, rfl⟩

theorem ResultFrame.eq (h : ResultFrame s t) :
    t = { s with leap := t.leap, erc := { s.erc with tally := t.erc.tally }, feat := { s.feat with slots := t.feat.slots } } := by
  obtain ⟨_, _, _, rfl⟩ := h
  rfl

theorem ResultFrame.rc (h : ResultFrame s t) : t.rc = s.rc := by
  obtain ⟨_, _, _, rfl⟩ := h
  rfl

/-- The result of a complete epoch-table job is its model's newest score. -/
theorem head?_scores_completed (hhost : j.host = false) (hcls : j.vec.cls = 1) (time : Nat)
    (hscores : ∀ q ∈ s.leap.scores, q.model = j.model → q.epoch ≤ j.vec.epoch)
    (hjobs : ∀ i ∈ s.leap.jobs, i.host = false → i.model = j.model → i.vec.epoch ≤ j.vec.epoch) :
    (readerJob (giveResult s j time 0 y) n).leap.scores.head? = some ⟨j.model, j.vec.epoch, 0, y⟩ := by
  rw [readerJob_leap, giveResult, if_neg (by simp [hhost])]
  dsimp only
  rw [modTally_leap, if_pos hcls]
  exact head?_keepScore hscores fun i hi => hjobs i (List.mem_filter.mp hi).1

theorem completeJob_of_complete (h : jobAt s n = some j) (hlive : jobLive j = true) (hcid : j.cid ≠ 0) (hdone : j.strands.all (fun t => t.st == 2) = true)
    (hq : quiet s = false) : completeJob s n = endJob (touch s 3) n 0 (headOut (copyAt s j.cid) (accumulate (copyAt s j.cid) j)) := by
  have hends : (jobLive j && j.cid != 0 && j.strands.all (fun t => t.st == 2) && !quiet (touch s 3)) = true := by
    have hq' : quiet (touch s 3) = false := hq
    simp [hlive, hcid, hdone, hq']
  have h' : jobAt (touch s 3) n = some j := h
  unfold completeJob
  dsimp only
  rw [h']
  exact if_pos hends

/-- A job that is not there, not live, without a copy or not complete stays, as every job does in a quiet block. -/
theorem completeJob_of_not (h : jobAt s n = none ∨ quiet s = true ∨
    ∃ j, jobAt s n = some j ∧ (jobLive j = false ∨ j.cid = 0 ∨ j.strands.any (fun t => t.st != 2) = true)) : completeJob s n = touch s 3 := by
  cases hj : jobAt s n with
  | none =>
    have hj' : jobAt (touch s 3) n = none := hj
    unfold completeJob
    dsimp only
    rw [hj']
  | some j =>
    have hj' : jobAt (touch s 3) n = some j := hj
    have hstays : ¬ (jobLive j && j.cid != 0 && j.strands.all (fun t => t.st == 2) && !quiet s) = true := by
      rcases h with h | h | ⟨i, hi, h⟩
      · cases hj.symm.trans h
      · simp [h]
      · obtain rfl := Option.some.inj (hj.symm.trans hi)
        rcases h with h | h | h
        · simp [h]
        · simp [h]
        · have hall : j.strands.all (fun t => t.st == 2) = false := by
            rw [← Bool.not_eq_true', List.not_all_eq_any_not]
            exact h
          simp [hall]
    unfold completeJob
    dsimp only
    rw [hj']
    exact if_neg hstays

/-! The command -/

theorem exec_jobComplete (h : asleep s 3 = false) (n : Nat) : exec (.jobComplete n) s = .next (settled (touch s 3) (completeJob (touch s 3) n)) :=
  congrArg Host.Outcome.next (whenOn_of_awake h _)

/-- Settles O36: a complete job ends DONE (`completeJob_of_complete`); its end leaves the list of jobs as `jobAt_endJob_of_host` and
`jobAt_endJob_of_table` say, and the newest score in front (`head?_scores_completed`). -/
theorem jobsEndWithTheirOutputs : Obligations.JobsEndWithTheirOutputs := by
  refine ⟨fun s j hjob hlive hcid hdone hq hawake => ?_, fun s n hawake h => ?_⟩
  · intro y
    have hjob' : jobAt (touch s 3) j.jid = some j := hjob
    have hall : ∀ t ∈ j.strands, t.st = 2 := by simpa using hdone
    have hframe : ResultFrame (touch s 3) (readerJob (giveResult (touch s 3) j (leapTime (touch s 3) j) 0 y) j.jid) :=
      resultFrame_trans (resultFrame_giveResult j _ y) (resultFrame_readerJob _)
    have hnewest := head?_scores_completed (s := touch s 3) (j := j) (n := j.jid) (y := y) (time := leapTime (touch s 3) j)
    rw [← endJob_of_complete hjob' hlive hall] at hframe hnewest
    refine ⟨endJob (touch s 3) j.jid 0 y, ?_, fun hhost => ⟨jobAt_endJob_of_host hjob' hlive hhost, ?_⟩,
      fun hhost => ⟨jobAt_endJob_of_table hjob' hlive hhost, fun hcls hscores hjobs => hnewest hhost hcls hscores hjobs⟩,
      fun n hn => jobAt_endJob_ne hjob' hlive hn, hframe.eq⟩
    · rw [exec_jobComplete hawake, completeJob_of_complete (s := touch s 3) hjob hlive hcid hdone hq, touch_touch]
      rfl
    · rw [rcGet, hframe.rc]
      rfl
  · rw [exec_jobComplete hawake, completeJob_of_not (s := touch s 3) h, touch_touch]

end Sys2Proof.Machine
end

section
/-!
Scrub and injection (R374, R381, R394), and the lanes in service (R377, R391): what a lane's leaving service, and the end of every job, leave of the engine.
-/
namespace Sys2Proof.Machine

variable {s t : State} {a : Access} {j : Job} {i n lane status : Nat} {y : List Nat} {l : List Nat}

/-! Scrub -/

/-- An entry is counted visited, and a pass over the memory that began too long ago is late (R381). -/
def entryVisited (s : State) : State :=
  let last := decide (s.integ.cam ≤ s.leap.scrubN + 1)
  modLeap s (fun l => { l with
    scrubN := if last then 0 else l.scrubN + 1
    scrubAt := if last then tb2Ns s else l.scrubAt
    scrubLate := l.scrubLate || decide (s.leap.scrubAt + rwGet s .leapScrubPeriod * 1000000 < tb2Ns s) })

theorem scrubN_entryVisited (s : State) : (entryVisited s).leap.scrubN = if s.integ.cam ≤ s.leap.scrubN + 1 then 0 else s.leap.scrubN + 1 := by
  simp [entryVisited]

/-- A visit changes the scrub's place and time alone. -/
theorem entryVisited_eq (s : State) : ∃ n at0 late, entryVisited s = { s with leap := { s.leap with scrubN := n, scrubAt := at0, scrubLate := late } } :=
  ⟨_, _, _, rfl⟩

theorem scrubEntry_of_skipped (h : s.integ.cam ≤ i ∨ quiet s = true) (upset : Nat) : scrubEntry s i upset = touch s 3 := by
  have hskip : (decide (s.integ.cam ≤ i) || quiet s) = true := by simpa using h
  exact if_pos hskip

theorem scrubEntry_of_clean (hi : i < s.integ.cam) (hq : quiet s = false) : scrubEntry s i 0 = entryVisited (touch s 3) := by
  have hread : ¬ (decide (s.integ.cam ≤ i) || quiet s) = true := by simp [hi, hq]
  exact if_neg hread

/-- A corrected error is counted, and its entry waits for the rewrite (R374). -/
theorem scrubEntry_of_corrected (hi : i < s.integ.cam) (hq : quiet s = false) : scrubEntry s i 1 =
    modLeap (rcInc (entryVisited (touch s 3)) .leapScrubCe) (fun l => { l with fixes := l.fixes.filter (· != i) ++ [i] }) := by
  have hread : ¬ (decide (s.integ.cam ≤ i) || quiet s) = true := by simp [hi, hq]
  exact if_neg hread

theorem exec_leapScrubRead (h : asleep s 3 = false) (i upset : Nat) :
    exec (.leapScrubRead i upset) s = .next (settled (touch s 3) (scrubEntry (touch s 3) i upset)) := congrArg Host.Outcome.next (whenOn_of_awake h _)

theorem exec_leapScrubWriteback (h : asleep s 3 = false) (i : Nat) :
    exec (.leapScrubWriteback i) s = .next (scrubEntryBack (touch s 3) i) := congrArg Host.Outcome.next (whenOn_of_awake h _)

/-! The two register writes -/

theorem exec_leapInject (h : reaches s a 3) (d : Word) :
    exec (.leapInject a d) s = .next (answered a (leapInjectOp (touch s 3) (d.toNat / 65536 % 16) (d.toNat % 8))) :=
  congrArg Host.Outcome.next (putAt_reaches h (r := .cap .leapInj) (x := .cap .leapInj) rfl rfl)

theorem writeReg_laneEn (s : State) (a : Access) (d : Nat) :
    writeReg s a 0 (.cap .laneEn) d = pumpRuns (leapSettle s (laneEnable s (d % 65536))) := rfl

theorem exec_laneEnableWrite (h : reaches s a 3) (d : Word) :
    exec (.laneEnableWrite a d) s = .next (answered a (pumpRuns (leapSettle (touch s 3) (laneEnable (touch s 3) (d.toNat % 65536))))) := by
  rw [← writeReg_laneEn (touch s 3) a]
  exact congrArg Host.Outcome.next (putAt_reaches h rfl rfl)

/-! What the jobs' work never touches: the lanes in service and the resident models -/

/-- The lanes in service, the models and copies, and the associative memory. -/
structure Engine where
  laneEn : Nat
  models : List (Nat × Model)
  copies : List Copy
  ents   : List (Nat × Ent)

/-- `Engine` of a state. -/
def engine (s : State) : Engine := ⟨s.leap.laneEn, s.leap.models, s.leap.copies, s.leap.ents⟩

theorem engine_of_leap (h : t.leap = s.leap) : engine t = engine s := by rw [engine, h, ← engine]

theorem Accounts.engine_eq (h : Accounts s t) : engine t = engine s := by
  obtain ⟨_, _, _, rfl⟩ := h
  rfl

@[simp] theorem engine_keepScore (s : State) (r : Score) : engine (keepScore s r) = engine s := by
  unfold keepScore
  rfl

@[simp] theorem engine_giveResult (s : State) (j : Job) (time status : Nat) (y : List Nat) : engine (giveResult s j time status y) = engine s := by
  unfold giveResult
  split
  · rfl
  · dsimp only
    rw [engine_of_leap (modTally_leap _ _)]
    split
    · rw [engine_keepScore]
      rfl
    · rfl

@[simp] theorem engine_endJob (s : State) (n status : Nat) (y : List Nat) : engine (endJob s n status y) = engine s := by
  cases hj : jobAt s n with
  | none => rw [endJob_of_none hj]
  | some j =>
    cases hlive : jobLive j with
    | false => rw [endJob_of_ended hj hlive]
    | true =>
      rw [endJob_of_live hj hlive, engine_of_leap (readerJob_leap _ _), engine_giveResult, engine_of_leap (countEnd_leap _ _),
        (accounts_closeStrands j).engine_eq]

theorem engine_foldl {α : Type} {f : State → α → State} (h : ∀ t x, engine (f t x) = engine t) (l : List α) (s : State) :
    engine (l.foldl f s) = engine s := by
  induction l generalizing s with
  | nil => rfl
  | cons x r ih => rw [List.foldl_cons, ih, h]

@[simp] theorem engine_discardJobs (s : State) (status : Nat) (p : Job → Bool) : engine (discardJobs s status p) = engine s :=
  engine_foldl (fun t (j : Job) => engine_endJob t j.jid status []) _ s

/-! A lane leaves service -/

/-- The strands on a lane that is out of service already go to another lane, or end with their jobs. -/
theorem engine_dropLane (h : s.leap.laneEn.testBit lane = false) : engine (dropLane s lane) = engine s := by
  have hoff : (modLeap s (fun l => { l with laneEn := if l.laneEn.testBit lane then l.laneEn - 2 ^ lane else l.laneEn })) = s := by
    simp [modLeap, h]
  have hcharged (o : Option Nat) (k : Nat) : engine (if o.isSome then acctAdd s retryAcct k else s) = engine s := by
    split
    · exact (accounts_acctAdd _ _).engine_eq
    · rfl
  unfold dropLane
  rw [hoff]
  dsimp only
  split
  · rw [engine_discardJobs, hcharged]
  · exact hcharged _ _

theorem engine_foldl_dropLane (h : ∀ n ∈ l, s.leap.laneEn.testBit n = false) : engine (l.foldl dropLane s) = engine s := by
  induction l generalizing s with
  | nil => rfl
  | cons n r ih =>
    have hn : engine (dropLane s n) = engine s := engine_dropLane (h n List.mem_cons_self)
    have hlanes : (dropLane s n).leap.laneEn = s.leap.laneEn := congrArg Engine.laneEn hn
    rw [List.foldl_cons, ih fun k hk => by rw [hlanes]; exact h k (List.mem_cons_of_mem _ hk), hn]

/-- LEAP_LANE_EN sets the lanes in service and leaves the resident models (R391). -/
theorem engine_laneEnable (s : State) (v : Nat) : engine (laneEnable s v) = { engine s with laneEn := v % 2 ^ s.integ.lanes } := by
  unfold laneEnable
  dsimp only
  split
  · rw [engine_discardJobs]
    rfl
  · rw [engine_foldl_dropLane fun n hn => ?_]
    · rfl
    · simp only [List.mem_filter, Bool.and_eq_true, Bool.not_eq_true'] at hn
      exact hn.2.2

/-! The end of every job -/

/-- Job numbers are distinct, and every live job's is listed. -/
def LiveAmong (l : List Nat) (s : State) : Prop := (s.leap.jobs.map (·.jid)).Nodup ∧ ∀ j ∈ s.leap.jobs, jobLive j = true → j.jid ∈ l

/-- Elements of a list with distinct keys are known by them. -/
theorem eq_of_nodup_map {α β : Type} {f : α → β} {l : List α} {a b : α} (hd : (l.map f).Nodup) (ha : a ∈ l) (hb : b ∈ l) (h : f a = f b) : a = b := by
  induction l with
  | nil => cases ha
  | cons c r ih =>
    rw [List.map_cons, List.nodup_cons] at hd
    obtain ⟨hc, hr⟩ := hd
    rcases List.mem_cons.mp ha with rfl | har
    · rcases List.mem_cons.mp hb with rfl | hbr
      · rfl
      · exact absurd (List.mem_map.mpr ⟨b, hbr, h.symm⟩) hc
    · rcases List.mem_cons.mp hb with rfl | hbr
      · exact absurd (List.mem_map.mpr ⟨a, har, h⟩) hc
      · exact ih hr har hbr

theorem jobAt_of_mem (hd : (s.leap.jobs.map (·.jid)).Nodup) (h : j ∈ s.leap.jobs) : jobAt s j.jid = some j := by
  cases hj : jobAt s j.jid with
  | none => exact absurd (List.find?_eq_none.mp hj j h) (by simp)
  | some i => rw [eq_of_nodup_map hd (mem_of_jobAt hj) h (jid_of_jobAt hj)]

/-- A job that has been ended is live no more. -/
theorem liveAmong_endJob (h : LiveAmong (n :: l) s) : LiveAmong l (endJob s n status y) := by
  obtain ⟨hd, hlisted⟩ := h
  have hrest : ∀ x ∈ s.leap.jobs, jobLive x = true → x.jid ≠ n → x.jid ∈ l := fun x hx hxlive hne =>
    (List.mem_cons.mp (hlisted x hx hxlive)).resolve_left hne
  cases hj : jobAt s n with
  | none =>
    rw [endJob_of_none hj]
    refine ⟨hd, fun x hx hxlive => hrest x hx hxlive fun hxn => ?_⟩
    rw [← hxn, jobAt_of_mem hd hx] at hj
    cases hj
  | some j =>
    cases hlive : jobLive j with
    | false =>
      rw [endJob_of_ended hj hlive]
      refine ⟨hd, fun x hx hxlive => hrest x hx hxlive fun hxn => ?_⟩
      rw [← hxn, jobAt_of_mem hd hx] at hj
      cases hj
      cases hxlive.symm.trans hlive
    | true =>
      obtain rfl := jid_of_jobAt hj
      unfold LiveAmong
      rw [jobs_endJob hj hlive]
      unfold jobsAfter
      split
      · -- a host-issued job stays, with its STATUS
        constructor
        · have hjids : ((fun x : Job => x.jid) ∘ fun x => if x.jid == j.jid then { x with status := some status, y := y } else x) =
              fun x => x.jid := by
            funext x
            by_cases hx : x.jid = j.jid <;> simp [hx]
          rw [List.map_map, hjids]
          exact hd
        · intro x hx hxlive
          obtain ⟨x0, hx0, rfl⟩ := List.mem_map.mp hx
          by_cases hxn : x0.jid = j.jid
          · simp [hxn, jobLive] at hxlive
          · simp only [beq_iff_eq, hxn, if_false] at hxlive ⊢
            exact hrest x0 hx0 hxlive hxn
      · -- a job of the epoch table leaves the list
        refine ⟨hd.sublist (List.filter_sublist.map _), fun x hx hxlive => ?_⟩
        obtain ⟨hx0, hxn⟩ := List.mem_filter.mp hx
        exact hrest x hx0 hxlive (by simpa using hxn)

theorem liveAmong_foldl_endJob {js : List Job} (h : LiveAmong (js.map (·.jid)) s) : LiveAmong [] (js.foldl (fun a j => endJob a j.jid status []) s) := by
  induction js generalizing s with
  | nil => exact h
  | cons j r ih => exact ih (liveAmong_endJob h)

/-- With distinct job numbers no job outlives the end of all. -/
theorem not_live_discardJobs_all (hd : (s.leap.jobs.map (·.jid)).Nodup) : ∀ j ∈ (discardJobs s status (fun _ => true)).leap.jobs, jobLive j = false := by
  have hall : LiveAmong ((s.leap.jobs.filter (fun j => jobLive j && true)).map (·.jid)) s :=
    ⟨hd, fun j hj hlive => List.mem_map_of_mem (List.mem_filter.mpr ⟨hj, by simp [hlive]⟩)⟩
  intro j hj
  refine Bool.eq_false_iff.mpr fun hlive => ?_
  exact absurd ((liveAmong_foldl_endJob hall).2 j hj hlive) List.not_mem_nil

/-- With no lane left in service every job ends (R391). -/
theorem not_live_laneEnable {v : Nat} (hd : (s.leap.jobs.map (·.jid)).Nodup) (h : v % 2 ^ s.integ.lanes = 0) :
    ∀ j ∈ (laneEnable s v).leap.jobs, jobLive j = false := by
  unfold laneEnable
  dsimp only
  rw [if_pos h]
  exact not_live_discardJobs_all (s := modLeap s (fun l => { l with laneEn := v % 2 ^ s.integ.lanes })) hd

/-- Settles O37: a scrub read visits its entry (`entryVisited`), a write of LEAP_INJ is a `leapInjectOp`, and one of LEAP_LANE_EN sets the lanes alone
(`engine_laneEnable`), every job ending where it leaves none (`not_live_laneEnable`). -/
theorem leapScrubAndInjection : Obligations.LeapScrubAndInjection := by
  refine ⟨fun s i hi hq hawake => ⟨⟨_, exec_leapScrubRead hawake i 0, ?_⟩, ⟨_, exec_leapScrubRead hawake i 1, ?_⟩⟩, fun s i n hawake h => ?_,
    fun s i hawake => exec_leapScrubWriteback hawake i, fun s a d h => exec_leapInject h d, fun s a d h => ⟨_, exec_laneEnableWrite h d, ?_⟩⟩
  · rw [scrubEntry_of_clean (s := touch s 3) hi hq, touch_touch]
    refine ⟨scrubN_entryVisited (touch s 3), ?_⟩
    obtain ⟨_, _, _, hvisited⟩ := entryVisited_eq (touch s 3)
    rw [hvisited]
    rfl
  · rw [scrubEntry_of_corrected (s := touch s 3) hi hq, touch_touch]
    refine ⟨(rcGet_rcInc (s := entryVisited (touch s 3)) .leapScrubCe .leapScrubCe).trans (if_pos rfl), by simp, ?_⟩
    obtain ⟨_, _, _, hvisited⟩ := entryVisited_eq (touch s 3)
    rw [hvisited]
    rfl
  · rw [exec_leapScrubRead hawake, scrubEntry_of_skipped (s := touch s 3) h, touch_touch]
  · have hengine := engine_laneEnable (touch s 3) (d.toNat % 65536)
    exact ⟨congrArg Engine.laneEn hengine, congrArg Engine.copies hengine, congrArg Engine.models hengine, congrArg Engine.ents hengine,
      fun hd hnone => not_live_laneEnable (s := touch s 3) hd hnone⟩

end Sys2Proof.Machine
end

section
/-!
The leap (R360, R361, R368 to R374, R382): the issue of one lane's leap, the checks it passes, and what its entry's payload leaves of the strand.
-/
namespace Sys2Proof.Machine

variable {s t u : State} {x : LeapIssue} {j : Job} {st : Strand} {r : Tree} {e : Ent} {ctx lane k n : Nat}

/-! The strand in a context -/

theorem getElem?_of_findIdx {α : Type} {p : α → Bool} {l : List α} {a : α} (h : findIdx p l = some k) (ha : l[k]? = some a) : p a = true := by
  unfold findIdx at h
  dsimp only at h
  split at h
  next hlt =>
    obtain rfl := Option.some.inj h
    rw [List.getElem?_eq_getElem hlt] at ha
    rw [← Option.some.inj ha]
    exact List.findIdx_getElem
  next => cases h

/-- The strand in a context runs there. -/
theorem running_of_strandIn (h : strandIn s lane ctx = some (j, k, st)) : j.strands[k]? = some st ∧ st.st = 1 := by
  obtain ⟨i, _, hi⟩ := List.exists_of_findSome?_eq_some h
  split at hi
  · obtain ⟨k', hfind, hk⟩ := Option.bind_eq_some_iff.mp hi
    obtain ⟨t, ht, heq⟩ := Option.map_eq_some_iff.mp hk
    cases heq
    have hruns := getElem?_of_findIdx hfind ht
    simp only [Bool.and_eq_true, beq_iff_eq] at hruns
    exact ⟨ht, hruns.1.1⟩
  · cases hi

/-! The issue of one lane's leap (R368 to R370) -/

theorem contextBusy_of_pickCtx (h : pickCtx s lane n = some ctx) : ctx < 8 ∧ contextBusy s lane ctx = true := by
  unfold pickCtx at h
  have hready := List.find?_some h
  simp only [Bool.and_eq_true] at hready
  obtain ⟨d, _, rfl⟩ := List.mem_map.mp (List.mem_of_find?_eq_some h)
  exact ⟨Nat.mod_lt _ (by decide), hready.1⟩

theorem issuing_one (hlane : laneIn s x.lane = true) (hpick : pickCtx s x.lane n = some ctx) : issuing s [x] = [x] := by
  obtain ⟨hctx, hbusy⟩ := contextBusy_of_pickCtx hpick
  have hrun : (laneCtxs s x.lane).isEmpty = false := by
    rw [List.isEmpty_eq_false_iff_exists_mem]
    exact ⟨ctx, List.mem_filter.mpr ⟨List.mem_range.mpr hctx, hbusy⟩⟩
  simp [issuing, hlane, hrun]

/-- One leap contends with none. -/
theorem winners_one (s : State) (f : Flight) : winners s [f] = [f] := by
  unfold winners
  refine List.filter_eq_self.mpr fun g hg => ?_
  obtain rfl := List.mem_singleton.mp hg
  split
  · rfl
  next seg hseg => simp [hseg, grantOf, sortBy, insertBy]

/-- The lane has issued its context's leap in core cycle `n` (R369). -/
def leapIssued (s : State) (x : LeapIssue) (ctx n : Nat) : State :=
  let s1 := advanceCore s n
  let s2 := movePointers s1 [⟨x, ctx, searchSegment s1 ctx x⟩]
  setPipe s2 x.lane (pipeIssue n ctx false (pipeOf s2 x.lane))

/-- What the issue of a leap changes: time goes on to its cycle, the lane's S1 and the segments' pointers. -/
def Issues (s t : State) : Prop := ∃ ns pipe segPtr, s.time.c ≤ ns ∧
  t = { s with time := { s.time with c := ns }, leap := { s.leap with pipe := pipe, segPtr := segPtr } }

theorem issues_leapIssued (s : State) (x : LeapIssue) (ctx n : Nat) : Issues s (leapIssued s x ctx n) := ⟨_, _, _, Nat.le_max_left _ _, rfl⟩

theorem leapCycle_of_quiet (h : quiet s = true) (xs : List LeapIssue) : leapCycle s xs = touch s 3 := by
  have hstill : (quiet s || (issuing (touch s 3) xs).isEmpty) = true := by simp [h]
  exact if_pos hstill

/-- A cycle in which one lane leaps. -/
theorem leapCycle_one (hlane : laneIn s x.lane = true) (hq : quiet s = false) (hpick : pickCtx s x.lane (issueCycle s [x]) = some ctx) :
    leapCycle s [x] = leapOne (leapIssued (touch s 3) x ctx (issueCycle s [x])) ctx x := by
  have hlive : issuing (touch s 3) [x] = [x] := issuing_one (s := touch s 3) hlane hpick
  have hpick' : pickCtx (advanceCore (touch s 3) (issueCycle s [x])) x.lane (issueCycle s [x]) = some ctx := hpick
  have hgo : ¬ (quiet (touch s 3) || [x].isEmpty) = true := by
    have hq' : quiet (touch s 3) = false := hq
    simp [hq']
  have hcycle : issueCycle (touch s 3) [x] = issueCycle s [x] := rfl
  unfold leapCycle
  dsimp only
  rw [hlive, if_neg hgo, hcycle, List.filterMap_cons, hpick', List.filterMap_nil, Option.map_some, winners_one]
  simp [rcAdd, leapIssued]

/-! A leap that passes its checks -/

/-- The entries of the pad that a strand leaps to. -/
def padAt (s : State) (j : Job) (st : Strand) : List Ent :=
  padEnts (entAt s) (padOf (copyAt s j.cid) st).1 (padOf (copyAt s j.cid) st).2

/-- The strand of a context leaps on its own tree, and of the checks of R372 none fails: `e` alone matches. -/
structure LeapPasses (s : State) (x : LeapIssue) (ctx : Nat) (j : Job) (k : Nat) (st : Strand) (e : Ent) : Prop where
  upset  : x.upset = 0
  fixed  : x.fixed = []
  inject : lookupD s.leap.inj x.lane 0 = 0
  strand : strandIn s x.lane ctx = some (j, k, st)
  stays  : skipRetired (copyAt s j.cid) 513 st = st
  parity : parityFails (padAt s j st) (codeOfCtx s x.lane ctx j.vec) = false
  search : ∃ m, matchesOf (padAt s j st) (decisionVector (padAt s j st) (codeOfCtx s x.lane ctx j.vec).vec) = [m] ∧ (padAt s j st)[m]? = some e

/-- The strand with one leap more, and the poison it has read (R388). -/
def strandLeapt (s : State) (x : LeapIssue) (ctx : Nat) (j : Job) (st : Strand) : Strand :=
  { st with leaps := st.leaps + 1, poison := st.poison || readsPoison (padAt s j st) (codeOfCtx s x.lane ctx j.vec).vec }

/-- The leap has been counted for strand and job, and the lane's injection is spent. -/
def leapCounted (s : State) (x : LeapIssue) (j : Job) (k : Nat) (st : Strand) : State :=
  modJob (modLeap s (fun l => { l with inj := dropKey l.inj x.lane })) j.jid (fun y => { y with leaps := y.leaps + 1, strands := y.strands.set k st })

theorem reachTree_of_stays (h : skipRetired (copyAt s j.cid) 513 st = st) : reachTree s j k st = (s, st) := by
  unfold reachTree
  dsimp only
  rw [h]
  exact if_pos rfl

/-- Without a corrected word nothing waits for a rewrite. -/
theorem leapFixes_nil (s : State) (size base : Nat) : leapFixes s size base [] = s := by
  have hfixes : s.leap.fixes.filter (fun i => !([] : List Nat).contains i) ++ [] = s.leap.fixes :=
    (List.append_nil _).trans (List.filter_eq_self.mpr fun _ _ => rfl)
  exact congrArg (fun l => { s with leap := { s.leap with fixes := l } }) hfixes

theorem leapFails_one (m : Nat) : leapFails [m] (upsetKind 0) 0 false = 0 := by
  simp [leapFails, earlyFails, searchFails, lateFails, upsetKind]

theorem leapOne_of_passes (h : LeapPasses s x ctx j k st e) :
    leapOne s ctx x = leapPassed (leapCounted s x j k (strandLeapt s x ctx j st)) j k e (strandLeapt s x ctx j st) := by
  obtain ⟨hupset, hfixed, hinject, hstrand, hstays, hparity, m, hmatch, hentry⟩ := h
  have hruns : st.st ≠ 2 := by
    rw [(running_of_strandIn hstrand).2]
    decide
  unfold padAt at hparity hmatch hentry
  unfold leapOne
  rw [hstrand]
  dsimp only
  rw [reachTree_of_stays hstays]
  dsimp only
  rw [if_neg hruns, hupset, hfixed, hinject, hparity, hmatch, leapFixes_nil, leapFails_one, if_pos rfl, List.headD_cons, List.getD, hentry]
  rfl

/-! What the payload leaves of the strand (R368, R382) -/

/-- The job's strand is set. -/
def strandSet (s : State) (j : Job) (k : Nat) (st : Strand) : State := modJob s j.jid (fun y => { y with strands := y.strands.set k st })

/-- NEXT names the pad of the next leap. -/
theorem leapPassed_next (hruns : st.st = 1) (h : payKind e.payload = 0) :
    leapPassed s j k e st = strandSet s j k { st with pad := some (paySize e.payload, payValue e.payload % 2 ^ 18) } := by
  unfold leapPassed
  dsimp only
  rw [if_pos h]
  exact if_neg (by simp [hruns])

/-- A leaf's value joins its output's partial sum, and the strand stands at its next tree. -/
theorem leapPassed_leaf {next : Tree} (hruns : st.st = 1) (h : payKind e.payload ≠ 0) (htree : (copyAt s j.cid).trees[st.tree]? = some r)
    (hnext : (copyAt s j.cid).trees[st.tree + 8]? = some next) (hin : next.retired = false) :
    leapPassed s j k e st = strandSet s j k { st with
      pad := none, tree := st.tree + 8, parts := st.parts.modify r.out (fun v => fadd f32 v (payValue e.payload)) } := by
  unfold leapPassed
  dsimp only
  rw [if_neg h, htree, skipRetired_of_stays hnext (.inl hin)]
  exact if_neg (by simp [hruns])

/-- The issue of a leap leaves all that the leap itself reads. -/
theorem LeapPasses.of_issues (h : LeapPasses s x ctx j k st e) (hi : Issues s t) : LeapPasses t x ctx j k st e := by
  obtain ⟨_, _, _, _, rfl⟩ := hi
  obtain ⟨hupset, hfixed, hinject, hstrand, hstays, hparity, hsearch⟩ := h
  exact ⟨hupset, hfixed, hinject, hstrand, hstays, hparity, hsearch⟩

/-! What a leap that passes leaves -/

/-- What a leap that passes changes: time goes on to the issuing cycle, and LEAP. -/
def LeapFrame (s t : State) : Prop := ∃ ns leap, s.time.c ≤ ns ∧ t = { s with time := { s.time with c := ns }, leap := leap }

theorem LeapFrame.eq (h : LeapFrame s t) : s.time.c ≤ t.time.c ∧ t = { s with time := { s.time with c := t.time.c }, leap := t.leap } := by
  obtain ⟨_, _, hle, rfl⟩ := h
  exact ⟨hle, rfl⟩

theorem leapFrame_strandSet (h : Issues s u) (st t1 : Strand) : LeapFrame s (strandSet (leapCounted u x j k st) j k t1) := by
  obtain ⟨ns, _, _, hle, rfl⟩ := h
  exact ⟨ns, _, hle, rfl⟩

/-- The job has one leap more, and its strand stands as set. -/
theorem jobAt_strandSet (h : Issues s u) (hjob : jobAt s j.jid = some j) (hk : j.strands[k]? = some st) (t1 t2 : Strand) :
    ∃ j', jobAt (strandSet (leapCounted u x j k t1) j k t2) j.jid = some j' ∧ j'.leaps = j.leaps + 1 ∧ j'.strands[k]? = some t2 := by
  obtain ⟨_, _, _, _, rfl⟩ := h
  obtain ⟨hlt, _⟩ := List.getElem?_eq_some_iff.mp hk
  refine ⟨_, jobAt_modJob_self (fun _ => rfl) (jobAt_modJob_self (fun _ => rfl) hjob), rfl, ?_⟩
  simp [hlt]

/-- A lane's leap that passes. -/
theorem exec_leap_of_passes (hawake : asleep s 3 = false) (hlane : laneIn s x.lane = true) (hq : quiet s = false)
    (hpick : pickCtx s x.lane (issueCycle s [x]) = some ctx) (hpass : LeapPasses s x ctx j k st e) :
    ∃ u, Issues (touch s 3) u ∧ exec (.leap [x]) s = .next (settled (touch s 3)
      (leapPassed (leapCounted u x j k (strandLeapt u x ctx j st)) j k e (strandLeapt u x ctx j st))) := by
  have hissues := issues_leapIssued (touch s 3) x ctx (issueCycle s [x])
  obtain ⟨hupset, hfixed, hinject, hstrand, hstays, hparity, hsearch⟩ := hpass
  have hpass' : LeapPasses (touch s 3) x ctx j k st e := ⟨hupset, hfixed, hinject, hstrand, hstays, hparity, hsearch⟩
  have hcycle : leapCycle (touch s 3) [x] = leapOne (leapIssued (touch s 3) x ctx (issueCycle s [x])) ctx x := by
    rw [leapCycle_one (s := touch s 3) hlane hq hpick, touch_touch]
    rfl
  refine ⟨_, hissues, ?_⟩
  rw [← leapOne_of_passes (hpass'.of_issues hissues), ← hcycle]
  exact congrArg Host.Outcome.next (whenOn_of_awake hawake _)

/-- Where the payload sets the strand to `t2`, the leap leaves it so, with one leap more in its job. -/
theorem exec_leap_setsStrand (hawake : asleep s 3 = false) (hlane : laneIn s x.lane = true) (hq : quiet s = false)
    (hpick : pickCtx s x.lane (issueCycle s [x]) = some ctx) (hpass : LeapPasses s x ctx j k st e) (hjob : jobAt s j.jid = some j) :
    ∃ u, Issues (touch s 3) u ∧ ∀ t2, leapPassed (leapCounted u x j k (strandLeapt u x ctx j st)) j k e (strandLeapt u x ctx j st) =
        strandSet (leapCounted u x j k (strandLeapt u x ctx j st)) j k t2 →
      ∃ v j', exec (.leap [x]) s = .next (settled (touch s 3) v) ∧ jobAt v j.jid = some j' ∧ j'.leaps = j.leaps + 1 ∧ j'.strands[k]? = some t2 ∧
        LeapFrame (touch s 3) v := by
  obtain ⟨u, hissues, hexec⟩ := exec_leap_of_passes hawake hlane hq hpick hpass
  obtain ⟨hk, _⟩ := running_of_strandIn hpass.strand
  have hjob' : jobAt (touch s 3) j.jid = some j := hjob
  refine ⟨u, hissues, fun t2 hset => ?_⟩
  obtain ⟨j', hj', hleaps, hst⟩ := jobAt_strandSet (x := x) hissues hjob' hk (strandLeapt u x ctx j st) t2
  exact ⟨_, j', hset ▸ hexec, hj', hleaps, hst, leapFrame_strandSet hissues _ _⟩

/-! The command -/

theorem exec_leap_of_quiet (hq : quiet s = true) (hawake : asleep s 3 = false) (l : List LeapIssue) :
    exec (.leap l) s = .next (settled (touch s 3) (touch s 3)) := by
  have hcycle : leapCycle (touch s 3) l = touch s 3 := by rw [leapCycle_of_quiet (s := touch s 3) hq, touch_touch]
  exact congrArg Host.Outcome.next ((whenOn_of_awake hawake _).trans (congrArg (settled (touch s 3)) hcycle))

/-- Settles O35: one lane's leap contends with none (`leapCycle_one`) and passes its checks (`leapOne_of_passes`); its entry's payload then names the pad
(`leapPassed_next`) or is a leaf (`leapPassed_leaf`). -/
theorem aLeapFollowsTheMatchingEntry : Obligations.ALeapFollowsTheMatchingEntry := by
  refine ⟨fun s x ctx j k t0 r m e hlane hq hawake hupset hfixed hinject hpick hstrand hjob htree hstay hparity hmatch hentry hnext => ?_,
    fun s x ctx j k t0 m e r next hlane hq hawake hupset hfixed hinject hpick hstrand hjob htree hstay hnext hin hparity hmatch hentry hleaf => ?_,
    fun s l hq hawake => exec_leap_of_quiet hq hawake l⟩
  · have hpass : LeapPasses s x ctx j k t0 e :=
      ⟨hupset, hfixed, hinject, hstrand, skipRetired_of_stays htree hstay 512, hparity, m, hmatch, hentry⟩
    obtain ⟨_, hruns⟩ := running_of_strandIn hstrand
    obtain ⟨u, _, hset⟩ := exec_leap_setsStrand hawake hlane hq hpick hpass hjob
    obtain ⟨v, j', hexec, hj', hleaps, hst, hframe⟩ := hset _ (leapPassed_next hruns hnext)
    exact ⟨v, j', _, hexec, hj', hleaps, hst, rfl, rfl, rfl, rfl, rfl, hframe.eq⟩
  · have hpass : LeapPasses s x ctx j k t0 e :=
      ⟨hupset, hfixed, hinject, hstrand, skipRetired_of_stays htree hstay 512, hparity, m, hmatch, hentry⟩
    obtain ⟨_, hruns⟩ := running_of_strandIn hstrand
    obtain ⟨u, hissues, hset⟩ := exec_leap_setsStrand hawake hlane hq hpick hpass hjob
    have hcopy : copyAt (leapCounted u x j k (strandLeapt u x ctx j t0)) j.cid = copyAt s j.cid := by
      obtain ⟨_, _, _, _, rfl⟩ := hissues
      rfl
    obtain ⟨v, j', hexec, hj', hleaps, hst, hframe⟩ := hset _ (leapPassed_leaf hruns hleaf (hcopy ▸ htree) (hcopy ▸ hnext) hin)
    exact ⟨v, j', _, hexec, hj', hleaps, hst, rfl, rfl, rfl, rfl, rfl, hframe.eq⟩

end Sys2Proof.Machine
end

section
/-!
The hot set's state (R401 to R415): a model and a copy under their numbers, and what the end of jobs leaves of the rest of LEAP and of the counters.
-/
namespace Sys2Proof.Machine

variable {s t : State} {j : Job} {q : RcReg} {n cid status : Nat} {y : List Nat}

/-! A model and a copy under their numbers -/

theorem modelAt_congr (h : t.leap.models = s.leap.models) (n : Nat) : modelAt t n = modelAt s n := by rw [modelAt, h, ← modelAt]

@[simp] theorem modelAt_modModel_self (s : State) (n : Nat) (f : Model → Model) : modelAt (modModel s n f) n = f (modelAt s n) :=
  lookupD_modKey_self _ _ _ _

/-- What is done to a number's model counts alone. -/
theorem modModel_congr {f g : Model → Model} (h : f (modelAt s n) = g (modelAt s n)) : modModel s n f = modModel s n g := by
  have hset : f (lookupD s.leap.models n modelNone) = g (lookupD s.leap.models n modelNone) := h
  simp only [modModel, modLeap, modKey, hset]

theorem copyAt_congr (h : t.leap.copies = s.leap.copies) (cid : Nat) : copyAt t cid = copyAt s cid := by rw [copyAt, h, ← copyAt]

theorem copyAt_modModel (s : State) (n : Nat) (f : Model → Model) (cid : Nat) : copyAt (modModel s n f) cid = copyAt s cid :=
  copyAt_congr (by simp [modModel]) cid

/-- Of a listed number `copyAt` finds a copy. -/
theorem find?_copies_of_listed (h : s.leap.copies.any (fun c => c.cid == cid) = true) :
    s.leap.copies.find? (fun c => c.cid == cid) = some (copyAt s cid) ∧ (copyAt s cid).cid = cid := by
  obtain ⟨c, hc⟩ := Option.isSome_iff_exists.mp (List.find?_isSome.mpr (List.any_eq_true.mp h))
  have hcid : c.cid = cid := by simpa using List.find?_some hc
  simp [copyAt, hc, hcid]

/-- A listed copy changed, its number kept. -/
theorem copyAt_modCopy_self {f : Copy → Copy} (hf : ∀ c, (f c).cid = c.cid) (h : s.leap.copies.any (fun c => c.cid == cid) = true) :
    copyAt (modCopy s cid f) cid = f (copyAt s cid) := by
  have hkept : ((fun c : Copy => c.cid == cid) ∘ fun c => if c.cid == cid then f c else c) = fun c => c.cid == cid := by
    funext c
    by_cases hc : c.cid = cid <;> simp [hc, hf]
  obtain ⟨hfind, hcid⟩ := find?_copies_of_listed h
  rw [copyAt, modCopy, modLeap_leap, List.find?_map, hkept, hfind]
  exact if_pos (by simpa using hcid)

@[simp] theorem leap_ite (p : Prop) [Decidable p] (s t : State) : (if p then s else t).leap = if p then s.leap else t.leap :=
  apply_ite State.leap p s t

@[simp] theorem mmPump_leap (s : State) : (mmPump s).leap = s.leap := by simp [mmPump]

/-! The end of jobs: LEAP apart from them -/

/-- LEAP without its jobs, their results and their accounts. -/
def offJobs (l : LeapU) : LeapU := { l with jobs := [], vt := [], acct := [], scores := [] }

theorem models_of_offJobs (h : offJobs t.leap = offJobs s.leap) : t.leap.models = s.leap.models := by
  have hmodels := congrArg LeapU.models h
  exact hmodels

theorem copies_of_offJobs (h : offJobs t.leap = offJobs s.leap) : t.leap.copies = s.leap.copies := by
  have hcopies := congrArg LeapU.copies h
  exact hcopies

theorem loads_of_offJobs (h : offJobs t.leap = offJobs s.leap) : t.leap.loads = s.leap.loads := by
  have hloads := congrArg LeapU.loads h
  exact hloads

/-- The record of the latest refusal stands. -/
theorem refusal_of_offJobs (h : offJobs t.leap = offJobs s.leap) :
    t.leap.refCode = s.leap.refCode ∧ t.leap.refModel = s.leap.refModel ∧ t.leap.refBundle = s.leap.refBundle := by
  have hcode := congrArg LeapU.refCode h
  have hmodel := congrArg LeapU.refModel h
  have hbundle := congrArg LeapU.refBundle h
  exact ⟨hcode, hmodel, hbundle⟩

theorem Accounts.offJobs_eq (h : Accounts s t) : offJobs t.leap = offJobs s.leap := by
  obtain ⟨_, _, _, rfl⟩ := h
  rfl

theorem offJobs_foldl {α : Type} {f : State → α → State} (h : ∀ t x, offJobs (f t x).leap = offJobs t.leap) (l : List α) (s : State) :
    offJobs (l.foldl f s).leap = offJobs s.leap := by
  induction l generalizing s with
  | nil => rfl
  | cons x r ih => rw [List.foldl_cons, ih, h]

theorem offJobs_keepScore (s : State) (r : Score) : offJobs (keepScore s r).leap = offJobs s.leap := by
  unfold keepScore
  rfl

theorem offJobs_giveResult (s : State) (j : Job) (time status : Nat) (y : List Nat) : offJobs (giveResult s j time status y).leap = offJobs s.leap := by
  unfold giveResult
  split
  · rfl
  · dsimp only
    rw [modTally_leap]
    split
    · rw [offJobs_keepScore]
      rfl
    · rfl

theorem offJobs_endJob (s : State) (n status : Nat) (y : List Nat) : offJobs (endJob s n status y).leap = offJobs s.leap := by
  cases hj : jobAt s n with
  | none => rw [endJob_of_none hj]
  | some j =>
    cases hlive : jobLive j with
    | false => rw [endJob_of_ended hj hlive]
    | true => rw [endJob_of_live hj hlive, readerJob_leap, offJobs_giveResult, countEnd_leap, (accounts_closeStrands j).offJobs_eq]

theorem offJobs_discardJobs (s : State) (status : Nat) (p : Job → Bool) : offJobs (discardJobs s status p).leap = offJobs s.leap :=
  offJobs_foldl (fun t (j : Job) => offJobs_endJob t j.jid status []) _ s

theorem offJobs_vtJoin (s : State) (v : Nat) : offJobs (vtJoin s v).leap = offJobs s.leap := by
  unfold vtJoin
  split <;> rfl

theorem offJobs_wakeJobs (s : State) (n cid bundle cls : Nat) : offJobs (wakeJobs s n cid bundle cls).leap = offJobs s.leap :=
  offJobs_foldl (fun t (j : Job) => by rw [← offJobs_vtJoin t j.view]; rfl) _ s

/-! The end of jobs: the counters -/

theorem rcGet_congr (h : t.rc = s.rc) (q : RcReg) : rcGet t q = rcGet s q := by rw [rcGet, h, ← rcGet]

theorem Accounts.rc_eq (h : Accounts s t) : t.rc = s.rc := by
  obtain ⟨_, _, _, rfl⟩ := h
  rfl

theorem rcGet_countEnd (hf : q ≠ .leapFailed) (hd : q ≠ .leapDiscard) (s : State) (status : Nat) : rcGet (countEnd s status) q = rcGet s q := by
  unfold countEnd
  split
  · exact rcGet_rcAdd_ne hf.symm 1
  · split
    · rfl
    · exact rcGet_rcAdd_ne hd.symm 1

theorem rcGet_endJob (hf : q ≠ .leapFailed) (hd : q ≠ .leapDiscard) (s : State) (n status : Nat) (y : List Nat) :
    rcGet (endJob s n status y) q = rcGet s q := by
  cases hj : jobAt s n with
  | none => rw [endJob_of_none hj]
  | some j =>
    cases hlive : jobLive j with
    | false => rw [endJob_of_ended hj hlive]
    | true =>
      rw [endJob_of_live hj hlive, rcGet_congr (resultFrame_readerJob n).rc, rcGet_congr (resultFrame_giveResult j _ y).rc, rcGet_countEnd hf hd,
        rcGet_congr (accounts_closeStrands j).rc_eq]

/-- Jobs that end count as failed or discarded, and nowhere else (R389). -/
theorem rcGet_discardJobs (hf : q ≠ .leapFailed) (hd : q ≠ .leapDiscard) (s : State) (status : Nat) (p : Job → Bool) :
    rcGet (discardJobs s status p) q = rcGet s q := by
  unfold discardJobs
  generalize s.leap.jobs.filter (fun j => jobLive j && p j) = l
  induction l generalizing s with
  | nil => rfl
  | cons j r ih => rw [List.foldl_cons, ih, rcGet_endJob hf hd]

end Sys2Proof.Machine
end

section
/-!
The hot set's commands (R403 to R407, R413, R425): what LOAD, EVICT, PIN, UNPIN and REPAIR leave of the number or bundle that LEAP's registers name.
-/
namespace Sys2Proof.Machine

variable {s : State} {a : Access} {x : Load} {f : Load → Load} {sh : Shadow} {n bundle : Nat}

/-! The commands, as writes of LEAP_HOT_CMD -/

theorem putAt_hotCmd (h : reaches s a 3) (d : Nat) : putAt s a 0x3120 d = answered a (hotWrite (touch s 3) d) :=
  putAt_reaches h (r := .cap .hotCmd) (x := .cap .hotCmd) rfl rfl

theorem exec_load (h : reaches s a 3) :
    exec (.load a) s = .next (answered a (leapSettle (touch s 3) (loadCmd (touch s 3) (rwGet s .leapHotArg)))) :=
  congrArg Host.Outcome.next (putAt_hotCmd h 1)

theorem exec_evict (h : reaches s a 3) :
    exec (.evict a) s = .next (answered a (pumpRuns (leapSettle (touch s 3) (evictCmd (touch s 3) (rwGet s .leapHotSel))))) :=
  congrArg Host.Outcome.next (putAt_hotCmd h 2)

theorem exec_pin (h : reaches s a 3) : exec (.pin a) s = .next (answered a (pinCmd (touch s 3) (rwGet s .leapHotSel) true)) :=
  congrArg Host.Outcome.next (putAt_hotCmd h 3)

theorem exec_unpin (h : reaches s a 3) :
    exec (.unpin a) s = .next (answered a (leapSettle (touch s 3) (pinCmd (touch s 3) (rwGet s .leapHotSel) false))) :=
  congrArg Host.Outcome.next (putAt_hotCmd h 4)

theorem exec_repair (h : reaches s a 3) :
    exec (.repair a) s = .next (answered a (leapSettle (touch s 3) (repairCmd (touch s 3) (rwGet s .leapHotSel)))) :=
  congrArg Host.Outcome.next (putAt_hotCmd h 5)

theorem awake_of_reaches {u : Nat} (h : reaches s a u) : asleep s u = false := by
  obtain ⟨_, _, _, hawake⟩ := h
  exact hawake

/-! PIN and UNPIN -/

theorem pinCmd_of_number (h : n < Config.models s.integ) (on : Bool) : pinCmd s n on = modModel s n (fun m => { m with hpin := on }) := if_pos h

theorem pinCmd_of_none (h : Config.models s.integ ≤ n) (on : Bool) : pinCmd s n on = s := if_neg (Nat.not_lt.mpr h)

/-! LOAD -/

theorem loadCmd_of_known (h : bundleNumber s bundle = some n) : loadCmd s bundle = useModel s n := by
  rw [loadCmd, h]

theorem loadCmd_of_new (h : bundleNumber s bundle = none) (hd : demanded s bundle = false) : loadCmd s bundle = mmPump (startDemand s bundle true) := by
  rw [loadCmd, h]
  exact if_neg (by simp [hd])

theorem used_useModel (s : State) (n : Nat) : (modelAt (useModel s n) n).used = s.leap.useSeq + 1 := by
  rw [useModel, modelAt_modModel_self]

/-- A load whose number no other has, changed in the list. -/
theorem map_load_append {l : List Load} (hl : ∀ z ∈ l, z.lid ≠ x.lid) :
    (l ++ [x]).map (fun z => if z.lid == x.lid then f z else z) = l ++ [f x] := by
  have hrest : l.map (fun z => if z.lid == x.lid then f z else z) = l :=
    (List.map_congr_left fun z hz => if_neg (by simpa using hl z hz)).trans (List.map_id l)
  rw [List.map_append, hrest]
  simp

/-- A load begins under the next number. -/
def loadBegun (s : State) (x : Load) : State := modLeap s (fun l => { l with loadSeq := l.loadSeq + 1, loads := l.loads ++ [x] })

theorem modLoad_loadBegun (hl : ∀ z ∈ s.leap.loads, z.lid ≠ x.lid) (f : Load → Load) : modLoad (loadBegun s x) x.lid f = loadBegun s (f x) := by
  simp only [modLoad, loadBegun, modLeap, map_load_append hl]

theorem lid_ne_next (hlid : ∀ z ∈ s.leap.loads, z.lid ≤ s.leap.loadSeq) : ∀ z ∈ s.leap.loads, z.lid ≠ s.leap.loadSeq + 1 :=
  fun z hz => Nat.ne_of_lt (Nat.lt_succ_of_le (hlid z hz))

/-- The load that a LOAD command starts, with its number where it has one (R404). -/
def hostLoad (s : State) (bundle : Nat) (model : Option Nat) : Load :=
  ⟨s.leap.loadSeq + 1, bundle, model, none, false, false, false, false, model.isNone, true, .table, 0, 0, [], none⟩

/-- The load and its number, which counts as used, before the fetch begins. -/
def hostLoading (s : State) (bundle n : Nat) : State :=
  useModel (modModel (loadBegun s (hostLoad s bundle (some n))) n (fun m => { m with st := 1, bundle := bundle })) n

theorem giveNumber_hostLoad (hserve : (modelAt s n).serving = none) (hlid : ∀ z ∈ s.leap.loads, z.lid ≤ s.leap.loadSeq) :
    giveNumber (loadBegun s (hostLoad s bundle none)) (hostLoad s bundle none) n = hostLoading s bundle n := by
  have hlisted := modLoad_loadBegun (x := hostLoad s bundle none) (lid_ne_next hlid) (fun z => { z with model := some n, demand := false })
  refine congrArg (useModel · n) ((congrArg (fun t => modModel t n _) hlisted).trans (modModel_congr (if_pos ?_)))
  exact Option.isNone_iff_eq_none.mpr hserve

theorem startDemand_of_number (hn : emptyNumber s = some n) (hserve : (modelAt s n).serving = none) (hlid : ∀ z ∈ s.leap.loads, z.lid ≤ s.leap.loadSeq) :
    startDemand s bundle true = fetchTable (hostLoading s bundle n) (hostLoad s bundle (some n)) := by
  have hn' : emptyNumber (modLeap s (fun l => { l with loadSeq := l.loadSeq + 1 })) = some n := hn
  rw [← giveNumber_hostLoad hserve hlid]
  unfold startDemand
  dsimp only
  rw [hn']
  rfl

/-- With a valid key and a table in host memory a load reads the table first (R399). -/
theorem fetchTable_of_host (hkey : s.rst.keyState = 1) (hawake : asleep s 3 = false) (hcount : rwGet s .leapBundleCount ≠ 0) :
    fetchTable s x = mmReadJob (modLoad (touch s 3) x.lid (fun z => { z with phase := .table })) (.bundleTable x.lid) 2 255
      (pairBase s .leapBundleBase) (16 * rwGet s .leapBundleCount) := by
  have hkey' : ¬ (touch s 3).rst.keyState ≠ 1 := by simp [hkey]
  have hawake' : ¬ asleep (touch s 3) 3 = true := by simp [hawake]
  exact (if_neg hkey').trans ((if_neg hawake').trans (if_neg hcount))

/-- A load that the change does not touch, or that is not there, leaves the list as it is. -/
theorem modLoad_of_fixed {lid : Nat} (h : ∀ z ∈ s.leap.loads, z.lid = lid → f z = z) : modLoad s lid f = s := by
  have hloads : s.leap.loads.map (fun z => if z.lid == lid then f z else z) = s.leap.loads :=
    (List.map_congr_left fun z hz => ite_eq_right_iff.mpr fun hlid => h z hz (by simpa using hlid)).trans (List.map_id _)
  simp only [modLoad, modLeap, hloads]

/-- The read of the bundle table begins (R399). -/
def tableAsked (s : State) (bundle n : Nat) : State :=
  mmReadJob (touch (hostLoading s bundle n) 3) (.bundleTable (hostLoad s bundle (some n)).lid) 2 255 (pairBase s .leapBundleBase)
    (16 * rwGet s .leapBundleCount)

/-- Power, registers and the key stand. -/
theorem hostLoading_keeps (s : State) (bundle n : Nat) : (hostLoading s bundle n).pow = s.pow ∧ (hostLoading s bundle n).rw = s.rw ∧
    (hostLoading s bundle n).rst = s.rst := by
  simp [hostLoading, useModel, modModel, loadBegun]

theorem rwGet_hostLoading (s : State) (bundle n : Nat) (r : RwReg) : rwGet (hostLoading s bundle n) r = rwGet s r := by
  obtain ⟨_, hrw, _⟩ := hostLoading_keeps s bundle n
  rw [rwGet, hrw, ← rwGet]

/-- The new load reads the table, and does so already where it stands in the list. -/
theorem modLoad_hostLoading (hlid : ∀ z ∈ s.leap.loads, z.lid ≤ s.leap.loadSeq) :
    modLoad (touch (hostLoading s bundle n) 3) (hostLoad s bundle (some n)).lid (fun z => { z with phase := .table }) =
      touch (hostLoading s bundle n) 3 := by
  refine modLoad_of_fixed fun z hz hnext => ?_
  rcases List.mem_append.mp hz with hold | hnew
  · exact absurd hnext (lid_ne_next hlid z hold)
  · rw [List.mem_singleton.mp hnew]
    rfl

/-- LOAD of a bundle that LEAP does not have takes the number and reads the table (R399, R404). -/
theorem loadCmd_of_fresh (hb : bundleNumber s bundle = none) (hd : demanded s bundle = false) (hawake : asleep s 3 = false) (hkey : s.rst.keyState = 1)
    (hcount : rwGet s .leapBundleCount ≠ 0) (hn : emptyNumber s = some n) (hserve : (modelAt s n).serving = none)
    (hlid : ∀ z ∈ s.leap.loads, z.lid ≤ s.leap.loadSeq) :
    loadCmd s bundle = mmPump (tableAsked s bundle n) := by
  obtain ⟨hpow, _, hrst⟩ := hostLoading_keeps s bundle n
  have hkey' : (hostLoading s bundle n).rst.keyState = 1 := by rw [hrst, hkey]
  have hawake' : asleep (hostLoading s bundle n) 3 = false := by rwa [asleep, powOf, hpow]
  have hcount' : rwGet (hostLoading s bundle n) .leapBundleCount ≠ 0 := by rwa [rwGet_hostLoading]
  have htable := fetchTable_of_host (s := hostLoading s bundle n) (x := hostLoad s bundle (some n)) hkey' hawake' hcount'
  rw [pairBase, rwGet_hostLoading, rwGet_hostLoading, rwGet_hostLoading, ← pairBase, modLoad_hostLoading hlid] at htable
  rw [loadCmd_of_new hb hd, startDemand_of_number hn hserve hlid, htable, tableAsked]

theorem modelAt_hostLoading (s : State) (bundle n : Nat) :
    modelAt (hostLoading s bundle n) n = { modelAt s n with st := 1, bundle := bundle, used := s.leap.useSeq + 1 } := by
  have hmodel : modelAt (modModel (loadBegun s (hostLoad s bundle (some n))) n (fun m => { m with st := 1, bundle := bundle })) n =
      { modelAt s n with st := 1, bundle := bundle } := modelAt_modModel_self _ _ _
  exact (modelAt_modModel_self _ _ _).trans (congrArg (fun m : Model => { m with used := s.leap.useSeq + 1 }) hmodel)

/-! EVICT -/

theorem evictCmd_of_pinned (h : tablePinned s n = true) : evictCmd s n = { s with leap := { s.leap with cmdRefused := true } } := if_pos h

theorem evictCmd_of_unpinned (h : tablePinned s n = false) : evictCmd s n = loadPump (evictModel s n true) := if_neg (by simp [h])

/-- A resident number is EVICTING, its loads dropped and the eviction counted (R406). -/
def emptying (s : State) (n : Nat) : State :=
  rcInc (modModel (dropLoads s n) n (fun m => { m with st := 7, next := none })) .leapHotEvict

/-- An eviction then ends jobs of the number alone. -/
theorem evictModel_of_resident (h0 : (modelAt s n).st ≠ 0) (h7 : (modelAt s n).st ≠ 7) : ∃ p, evictModel s n true = discardJobs (emptying s n) 6 p := by
  have hresident : ¬ ((modelAt s n).st = 0 ∨ (modelAt s n).st = 7) := by simp [h0, h7]
  exact ⟨_, if_neg hresident⟩

theorem modelAt_emptying (s : State) (n : Nat) : modelAt (emptying s n) n = { modelAt s n with st := 7, next := none } := by
  rw [emptying, modelAt_congr (congrArg LeapU.models (rcInc_leap _ _)), modelAt_modModel_self]
  rfl

theorem rcGet_emptying (s : State) (n : Nat) : rcGet (emptying s n) .leapHotEvict = add32 (rcGet s .leapHotEvict) 1 :=
  (rcGet_rcInc _ .leapHotEvict .leapHotEvict).trans (if_pos rfl)

/-! REPAIR -/

theorem repairCmd_of_sound (h : (modelAt s n).st ≠ 5) : repairCmd s n = { s with leap := { s.leap with cmdRefused := true } } := if_neg h

theorem repairCmd_of_degraded (h : (modelAt s n).st = 5) : repairCmd s n = startRepair s n := if_pos h

theorem startRepair_of_busy (h : s.leap.loads.any (fun l => l.model == some n) = true) :
    startRepair s n = modModel s n (fun m => { m with repairDue := true }) := if_pos h

/-- With no other load of the number a repair starts from the shadow (R413). -/
theorem startRepair_of_shadow (h : s.leap.loads.any (fun l => l.model == some n) = false) (hsh : shadowOf s n (modelAt s n) = some sh) :
    ∃ isFb, startRepair s n = loadPump (shadowLoad (modModel s n (fun m => { m with repairDue := false })) sh n none false true isFb) := by
  unfold startRepair
  dsimp only
  rw [if_neg (by simp [h]), hsh]
  exact ⟨_, rfl⟩

theorem bundle_of_shadowOf {m : Model} (h : shadowOf s n m = some sh) : sh.bundle = m.bundle := by
  have hfound := List.find?_some h
  simp only [Bool.and_eq_true, beq_iff_eq] at hfound
  exact hfound.1

/-- Settles O38: each command is a write of LEAP_HOT_CMD; a LOAD takes its number and reads the table (`loadCmd_of_fresh`), an eviction ends jobs alone once
the number is EVICTING (`evictModel_of_resident`), and a repair starts from the shadow (`startRepair_of_shadow`). -/
theorem hotSetCommands : Obligations.HotSetCommands := by
  refine ⟨fun s a h hn => ⟨?_, ?_⟩, fun s a h hn => ⟨?_, ?_⟩, fun s a n h hb => ⟨_, ?_, used_useModel (touch s 3) n, rfl, rfl⟩,
    fun s a n h hb hd hkey hcount hn hserve hlid => ?_, fun s a h hpin => ?_, fun s a h hpin h0 h7 => ?_, fun s a h hst => ?_,
    fun s a sh h => ?_, fun s a h hst hbusy => ?_⟩
  · rw [exec_pin h, pinCmd_of_number (s := touch s 3) hn]
  · rw [exec_unpin h, pinCmd_of_number (s := touch s 3) hn]
  · rw [exec_pin h, pinCmd_of_none (s := touch s 3) hn]
  · rw [exec_unpin h, pinCmd_of_none (s := touch s 3) hn]
  · rw [exec_load h, loadCmd_of_known (s := touch s 3) hb]
  · have hawake : asleep (touch s 3) 3 = false := (asleep_touch s 3 3).trans (awake_of_reaches h)
    obtain ⟨j, hj, hreq⟩ := exists_job_mmPump (s := tableAsked (touch s 3) (rwGet s .leapHotArg) n)
      (List.mem_append_right _ (List.mem_singleton_self _))
    have hleap : (mmPump (tableAsked (touch s 3) (rwGet s .leapHotArg) n)).leap = (hostLoading (touch s 3) (rwGet s .leapHotArg) n).leap :=
      mmPump_leap _
    have hmodel := (modelAt_congr (congrArg LeapU.models hleap) n).trans (modelAt_hostLoading (touch s 3) (rwGet s .leapHotArg) n)
    refine ⟨_, hostLoad s (rwGet s .leapHotArg) (some n), ?_, congrArg LeapU.loads hleap, rfl, rfl, rfl, rfl, congrArg Model.st hmodel,
      congrArg Model.bundle hmodel, congrArg Model.used hmodel, j, hj, congrArg MmJob.owner hreq, congrArg MmJob.write hreq, congrArg MmJob.addr hreq,
      congrArg MmJob.len hreq⟩
    rw [exec_load h, loadCmd_of_fresh (s := touch s 3) hb hd hawake hkey hcount hn hserve hlid]
  · rw [exec_evict h, evictCmd_of_pinned (s := touch s 3) hpin]
    rfl
  · obtain ⟨p, hevict⟩ := evictModel_of_resident (s := touch s 3) h0 h7
    have hoff := offJobs_discardJobs (emptying (touch s 3) (rwGet s .leapHotSel)) 6 p
    have hmodel := (modelAt_congr (models_of_offJobs hoff) (rwGet s .leapHotSel)).trans (modelAt_emptying (touch s 3) _)
    refine ⟨_, ?_, congrArg Model.st hmodel, congrArg Model.next hmodel, ?_⟩
    · rw [exec_evict h, evictCmd_of_unpinned (s := touch s 3) hpin, hevict]
    · rw [rcGet_discardJobs (by decide) (by decide), rcGet_emptying]
      rfl
  · rw [exec_repair h, repairCmd_of_sound (s := touch s 3) hst]
    rfl
  · intro n hst hsh hfree
    obtain ⟨isFb, hrepair⟩ := startRepair_of_shadow (s := touch s 3) hfree hsh
    rw [exec_repair h, repairCmd_of_degraded (s := touch s 3) hst, hrepair]
    exact ⟨_, _, rfl, rfl, rfl, bundle_of_shadowOf (m := modelAt s n) hsh, rfl, rfl, rfl⟩
  · rw [exec_repair h, repairCmd_of_degraded (s := touch s 3) hst, startRepair_of_busy (s := touch s 3) hbusy]

end Sys2Proof.Machine
end

section
/-!
A bundle's way into service (R401 to R414): the end of FETCH, what a refused load leaves, the end of VERIFY, and the copy that INSTALL has written.
-/
namespace Sys2Proof.Machine

variable {s t : State} {x : Load} {c : Copy} {n code i : Nat} {p : LoadPh}

/-! The commands -/

theorem exec_bundleVerifyDone (h : asleep s 3 = false) : exec .bundleVerifyDone s = .next (settled (touch s 3) (verifyDone (touch s 3))) :=
  congrArg Host.Outcome.next (whenOn_of_awake h _)

theorem exec_installDone (h : asleep s 3 = false) (bad : Option Nat) :
    exec (.installDone bad) s = .next (settled (touch s 3) (installDone (touch s 3) bad)) := congrArg Host.Outcome.next (whenOn_of_awake h _)

theorem find?_phase_of_none (h : ∀ y ∈ s.leap.loads, y.phase ≠ p) : s.leap.loads.find? (fun y => y.phase == p) = none :=
  List.find?_eq_none.mpr fun y hy => by simpa using h y hy

/-! FETCH -/

theorem fetchDone_of_none (h : ∀ y ∈ s.leap.loads, y.phase ≠ .fetched) : fetchDone s = s := by
  rw [fetchDone, find?_phase_of_none h]

theorem fetchDone_of_fetched (h : s.leap.loads.find? (fun y => y.phase == .fetched) = some x) (hn : x.model = some n) :
    fetchDone s = modModel (modLoad s x.lid (fun y => { y with phase := .verify })) n (fun m => { m with st := if m.st = 1 then 2 else m.st }) := by
  rw [fetchDone, h]
  dsimp only
  rw [hn]

/-! A refusal -/

/-- A fallback switch changes models, and starts at most a fallback's load (R414). -/
theorem fallbackSwitch_eq (s : State) (n : Nat) (staged : Bool) : ∃ models seq new, (∀ y ∈ new, Load.isFb y = true) ∧
    fallbackSwitch s n staged = { s with leap := { s.leap with models := models, loadSeq := seq, loads := s.leap.loads ++ new } } := by
  have hmodels (f : Model → Model) : ∃ models seq new, (∀ y ∈ new, Load.isFb y = true) ∧
      modModel s n f = { s with leap := { s.leap with models := models, loadSeq := seq, loads := s.leap.loads ++ new } } :=
    ⟨_, _, [], by simp, by rw [List.append_nil]; rfl⟩
  unfold fallbackSwitch
  split
  · exact ⟨_, _, [], by simp, by rw [List.append_nil]⟩
  · split
    · exact hmodels _
    · split
      · split
        · exact hmodels _
        · exact ⟨_, _, [_], by simp, rfl⟩
      · exact hmodels _

/-- The load is struck from the list with its copy, and the refusal noted and counted (R401). -/
def loadStruck (s : State) (x : Load) (n code : Nat) : State :=
  rcInc (modLeap s (fun l => { l with
    loads := s.leap.loads.filter (fun y => y.lid != x.lid), refCode := code, refModel := n, refBundle := x.bundle
    copies := s.leap.copies.filter (fun c => x.copy != some c.cid) })) .leapLoadRefused

/-- What is left of a load refused with `code`: the record of the refusal, its count, and of its number at most a fallback's load. -/
structure Refused (s : State) (x : Load) (n code : Nat) (t : State) : Prop where
  code   : t.leap.refCode = code
  model  : t.leap.refModel = n
  bundle : t.leap.refBundle = x.bundle
  count  : rcGet t .leapLoadRefused = add32 (rcGet s .leapLoadRefused) 1
  gone   : ∀ y ∈ t.leap.loads, y.lid = x.lid → y.isFb = true

theorem refused_loadStruck (s : State) (x : Load) (n code : Nat) : Refused s x n code (loadStruck s x n code) where
  code := by simp [loadStruck]
  model := by simp [loadStruck]
  bundle := by simp [loadStruck]
  count := (rcGet_rcInc _ .leapLoadRefused .leapLoadRefused).trans (if_pos rfl)
  gone y hy hlid := by simp [loadStruck, hlid] at hy

theorem Refused.fallbackSwitch (h : Refused s x n code t) (m : Nat) (staged : Bool) : Refused s x n code (fallbackSwitch t m staged) := by
  obtain ⟨models, seq, new, hnew, heq⟩ := fallbackSwitch_eq t m staged
  rw [heq]
  exact ⟨h.code, h.model, h.bundle, h.count, fun y hy hlid => (List.mem_append.mp hy).elim (fun hold => h.gone y hold hlid) (hnew y)⟩

theorem Refused.modModel (h : Refused s x n code t) (m : Nat) (f : Model → Model) : Refused s x n code (modModel t m f) where
  code := h.code
  model := h.model
  bundle := h.bundle
  count := h.count
  gone := h.gone

theorem Refused.discardJobs (h : Refused s x n code t) (status : Nat) (p : Job → Bool) : Refused s x n code (discardJobs t status p) := by
  have hoff := offJobs_discardJobs t status p
  obtain ⟨hcode, hmodel, hbundle⟩ := refusal_of_offJobs hoff
  exact ⟨hcode.trans h.code, hmodel.trans h.model, hbundle.trans h.bundle, (rcGet_discardJobs (by decide) (by decide) _ _ _).trans h.count,
    fun y hy hlid => h.gone y (loads_of_offJobs hoff ▸ hy) hlid⟩

theorem Refused.sweepModels (h : Refused s x n code t) : Refused s x n code (sweepModels t) where
  code := h.code
  model := h.model
  bundle := h.bundle
  count := h.count
  gone := h.gone

theorem refused_refuseLoad (hn : x.model = some n) (s : State) (code : Nat) : Refused s x n code (refuseLoad s x code) := by
  have hstruck := (refused_loadStruck s x n code).modModel n (fun m => { m with next := if x.copy.isSome ∧ m.next = x.copy then none else m.next })
  have hswept := (hstruck.discardJobs 6 (fun j => j.cid == 0 && j.bundle == x.bundle)).sweepModels
  unfold refuseLoad
  simp only [hn, Option.getD_some]
  split
  · exact hswept
  · exact hswept.fallbackSwitch n x.staged

/-! VERIFY -/

theorem verifyDone_of_none (h : ∀ y ∈ s.leap.loads, y.phase ≠ .verify) : verifyDone s = s := by
  rw [verifyDone, find?_phase_of_none h]

theorem verifyDone_of_bad (h : s.leap.loads.find? (fun y => y.phase == .verify) = some x)
    (hbad : bundleBad s.integ s.rst.key (governing s x) x.cls x.bundle x.len x.data = some code) : verifyDone s = loadPump (refuseLoad s x code) := by
  rw [verifyDone, h]
  dsimp only
  rw [hbad]

/-- A good bundle of a number is shadowed, and its load waits for a region (R402, R405). -/
theorem verifyDone_of_good (h : s.leap.loads.find? (fun y => y.phase == .verify) = some x) (hn : x.model = some n)
    (hgood : bundleBad s.integ s.rst.key (governing s x) x.cls x.bundle x.len x.data = none) : verifyDone s =
      loadPump (modLoad (modLeap s (fun l => { l with shadows := l.shadows ++ [⟨x.bundle, some n, x.data⟩] })) x.lid
        (fun y => { y with phase := .region })) := by
  rw [verifyDone, h]
  dsimp only
  rw [hgood]
  dsimp only
  rw [hn]

/-! INSTALL -/

theorem installDone_of_none (h : ∀ y ∈ s.leap.loads, y.phase ≠ .install) (bad : Option Nat) : installDone s bad = s := by
  rw [installDone, find?_phase_of_none h]

/-- A copy with its trees, pads and depths as the bundle gives them (R409). -/
def copyWritten (c : Copy) (b : Bytes) : Copy :=
  { c with
    done := true, depths := bunDepths b, pads := (bunPads b).map (fun l => l.map (fun p => (p.1, p.2 + c.origin)))
    trees := (List.range (bunTrees b)).map (fun t => { bunTree b t with base := (bunTree b t).base + c.origin, retired := false }) }

theorem copyAt_writeCopy (h : s.leap.copies.any (fun y => y.cid == c.cid) = true) (hc : copyAt s c.cid = c) (b : Bytes) :
    copyAt (writeCopy s c b) c.cid = copyWritten c b := by
  unfold writeCopy
  dsimp only
  rw [copyAt_modCopy_self]
  · exact congrArg (fun y : Copy => { y with
      done := true, depths := (copyWritten c b).depths, pads := (copyWritten c b).pads, trees := (copyWritten c b).trees }) hc
  · exact fun _ => rfl
  · exact h

/-- No tree of a copy just written is retired, so its number is READY. -/
theorem servingSt_copyWritten (c : Copy) (b : Bytes) : servingSt (copyWritten c b) = 4 := by
  simp [servingSt, copyWritten]

/-- The copy is written and its load has ended. -/
def copyInstalled (s : State) (x : Load) (c : Copy) : State :=
  modLeap (writeCopy s c x.data) (fun l => { l with loads := l.loads.filter (fun y => y.lid != x.lid) })

theorem modelAt_copyInstalled (s : State) (x : Load) (c : Copy) (n : Nat) : modelAt (copyInstalled s x c) n = modelAt s n := rfl

/-- The copy serves its number (R403, R410). -/
def copyServes (s : State) (x : Load) (c : Copy) : State :=
  wakeJobs (modModel (copyInstalled s x c) c.model (fun m => { m with
    st := servingSt (copyAt (copyInstalled s x c) c.cid), serving := some c.cid, bundle := c.bundle })) c.model c.cid c.bundle c.cls

theorem installDone_of_first (hx : s.leap.loads.find? (fun y => y.phase == .install) = some x) (hcopy : x.copy = some c.cid) (hc : copyAt s c.cid = c)
    (hserve : (modelAt s c.model).serving = none) (hedge : (modelAt s c.model).atEdge = false) (hst : (modelAt s c.model).st ≠ 7)
    (hstaged : x.staged = false) :
    ∃ o, installDone s none = loadPump (modLeap (copyServes s x c) (fun l => { l with overcommit := o })) := by
  have hfirst : ((modelAt (copyInstalled s x c) c.model).serving.isNone && !x.staged && !(modelAt (copyInstalled s x c) c.model).atEdge &&
      (modelAt (copyInstalled s x c) c.model).st != 7) = true := by
    simp [modelAt_copyInstalled, hserve, hedge, hst, hstaged]
  have hnoted (p : Bool) : ∃ o, loadPump (if p then modLeap (copyServes s x c) (fun l => { l with overcommit := true }) else copyServes s x c) =
      loadPump (modLeap (copyServes s x c) (fun l => { l with overcommit := o })) := by
    cases p
    · exact ⟨(copyServes s x c).leap.overcommit, rfl⟩
    · exact ⟨true, rfl⟩
  unfold installDone
  rw [hx]
  dsimp only
  rw [hcopy, Option.getD_some, hc, ← copyInstalled, if_pos hfirst]
  exact hnoted _

/-- The number serves the copy. -/
theorem modelAt_copyServes (s : State) (x : Load) (c : Copy) : modelAt (copyServes s x c) c.model =
    { modelAt s c.model with st := servingSt (copyAt (copyInstalled s x c) c.cid), serving := some c.cid, bundle := c.bundle } := by
  rw [copyServes, modelAt_congr (models_of_offJobs (offJobs_wakeJobs _ _ _ _ _)), modelAt_modModel_self, modelAt_copyInstalled]

theorem loads_copyServes (s : State) (x : Load) (c : Copy) : (copyServes s x c).leap.loads = s.leap.loads.filter (fun y => y.lid != x.lid) :=
  loads_of_offJobs (offJobs_wakeJobs _ _ _ _ _)

theorem copyAt_copyInstalled (h : s.leap.copies.any (fun y => y.cid == c.cid) = true) (hc : copyAt s c.cid = c) :
    copyAt (copyInstalled s x c) c.cid = copyWritten c x.data := copyAt_writeCopy h hc x.data

theorem copyAt_copyServes (h : s.leap.copies.any (fun y => y.cid == c.cid) = true) (hc : copyAt s c.cid = c) :
    copyAt (copyServes s x c) c.cid = copyWritten c x.data := by
  rw [copyServes, copyAt_congr (copies_of_offJobs (offJobs_wakeJobs _ _ _ _ _)), copyAt_modModel, copyAt_copyInstalled h hc]

theorem contains_noted (l : List Nat) (u : Nat) : (if l.contains u then l else l ++ [u]).contains u = true := by
  by_cases h : u ∈ l <;> simp [h]

/-- A word that reads back wrong is counted, its unit quarantined and the copy dropped (R410). -/
def copyDropped (s : State) (c : Copy) (i : Nat) : State :=
  rcInc (modLeap s (fun l => { l with
    quar := if l.quar.contains ((c.origin + i) / 1024) then l.quar else l.quar ++ [(c.origin + i) / 1024]
    copies := l.copies.filter (fun y => y.cid != c.cid) })) .leapInstallBad

theorem rcGet_copyDropped (s : State) (c : Copy) (i : Nat) : rcGet (copyDropped s c i) .leapInstallBad = add32 (rcGet s .leapInstallBad) 1 :=
  (rcGet_rcInc _ .leapInstallBad .leapInstallBad).trans (if_pos rfl)

theorem quar_copyDropped (s : State) (c : Copy) (i : Nat) : (copyDropped s c i).leap.quar.contains ((c.origin + i) / 1024) = true := by
  rw [copyDropped, rcInc_leap]
  exact contains_noted _ _

theorem copies_copyDropped (s : State) (c : Copy) (i : Nat) : (copyDropped s c i).leap.copies = s.leap.copies.filter (fun y => y.cid != c.cid) := by
  rw [copyDropped, rcInc_leap, modLeap_leap]

/-- The load of a dropped copy waits for another region. -/
theorem installDone_of_bad (hx : s.leap.loads.find? (fun y => y.phase == .install) = some x) (hcopy : x.copy = some c.cid) (hc : copyAt s c.cid = c)
    (i : Nat) : installDone s (some i) = loadPump (modLoad
      (modModel (copyDropped s c i) c.model (fun m => { m with next := if m.next = some c.cid then none else m.next })) x.lid
      (fun y => { y with phase := .region, copy := none })) := by
  unfold installDone
  rw [hx]
  dsimp only
  rw [hcopy, Option.getD_some, hc]
  rfl

/-- Settles O39: VERIFY refuses the load (`refused_refuseLoad`) or leaves its shadow (`verifyDone_of_good`); an installed copy is as the bundle gives it
(`copyAt_copyServes`) and serves its number (`modelAt_copyServes`), and one that reads back wrong is dropped (`installDone_of_bad`). -/
theorem bundlesAreVerifiedBeforeTheyServe : Obligations.BundlesAreVerifiedBeforeTheyServe := by
  refine ⟨fun s x n hx hn => ⟨_, congrArg (fun t => Host.Outcome.next (settled s t)) (fetchDone_of_fetched hx hn), ?_, rfl, rfl⟩,
    fun s h => congrArg (fun t => Host.Outcome.next (settled s t)) (fetchDone_of_none h), fun s x n hx hn hawake => ?_, fun s hawake h => ?_,
    fun s x cid hx hcopy hserve hedge hst hstaged hawake hlisted => ?_, fun s x cid i hx hcopy hawake hlisted => ?_, fun s bad hawake h => ?_⟩
  · rw [modelAt_modModel_self]
    rfl
  · cases hbad : bundleBad s.integ s.rst.key (governing s x) x.cls x.bundle x.len x.data with
    | some code =>
      have hrefused := refused_refuseLoad hn (touch s 3) code
      exact ⟨_, by rw [exec_bundleVerifyDone hawake, verifyDone_of_bad (s := touch s 3) hx hbad], hrefused.code, hrefused.model, hrefused.bundle,
        hrefused.count, hrefused.gone⟩
    | none => exact ⟨_, by rw [exec_bundleVerifyDone hawake, verifyDone_of_good (s := touch s 3) hx hn hbad], rfl, rfl, rfl⟩
  · rw [exec_bundleVerifyDone hawake, verifyDone_of_none (s := touch s 3) h]
  · obtain ⟨_, hcid⟩ := find?_copies_of_listed hlisted
    generalize hc : copyAt s cid = c at *
    subst hcid
    obtain ⟨o, hdone⟩ := installDone_of_first (s := touch s 3) hx hcopy hc hserve hedge hst hstaged
    have hmodel := modelAt_copyServes (touch s 3) x c
    have hwritten := copyAt_copyServes (s := touch s 3) (x := x) hlisted hc
    rw [copyAt_copyInstalled (s := touch s 3) hlisted hc, servingSt_copyWritten] at hmodel
    rw [exec_installDone hawake, hdone]
    exact ⟨_, rfl, congrArg Model.st hmodel, congrArg Model.serving hmodel, congrArg Model.bundle hmodel,
      loads_copyServes (touch s 3) x c, congrArg Copy.done hwritten, congrArg Copy.trees hwritten⟩
  · obtain ⟨_, hcid⟩ := find?_copies_of_listed hlisted
    generalize hc : copyAt s cid = c at *
    subst hcid
    rw [exec_installDone hawake, installDone_of_bad (s := touch s 3) hx hcopy hc]
    exact ⟨_, rfl, rcGet_copyDropped (touch s 3) c i, quar_copyDropped (touch s 3) c i, copies_copyDropped (touch s 3) c i⟩
  · rw [exec_installDone hawake, installDone_of_none (s := touch s 3) h]

end Sys2Proof.Machine
end
